-- ==== Sys2Proof/Word.lean ====
section
/-! DEFINITION. The word types of the part: the 16-bit B16 word (R7), the 32-bit harbour register (R9) and the byte. -/

namespace Sys2Proof

/-- A B16 word, 16 bits (R7). -/
abbrev Word := BitVec 16

/-- A harbour register, 32 bits (R9). -/
abbrev Word32 := BitVec 32

/-- A byte of the cellar, of a packet or of host memory. -/
abbrev Byte := BitVec 8

/-- A number of a W register, 0 to 15 (Table 4-1). -/
abbrev Reg := Fin 16

/-- A number of a segment register, 0 to 7 (Table 4-1). -/
abbrev SegReg := Fin 8

end Sys2Proof
end

