-- ==== Sys2Proof/Forms.lean ====
section
/-! DEFINITION. The operand forms that the commands of Syntax.lean carry. -/

namespace Sys2Proof

/-- The two sources of LDSEG (system group 0x0): a selector in the word, or a register. -/
inductive SegSrc where
  | imm (n : BitVec 4)
  | reg (s : Reg)
  deriving DecidableEq, Repr

/-- The two sources of MOVI (R179): the short immediate of 7 bits, or an extension word. -/
inductive MoviSrc where
  | short (imm : BitVec 7)
  | long (ext : Word)
  deriving DecidableEq, Repr

/-- The address forms of LD and ST (major opcodes 0x4, 0x5 and 0x6). -/
inductive MemForm where
  | base (k : SegReg) (b : Reg)
  | disp (k : SegReg) (b : Reg) (ext : Word)
  | postInc (k : Fin 4) (b : Reg)
  | preDec (k : Fin 4) (b : Reg)
  deriving DecidableEq, Repr

/-- The branch conditions of Table 5-3. -/
inductive Cond where
  | bra | beq | bne | blo | bhs | bmi | bpl | bvs | bvc | bhi | bls | bge | blt | bgt | ble
  deriving DecidableEq, Repr

/-- The two targets of JMP and CALL: an extension word or a register. -/
inductive Target where
  | ext (w : Word)
  | reg (s : Reg)
  deriving DecidableEq, Repr

/-- The two forms of a port operand of IN and OUT: a register (bits [11:0], R141) or an extension word. -/
inductive PortOp where
  | reg (p : Reg)
  | ext (w : Word)
  deriving DecidableEq, Repr

/-- The two operands of WAITL and WAITC: a register or an extension word. -/
inductive WaitOp where
  | reg (s : Reg)
  | ext (w : Word)
  deriving DecidableEq, Repr

/-- Who makes a harbour register or BAR2 access (R26, Table 2-3): a PCIe endpoint (0 on die 0, 1 on die 4), a deputy by its die,
the harbourmaster, or JTAG. -/
inductive Requester where
  | ep (n : Nat)
  | deputy (d : Nat)
  | master
  | jtag
  deriving DecidableEq, Repr

/-- What a boot or a warm restart meets outside the package (file 16): the PROFILE_SEL straps, whether the flash answers, the bits
that the march tests find failing (die, die-local word address, bit), whether every deputy and die responds at step 6,
whether the AVSBus exchanges are acknowledged, and how long it takes in ns. -/
structure BootIn where
  straps : Nat := 0
  answers : Bool := true
  marches : List (Nat × Nat × Nat) := []
  dies : Bool := true
  avs : Bool := true
  took : Nat := 0
  deriving DecidableEq, Repr

/-- A host command: the endpoint and the ring it is fetched from, the 64 bytes that the ring holds at its head (Table 13-3), what host memory holds at
DPTR, and whether the accesses to host memory succeed (HOSTMEM of Table 13-6 otherwise). -/
structure Cmd where
  ep : Nat
  ring : Nat
  entry : List Byte := []
  data : List Byte := []
  memOk : Bool := true
  deriving DecidableEq, Repr

/-- How an MCTP message comes in (R482): its transport, 0 SMBus, else the VDM of endpoint t − 1, and its harbour time. -/
structure Via where
  t : Nat
  at_ : Nat
  deriving DecidableEq, Repr

/-- What a quay's link shows as its FEC aligns (R412, R414): the speed that auto-negotiation chose, 0 for 200 and 1 for 100 Gbit/s, whether the partner
reports a fault, and the harbour time. -/
structure LinkSeen where
  speed : Nat
  fault : Bool
  at_ : Nat
  deriving DecidableEq, Repr

end Sys2Proof
end

