-- ==== Sys2Proof/Syntax.lean ====
section
/-! DEFINITION. The commands of the block, one constructor per row of the command table. -/

namespace Sys2Proof

/-- A command. The first operand b of a berth command is the logical berth ID (R28); k bounds the microcycles a command may grant;
at_ is the harbour time of an outside event; d is a die; t is an MCTP transport, 0 SMBus, else the VDM of endpoint t − 1, and v a transport with the time. -/
inductive Instr where
  | nop (b : Nat)
  | wait (b : Nat)
  | waitEnd (b k : Nat)
  | halt (b : Nat)
  | ei (b : Nat)
  | di (b : Nat)
  | reti (b : Nat)
  | trap (b : Nat) (n : BitVec 4)
  | ldseg (b : Nat) (k : SegReg) (src : SegSrc)
  | rdfl (b : Nat) (d : Reg)
  | wrfl (b : Nat) (s : Reg)
  | mov (b : Nat) (d s : Reg)
  | add (b : Nat) (d s : Reg)
  | adc (b : Nat) (d s : Reg)
  | sub (b : Nat) (d s : Reg)
  | sbc (b : Nat) (d s : Reg)
  | cmp (b : Nat) (d s : Reg)
  | and (b : Nat) (d s : Reg)
  | or (b : Nat) (d s : Reg)
  | xor (b : Nat) (d s : Reg)
  | tst (b : Nat) (d s : Reg)
  | not (b : Nat) (d s : Reg)
  | neg (b : Nat) (d s : Reg)
  | movi (b : Nat) (d : Reg) (src : MoviSrc)
  | addi (b : Nat) (d : Fin 4) (imm : BitVec 8)
  | cmpi (b : Nat) (d : Fin 4) (imm : BitVec 8)
  | andi (b : Nat) (d : Fin 4) (imm : BitVec 8)
  | ld (b : Nat) (d : Reg) (m : MemForm)
  | st (b : Nat) (s : Reg) (m : MemForm)
  | push (b : Nat) (s : Reg)
  | pop (b : Nat) (d : Reg)
  | bcc (b : Nat) (c : Cond) (disp : BitVec 8)
  | jmp (b : Nat) (t : Target)
  | call (b : Nat) (t : Target) (mask : Word)
  | ret (b : Nat)
  | inPort (b : Nat) (d : Reg) (p : PortOp)
  | out (b : Nat) (p : PortOp) (s : Reg)
  | shl (b : Nat) (d : Reg) (n : BitVec 4)
  | shr (b : Nat) (d : Reg) (n : BitVec 4)
  | sar (b : Nat) (d : Reg) (n : BitVec 4)
  | rol (b : Nat) (d : Reg) (n : BitVec 4)
  | ror (b : Nat) (d : Reg) (n : BitVec 4)
  | rcl (b : Nat) (d : Reg) (n : BitVec 4)
  | rcr (b : Nat) (d : Reg) (n : BitVec 4)
  | mulu (b : Nat) (p : Fin 8) (s : Reg)
  | muls (b : Nat) (p : Fin 8) (s : Reg)
  | divu (b : Nat) (p : Fin 8) (s : Reg)
  | divs (b : Nat) (p : Fin 8) (s : Reg)
  | waitl (b : Nat) (o : WaitOp)
  | waitlEnd (b k : Nat)
  | waitc (b : Nat) (o : WaitOp)
  | waitcEnd (b k : Nat)
  | rdbeam (b : Nat) (p : Fin 8)
  | stamp (b : Nat) (port : Word) (s c : Reg)
  | illegalEncoding (b : Nat) (w : Word)
  | interruptEntry (b : Nat)
  | lvPortWrite (b : Nat) (p : PortOp) (s : Reg)
  | shPortWrite (b : Nat) (p : PortOp) (s : Reg)
  | commitArm (b : Nat) (p : PortOp) (s : Reg)
  | paceSet (b : Nat) (p : PortOp) (s : Reg)
  | btValueWrite (b : Nat) (p : PortOp) (s : Reg)
  | biPendWrite (b : Nat) (p : PortOp) (s : Reg)
  | biEoi (b : Nat) (p : PortOp) (s : Reg)
  | ferryGo (b : Nat) (p : PortOp) (s : Reg)
  | ferryAbort (b : Nat) (p : PortOp) (s : Reg)
  | lighterPush (b : Nat) (p : PortOp) (s : Reg)
  | ljDeadtWrite (b : Nat) (p : PortOp) (s : Reg)
  | voiceKeyon (b : Nat) (p : PortOp) (s : Reg)
  | voiceKeyoff (b : Nat) (p : PortOp) (s : Reg)
  | sampleRingConfig (b : Nat) (p : PortOp) (s : Reg)
  | padRpWrite (b : Nat) (p : PortOp) (s : Reg)
  | lentPinWrite (b : Nat) (p : PortOp) (s : Reg)
  | beamLineStart (b k : Nat)
  | frameBoundary (b k : Nat)
  | governorAlign (b : Nat)
  | sampleInstant (b k : Nat)
  | berthTimerMatch (b : Nat) (n : Fin 4) (k : Nat)
  | biModerationRelease (b k : Nat)
  | watchEnd (b : Nat)
  | watchCommit (b at_ : Nat)
  | stampStoreAdmit (d k at_ : Nat)
  | lockstepMismatch (b back fails fr at_ : Nat)
  | faultFreeRelocation (b fr at_ : Nat)
  | crossDockMigration (b fr at_ : Nat)
  | composeLine (d k at_ : Nat)
  | lineRelease (d k check at_ : Nat)
  | pipeWatchdogExpiry (d k at_ : Nat)
  | sparePipeTakeover (d k at_ : Nat)
  | scanoutLineRead (b : Nat)
  | scanSegmentQueue (b : Nat)
  | outputFrameStart (b : Nat)
  | quayTransmitFrame (q at_ : Nat)
  | injectReorderRelease (q at_ : Nat)
  | quayReceiveFrame (q : Nat) (bytes : List Byte) (fcs : Bool) (reply : Option (List Byte)) (at_ : Nat)
  | pfcPauseExpiry (q c : Nat)
  | quayPfcGenerate (q fill at_ : Nat)
  | quayLinkUp (q : Nat) (l : LinkSeen)
  | quayLossOfLock (q cause at_ : Nat)
  | quayFailover (q at_ : Nat)
  | qyTimestampPop (r : Requester) (q : Nat) (tx : Bool) (at_ : Nat)
  | qyInjseedWrite (r : Requester) (q v at_ : Nat)
  | registerWrite (r : Requester) (a size v at_ : Nat)
  | pairLowRead (r : Requester) (a size at_ : Nat)
  | dpLoadRead (r : Requester) (d k off size at_ : Nat)
  | pwTjRead (r : Requester) (d off size at_ : Nat)
  | hostCellarRead (r : Requester) (off n at_ : Nat)
  | hostCellarWrite (r : Requester) (off : Nat) (bytes : List (Option Byte)) (at_ : Nat)
  | ledgerFence (r : Requester) (d v at_ : Nat)
  | ledgerFenceDone (d at_ : Nat)
  | patrolScrubRead (d bank : Nat) (up : Option (Nat × Nat × Nat)) (at_ : Nat)
  | rowRepairStart (d bank at_ : Nat)
  | rowRepairDone (d bank at_ : Nat)
  | fabricLinkDown (d port t : Nat)
  | htGo (r : Requester) (v at_ : Nat)
  | htRelease (k : Nat)
  | htMatch (d n k : Nat)
  | htValueWrite (r : Requester) (d n fld v at_ : Nat)
  | hicPendWrite (r : Requester) (d g v hw at_ : Nat)
  | hicEoi (r : Requester) (d v at_ : Nat)
  | hicModerationRelease (d g t : Nat) (idle : Bool)
  | hostRingEnable (r : Requester) (e v at_ : Nat)
  | hostRingDisable (r : Requester) (e v at_ : Nat)
  | sqTailDoorbell (r : Requester) (e n v at_ : Nat)
  | cqHeadDoorbell (r : Requester) (e n v at_ : Nat)
  | evHeadDoorbell (r : Requester) (e v at_ : Nat)
  | underrunSummaryPost (b at_ : Nat)
  | ledgerDenialEvent (d at_ : Nat)
  | echo (c : Cmd) (at_ : Nat)
  | profileQuery (c : Cmd) (at_ : Nat)
  | profileSelect (c : Cmd) (w : BootIn) (at_ : Nat)
  | clockConfig (c : Cmd) (at_ : Nat)
  | faultLogRead (c : Cmd) (at_ : Nat)
  | measureRead (c : Cmd) (at_ : Nat)
  | mcReload (c : Cmd) (at_ : Nat)
  | berthCreate (c : Cmd) (at_ : Nat)
  | berthDestroy (c : Cmd) (at_ : Nat)
  | segDefine (c : Cmd) (at_ : Nat)
  | cellarWrite (c : Cmd) (at_ : Nat)
  | cellarRead (c : Cmd) (at_ : Nat)
  | pageShare (c : Cmd) (at_ : Nat)
  | berthStart (c : Cmd) (at_ : Nat)
  | berthStartTime (b : Nat)
  | berthPause (c : Cmd) (at_ : Nat)
  | berthResume (c : Cmd) (at_ : Nat)
  | berthMigrate (c : Cmd) (at_ : Nat)
  | berthStatus (c : Cmd) (at_ : Nat)
  | streamBind (c : Cmd) (at_ : Nat)
  | streamUnbind (c : Cmd) (at_ : Nat)
  | inputBind (c : Cmd) (at_ : Nat)
  | quayConfig (c : Cmd) (at_ : Nat)
  | quayInject (c : Cmd) (at_ : Nat)
  | macsecKey (c : Cmd) (at_ : Nat)
  | powerSet (c : Cmd) (at_ : Nat)
  | thermalPolicy (c : Cmd) (at_ : Nat)
  | selftestPolicy (c : Cmd) (at_ : Nat)
  | selftestReport (c : Cmd) (at_ : Nat)
  | mctpCommand (t : Nat) (c : Cmd) (at_ : Nat)
  | mctpStatus (v : Via)
  | setEndpointId (t eid at_ : Nat)
  | getEndpointId (t at_ : Nat)
  | getMctpVersionSupport (v : Via)
  | getMessageTypeSupport (v : Via)
  | getVersion (v : Via)
  | getCapabilities (v : Via) (req : List Byte)
  | negotiateAlgorithms (v : Via) (req : List Byte)
  | getDigests (v : Via)
  | getCertificate (v : Via) (slot off len : Nat)
  | challenge (v : Via) (req : List Byte)
  | getMeasurements (v : Via) (signed : Bool) (idx : Nat) (req : List Byte)
  | keyExchange (v : Via) (half : Nat) (req : List Byte)
  | finish (v : Via) (id : Nat) (req : List Byte)
  | endSession (v : Via) (id : Nat)
  | ferryManifestStart (b at_ : Nat)
  | ferryStreamUnit (b at_ : Nat)
  | ferryManifestComplete (b n at_ : Nat)
  | lighterJobStart (b at_ : Nat)
  | lighterRowComplete (b tag at_ : Nat)
  | lighterJobComplete (b tag at_ : Nat)
  | engineFault (d k e cause at_ : Nat)
  | voterDisagree (d : Nat) (hm : Bool) (m at_ : Nat)
  | voterRejoin (d : Nat) (hm : Bool) (m at_ : Nat)
  | selftestSchedule (d at_ : Nat)
  | selftestTurnStart (d at_ : Nat)
  | selftestBudgetEnd (d kind unit at_ : Nat)
  | selftestSliceEnd (d kind unit sig bit addr rows at_ : Nat)
  | jtagScanEnter (at_ : Nat)
  | wdogKick (r : Requester) (v at_ : Nat)
  | wdogTimeoutSet (r : Requester) (v at_ : Nat)
  | watchdogExpiry (w : BootIn) (at_ : Nat)
  | pwModeOn (r : Requester) (d v at_ : Nat)
  | pwModeArm (r : Requester) (d v at_ : Nat)
  | domainEntry (d ap1 at_ : Nat)
  | domainEntryAbandon (d src at_ : Nat)
  | domainReturnDone (d code at_ : Nat)
  | measureExtend (r : Requester) (d v at_ : Nat)
  | mcLaddrWrite (r : Requester) (d k v at_ : Nat)
  | mcLoadWord (r : Requester) (d k v at_ : Nat)
  | mcCrcCheck (r : Requester) (d k v at_ : Nat)
  | mcCrcCheckDone (d k at_ : Nat)
  | mcSwitch (r : Requester) (d k v at_ : Nat)
  | calLoad (r : Requester) (v at_ : Nat)
  | calendarTick (n at_ : Nat)
  | keeperWake (n : Nat) (level : Bool) (at_ : Nat)
  | pwrgdTimeout
  | keeperShutdown (r : Requester) (v at_ : Nat)
  | supplyLoss (at_ : Nat)
  | shutdownHoldoffEnd (ms : Nat)
  | vkeepApply
  | gpioFunctionSwitch (r : Requester) (n v at_ : Nat)
  | gpioOutWrite (r : Requester) (i v at_ : Nat)
  | gpioEvent (n : Nat) (level : Bool) (at_ : Nat)
  | adcConversion (uv at_ : Nat)
  | pcieFlr (e at_ : Nat)
  | pcieD3hotExit (e at_ : Nat)
  | perstAssert (e dur at_ : Nat)
  | perstDeassert (e at_ : Nat)
  | refclkLoss (at_ : Nat)
  | refclkRequalify (at_ : Nat)
  | powerSample (v0 i0 v1 i1 at_ : Nat)
  | thermalSample (d tj at_ : Nat)
  | avsStatusPoll (vdone : Bool) (at_ : Nat)
  | avsRetryTimeout (at_ : Nat)
  | avsFaultTimeout (at_ : Nat)
  | thermalTrip (d tj at_ : Nat)
  | coldReset (dur : Nat)
  | coldBoot (w : BootIn)
  | repairRecordWrite (at_ : Nat)
  | fabricLinkUp (d port t : Nat)
  | pcieLinkChange (e : Nat) (up : Bool) (at_ : Nat)
  | pcieD3hotEntry (e at_ : Nat)
  | pwrgdRise
  | raiseholdExpiry (at_ : Nat)
  | vkeepLoss
  | genlockEdge (at_ : Nat)
  | fanTachSecond
  deriving DecidableEq, Repr

end Sys2Proof
end

