-- ==== Sys2Proof/Decode.lean ====
section
/-! DEFINITION. The B16 encoding (Table 5-1 and the encoding tables of file 05): decoder and encoder of instruction words, and the
decoding of command-table words, to which the table gives no bits. -/

namespace Sys2Proof

/-- Field [hi:lo] of an instruction word. -/
def wfield (w : Word) (hi lo : Nat) : Nat := w.toNat / 2 ^ lo % 2 ^ (hi + 1 - lo)

/-- The register in bits [lo+3:lo]. -/
def wreg (w : Word) (lo : Nat) : Reg := ⟨wfield w (lo + 3) lo % 16, Nat.mod_lt _ (by decide)⟩

/-- The pair whose even register stands in bits [lo+3:lo]. -/
def wpair (w : Word) (lo : Nat) : Fin 8 := ⟨wfield w (lo + 3) (lo + 1) % 8, Nat.mod_lt _ (by decide)⟩

/-- A condition by its number (Table 5-3). -/
def condOf : Nat → Option Cond
  | 0 => some .bra | 1 => some .beq | 2 => some .bne | 3 => some .blo | 4 => some .bhs | 5 => some .bmi
  | 6 => some .bpl | 7 => some .bvs | 8 => some .bvc | 9 => some .bhi | 10 => some .bls | 11 => some .bge
  | 12 => some .blt | 13 => some .bgt | 14 => some .ble | _ => none

/-- The number of a condition. -/
def Cond.num : Cond → Nat
  | .bra => 0 | .beq => 1 | .bne => 2 | .blo => 3 | .bhs => 4 | .bmi => 5 | .bpl => 6 | .bvs => 7 | .bvc => 8
  | .bhi => 9 | .bls => 10 | .bge => 11 | .blt => 12 | .bgt => 13 | .ble => 14

/-- System group, major opcode 0x0. -/
def decodeSys (b : Nat) (w : Word) : Option Instr :=
  let k := wfield w 6 4
  let n := wfield w 3 0
  if wfield w 7 7 ≠ 0 then none
  else match wfield w 11 8 with
  | 0 => if k = 0 ∧ n = 0 then some (.nop b) else none
  | 1 => if k = 0 ∧ n = 0 then some (.wait b) else none
  | 2 => if k = 0 ∧ n = 0 then some (.halt b) else none
  | 3 => if k = 0 ∧ n = 0 then some (.ei b) else none
  | 4 => if k = 0 ∧ n = 0 then some (.di b) else none
  | 5 => if k = 0 ∧ n = 0 then some (.reti b) else none
  | 6 => if k = 0 then some (.trap b (BitVec.ofNat 4 n)) else none
  | 7 => some (.ldseg b ⟨k % 8, Nat.mod_lt _ (by decide)⟩ (.imm (BitVec.ofNat 4 n)))
  | 8 => some (.ldseg b ⟨k % 8, Nat.mod_lt _ (by decide)⟩ (.reg (wreg w 0)))
  | 9 => if k = 0 then some (.rdfl b (wreg w 0)) else none
  | 10 => if k = 0 then some (.wrfl b (wreg w 0)) else none
  | _ => none

/-- ALU register-register, major opcode 0x1. -/
def decodeAlu (b : Nat) (w : Word) : Option Instr :=
  let d := wreg w 4
  let s := wreg w 0
  match wfield w 11 8 with
  | 0 => some (.mov b d s)
  | 1 => some (.add b d s)
  | 2 => some (.adc b d s)
  | 3 => some (.sub b d s)
  | 4 => some (.sbc b d s)
  | 5 => some (.cmp b d s)
  | 6 => some (.and b d s)
  | 7 => some (.or b d s)
  | 8 => some (.xor b d s)
  | 9 => some (.tst b d s)
  | 10 => some (.not b d s)
  | 11 => some (.neg b d s)
  | _ => none

/-- ADDI, CMPI and ANDI, major opcode 0x3. -/
def decodeImm (b : Nat) (w : Word) : Option Instr :=
  let d : Fin 4 := ⟨wfield w 9 8 % 4, Nat.mod_lt _ (by decide)⟩
  let i := BitVec.ofNat 8 (wfield w 7 0)
  match wfield w 11 10 with
  | 0 => some (.addi b d i)
  | 1 => some (.cmpi b d i)
  | 2 => some (.andi b d i)
  | _ => none

/-- The segment register of a 0x4 or 0x5 word: bits [7:5]. -/
def segField (w : Word) : SegReg := ⟨wfield w 7 5 % 8, Nat.mod_lt _ (by decide)⟩

/-- The memory form of a 0x6 word. -/
def decodeStep (w : Word) : MemForm :=
  let k : Fin 4 := ⟨wfield w 1 0 % 4, Nat.mod_lt _ (by decide)⟩
  if wfield w 2 2 = 0 then .postInc k (wreg w 4) else .preDec k (wreg w 4)

/-- Shifts and rotates, major opcode 0xC. -/
def decodeShift (b : Nat) (w : Word) : Option Instr :=
  let d := wreg w 8
  let n := BitVec.ofNat 4 (wfield w 3 0)
  if wfield w 4 4 ≠ 0 then none
  else match wfield w 7 5 with
  | 0 => some (.shl b d n)
  | 1 => some (.shr b d n)
  | 2 => some (.sar b d n)
  | 3 => some (.rol b d n)
  | 4 => some (.ror b d n)
  | 5 => some (.rcl b d n)
  | 6 => some (.rcr b d n)
  | _ => none

/-- Multiply and divide, major opcode 0xD. -/
def decodeMul (b : Nat) (w : Word) : Option Instr :=
  let p := wpair w 4
  let s := wreg w 0
  if wfield w 9 8 ≠ 0 ∨ wfield w 4 4 ≠ 0 then none
  else match wfield w 11 10 with
  | 0 => some (.mulu b p s)
  | 1 => some (.muls b p s)
  | 2 => some (.divu b p s)
  | _ => some (.divs b p s)

/-- What an instruction word asks for next: an instruction, or extension words from which it is built. -/
inductive Decoded where
  | whole (i : Instr)
  | ext1 (f : Word → Instr)
  | ext2 (f : Word → Word → Instr)

/-- Control transfer, major opcode 0x9. -/
def decodeFlow (b : Nat) (w : Word) : Option Decoded :=
  if wfield w 7 4 ≠ 0 then none
  else match wfield w 11 8 with
  | 0 => if wfield w 3 0 = 0 then some (.ext1 (fun e => .jmp b (.ext e))) else none
  | 1 => some (.whole (.jmp b (.reg (wreg w 0))))
  | 2 => if wfield w 3 0 = 0 then some (.ext2 (fun e m => .call b (.ext e) m)) else none
  | 3 => some (.ext1 (fun m => .call b (.reg (wreg w 0)) m))
  | 4 => if wfield w 3 0 = 0 then some (.whole (.ret b)) else none
  | _ => none

/-- Beam instructions, major opcode 0xE. -/
def decodeBeam (b : Nat) (w : Word) : Option Decoded :=
  let i := wfield w 9 9
  let waitForm : (WaitOp → Instr) → Option Decoded := fun f =>
    if wfield w 8 8 ≠ 0 ∨ wfield w 7 4 ≠ 0 then none
    else if i = 0 then some (.whole (f (.reg (wreg w 0))))
    else if wfield w 3 0 = 0 then some (.ext1 (fun e => f (.ext e)))
    else none
  match wfield w 11 10 with
  | 0 => waitForm (.waitl b)
  | 1 => waitForm (.waitc b)
  | 2 => if wfield w 9 4 ≠ 0 ∨ wfield w 0 0 ≠ 0 then none else some (.whole (.rdbeam b (wpair w 0)))
  | _ => if wfield w 9 8 ≠ 0 then none else some (.ext1 (fun e => .stamp b e (wreg w 0) (wreg w 4)))

/-- The first word of an instruction of berth b (Table 5-1); none for a pattern the table does not define (R168). -/
def decodeFirst (b : Nat) (w : Word) : Option Decoded :=
  match wfield w 15 12 with
  | 0 => (decodeSys b w).map .whole
  | 1 => (decodeAlu b w).map .whole
  | 2 =>
    if wfield w 7 7 = 0 then some (.whole (.movi b (wreg w 8) (.short (BitVec.ofNat 7 (wfield w 6 0)))))
    else if wfield w 6 0 = 0 then some (.ext1 (fun e => .movi b (wreg w 8) (.long e)))
    else none
  | 3 => (decodeImm b w).map .whole
  | 4 =>
    if wfield w 4 4 = 0 then some (.whole (.ld b (wreg w 8) (.base (segField w) (wreg w 0))))
    else some (.ext1 (fun e => .ld b (wreg w 8) (.disp (segField w) (wreg w 0) e)))
  | 5 =>
    if wfield w 4 4 = 0 then some (.whole (.st b (wreg w 8) (.base (segField w) (wreg w 0))))
    else some (.ext1 (fun e => .st b (wreg w 8) (.disp (segField w) (wreg w 0) e)))
  | 6 => some (.whole (if wfield w 3 3 = 0 then .ld b (wreg w 8) (decodeStep w) else .st b (wreg w 8) (decodeStep w)))
  | 7 =>
    if wfield w 7 4 ≠ 0 then none
    else if wfield w 11 8 = 0 then some (.whole (.push b (wreg w 0)))
    else if wfield w 11 8 = 1 then some (.whole (.pop b (wreg w 0)))
    else none
  | 8 => (condOf (wfield w 11 8)).map (fun c => .whole (.bcc b c (BitVec.ofNat 8 (wfield w 7 0))))
  | 9 => decodeFlow b w
  | 10 =>
    if wfield w 3 0 = 0 then some (.whole (.inPort b (wreg w 8) (.reg (wreg w 4))))
    else if wfield w 3 0 = 1 ∧ wfield w 7 4 = 0 then some (.ext1 (fun e => .inPort b (wreg w 8) (.ext e)))
    else none
  | 11 =>
    if wfield w 3 0 = 0 then some (.whole (.out b (.reg (wreg w 4)) (wreg w 8)))
    else if wfield w 3 0 = 1 ∧ wfield w 7 4 = 0 then some (.ext1 (fun e => .out b (.ext e) (wreg w 8)))
    else none
  | 12 => (decodeShift b w).map .whole
  | 13 => (decodeMul b w).map .whole
  | 14 => decodeBeam b w
  | _ => none

/-- Decode the instruction of berth b at the head of a list of words: the instruction and the words after it. An undefined first word is
the illegal encoding it spells (R167); none where extension words are missing. -/
def decodeWords (b : Nat) : List Word → Option (Instr × List Word)
  | [] => none
  | w :: r => match decodeFirst b w with
    | none => some (.illegalEncoding b w, r)
    | some (.whole i) => some (i, r)
    | some (.ext1 f) => match r with
      | e :: q => some (f e, q)
      | [] => none
    | some (.ext2 f) => match r with
      | e :: m :: q => some (f e m, q)
      | _ => none

/-- An instruction word that Table 5-1 does not define. -/
def illegalWord (w : Word) : Bool := (decodeFirst 0 w).isNone

/-- An instruction word from its fields: major opcode, bits [11:8], [7:4] and [3:0]. -/
def word4 (a b c d : Nat) : Word := BitVec.ofNat 16 (a * 4096 + b * 256 + c * 16 + d)

/-- The words of an ALU register-register instruction. -/
def encAlu (op : Nat) (d s : Reg) : List Word := [word4 1 op d.val s.val]

/-- The words of an immediate instruction on W0 to W3. -/
def encImm (op : Nat) (d : Fin 4) (i : BitVec 8) : List Word :=
  [word4 3 (op * 4 + d.val) (i.toNat / 16) (i.toNat % 16)]

/-- The words of a shift. -/
def encShift (op : Nat) (d : Reg) (n : BitVec 4) : List Word := [word4 12 d.val (op * 2) n.toNat]

/-- The words of a multiply or divide. -/
def encMul (op : Nat) (p : Fin 8) (s : Reg) : List Word := [word4 13 (op * 4) (2 * p.val) s.val]

/-- The words of LD (l 0) or ST (l 1) with register r. -/
def encMem (l : Nat) (r : Reg) : MemForm → List Word
  | .base k b => [word4 (4 + l) r.val (2 * k.val) b.val]
  | .disp k b e => [word4 (4 + l) r.val (2 * k.val + 1) b.val, e]
  | .postInc k b => [word4 6 r.val b.val (8 * l + k.val)]
  | .preDec k b => [word4 6 r.val b.val (8 * l + 4 + k.val)]

/-- The words of IN (10) or OUT (11) with register r. -/
def encPort (op : Nat) (r : Reg) : PortOp → List Word
  | .reg p => [word4 op r.val p.val 0]
  | .ext w => [word4 op r.val 0 1, w]

/-- The words of WAITL (0) or WAITC (4). -/
def encWait (op : Nat) : WaitOp → List Word
  | .reg s => [word4 14 op 0 s.val]
  | .ext w => [word4 14 (op + 2) 0 0, w]

/-- The words of LDSEG. -/
def encSeg (k : SegReg) : SegSrc → List Word
  | .imm n => [word4 0 7 k.val n.toNat]
  | .reg s => [word4 0 8 k.val s.val]

/-- The words of MOVI. -/
def encMovi (d : Reg) : MoviSrc → List Word
  | .short i => [word4 2 d.val (i.toNat / 16) (i.toNat % 16)]
  | .long e => [word4 2 d.val 8 0, e]

/-- The words of JMP. -/
def encJmp : Target → List Word
  | .ext e => [word4 9 0 0 0, e]
  | .reg s => [word4 9 1 0 s.val]

/-- The words of CALL. -/
def encCall (t : Target) (m : Word) : List Word :=
  match t with
  | .ext e => [word4 9 2 0 0, e, m]
  | .reg s => [word4 9 3 0 s.val, m]

/-- The words of an instruction of the B16 core (Table 5-1); none for a command that is no instruction word. -/
def encode : Instr → Option (List Word)
  | .nop _ => some [word4 0 0 0 0]
  | .wait _ => some [word4 0 1 0 0]
  | .halt _ => some [word4 0 2 0 0]
  | .ei _ => some [word4 0 3 0 0]
  | .di _ => some [word4 0 4 0 0]
  | .reti _ => some [word4 0 5 0 0]
  | .trap _ n => some [word4 0 6 0 n.toNat]
  | .ldseg _ k o => some (encSeg k o)
  | .rdfl _ d => some [word4 0 9 0 d.val]
  | .wrfl _ s => some [word4 0 10 0 s.val]
  | .mov _ d s => some (encAlu 0 d s)
  | .add _ d s => some (encAlu 1 d s)
  | .adc _ d s => some (encAlu 2 d s)
  | .sub _ d s => some (encAlu 3 d s)
  | .sbc _ d s => some (encAlu 4 d s)
  | .cmp _ d s => some (encAlu 5 d s)
  | .and _ d s => some (encAlu 6 d s)
  | .or _ d s => some (encAlu 7 d s)
  | .xor _ d s => some (encAlu 8 d s)
  | .tst _ d s => some (encAlu 9 d s)
  | .not _ d s => some (encAlu 10 d s)
  | .neg _ d s => some (encAlu 11 d s)
  | .movi _ d o => some (encMovi d o)
  | .addi _ d i => some (encImm 0 d i)
  | .cmpi _ d i => some (encImm 1 d i)
  | .andi _ d i => some (encImm 2 d i)
  | .ld _ d m => some (encMem 0 d m)
  | .st _ s m => some (encMem 1 s m)
  | .push _ s => some [word4 7 0 0 s.val]
  | .pop _ d => some [word4 7 1 0 d.val]
  | .bcc _ c i => some [word4 8 c.num (i.toNat / 16) (i.toNat % 16)]
  | .jmp _ t => some (encJmp t)
  | .call _ t m => some (encCall t m)
  | .ret _ => some [word4 9 4 0 0]
  | .inPort _ d p => some (encPort 10 d p)
  | .out _ p s => some (encPort 11 s p)
  | .shl _ d n => some (encShift 0 d n)
  | .shr _ d n => some (encShift 1 d n)
  | .sar _ d n => some (encShift 2 d n)
  | .rol _ d n => some (encShift 3 d n)
  | .ror _ d n => some (encShift 4 d n)
  | .rcl _ d n => some (encShift 5 d n)
  | .rcr _ d n => some (encShift 6 d n)
  | .mulu _ p s => some (encMul 0 p s)
  | .muls _ p s => some (encMul 1 p s)
  | .divu _ p s => some (encMul 2 p s)
  | .divs _ p s => some (encMul 3 p s)
  | .waitl _ o => some (encWait 0 o)
  | .waitc _ o => some (encWait 4 o)
  | .rdbeam _ p => some [word4 14 8 0 (2 * p.val)]
  | .stamp _ port s c => some [word4 14 12 c.val s.val, port]
  | .illegalEncoding _ w => some [w]
  | _ => none

/-- The command that a word of the command table spells: the table gives its rows no bits, so no word spells one. -/
def decodeTableWord (_nbits _w : Nat) : Option Instr := none

end Sys2Proof
end

