-- ==== Sys2Proof/Config.lean ====
section
/-! DEFINITION. What the spec leaves open: constants with no body, about which no proof can know anything. -/

namespace Sys2Proof.Config

/-- The value a draw n yields where the spec leaves a value open and the machine goes on: assumption log 9. -/
opaque freeNat : Nat → Nat

/-- Byte i of the AES-256 key stream of GCM under a key and an initial vector (IEEE 802.1AE, SPDM): assumption log 20. -/
opaque gcmStream : List Byte → List Byte → Nat → Byte

/-- Byte i of the GCM tag under a key, an initial vector, additional data and cipher text: assumption log 20. -/
opaque gcmTag : List Byte → List Byte → List Byte → List Byte → Nat → Byte

/-- Which of the two forms of a 32-bit LFSR the injection selector has (R442): assumption log 21. -/
opaque lfsrGalois : Bool

/-- Microcycles a double fault is charged, by whether the exception entry had begun (R149, R171): assumption log 15. -/
opaque doubleFaultLen : Bool → Fin 9

/-- The MACsec replay window, which the spec does not state (Table 12-5): assumption log 22. -/
opaque replayWindow : Nat

/-- Byte i of SHA-384 of a message (R560, R571): assumption log 23. -/
opaque sha384 : List Byte → Nat → Byte

/-- Whether an ECDSA P-384 signature of a message by a public key is valid (R562): assumption log 23. -/
opaque ecdsaOk : List Byte → List Byte → List Byte → Bool

/-- Byte i of the attestation key derived from the device secret (R576): assumption log 23. -/
opaque attestKey : List Byte → Nat → Byte

/-- Byte i of an SPDM response to a request message, by the message count (R574 to R576): assumption log 24. -/
opaque spdmByte : List Byte → Nat → Nat → Byte

/-- Wenlys' PCI-SIG vendor ID, which the spec does not state (Table 13-1): assumption log 138. -/
opaque vendorId : Nat

/-- Whether the alternate function of a GPIO pin drives low at a harbour time, where a waveform or traffic decides it (R588, R591): assumption log 139. -/
opaque altLow : Nat → Nat → Bool

end Sys2Proof.Config
end

