-- ==== Sys2Proof/Machine/Bits.lean ====
section
/-! DEFINITION. Bit-field, sign-extension and byte-order helpers, and the association table that holds sparse state.
Bit 0 is the least significant bit of every field and word (R8). -/

namespace Sys2Proof.Machine

/-- Bits [hi:lo] of a number, as a number (R8). -/
def bitsOf (v hi lo : Nat) : Nat := (v / 2 ^ lo) % 2 ^ (hi + 1 - lo)

/-- Bit n of a number (R8). -/
def bitOf (v n : Nat) : Bool := (v / 2 ^ n) % 2 == 1

/-- A number with its bits [hi:lo] replaced by the low bits of x. -/
def putBits (v hi lo x : Nat) : Nat :=
  v - bitsOf v hi lo * 2 ^ lo + (x % 2 ^ (hi + 1 - lo)) * 2 ^ lo

/-- 1 for true, 0 for false. -/
def b2n (b : Bool) : Nat := if b then 1 else 0

/-- The 16-bit word of a number, modulo 65,536 (R122). -/
def w16 (n : Nat) : Word := BitVec.ofNat 16 n

/-- The 32-bit register value of a number, modulo 2^32. -/
def w32 (n : Nat) : Word32 := BitVec.ofNat 32 n

/-- Sign-extend the low b bits of x, as an integer. -/
def sxInt (x b : Nat) : Int :=
  let m := x % 2 ^ b
  if m < 2 ^ (b - 1) then (m : Int) else (m : Int) - (2 ^ b : Nat)

/-- Sign-extend the low b bits of x to a 16-bit word, the sx of the B16 reference. -/
def sx16 (x b : Nat) : Word := BitVec.ofInt 16 (sxInt x b)

/-- The signed value of a 16-bit word. -/
def s16 (w : Word) : Int := w.toInt

/-- Clamp an integer to lo..hi. -/
def clampInt (lo hi x : Int) : Int := if x < lo then lo else if hi < x then hi else x

/-- Saturate an integer to the signed 16-bit range. -/
def sat16 (x : Int) : Int := clampInt (-32768) 32767 x

/-- The low 16 bits of an integer, as a word. -/
def wInt (x : Int) : Word := BitVec.ofInt 16 x

/-- Arithmetic shift right of an integer by n: division by 2^n rounding towards minus infinity. -/
def asr (x : Int) (n : Nat) : Int := x / (2 ^ n : Nat)

/-- Saturating counter: n + 1, at most m. -/
def satInc (n m : Nat) : Nat := if n < m then n + 1 else m

/-- The four bytes of a 32-bit value, least significant first (R9). -/
def le32 (v : Nat) : List Byte :=
  [BitVec.ofNat 8 v, BitVec.ofNat 8 (v / 256), BitVec.ofNat 8 (v / 65536), BitVec.ofNat 8 (v / 16777216)]

/-- The n bytes of a value, least significant first. -/
def leBytes : Nat → Nat → List Byte
  | 0, _ => []
  | n + 1, v => BitVec.ofNat 8 v :: leBytes n (v / 256)

/-- The n bytes of a value, most significant first (network order). -/
def beBytes (n v : Nat) : List Byte := (leBytes n v).reverse

/-- The number that a list of bytes spells, least significant first. -/
def ofLe : List Byte → Nat
  | [] => 0
  | b :: t => b.toNat + 256 * ofLe t

/-- The number that a list of bytes spells, most significant first. -/
def ofBe (l : List Byte) : Nat := ofLe l.reverse

/-- The n elements of a list from index i, padded by d past the end. -/
def sliceD {α : Type} (l : List α) (i n : Nat) (d : α) : List α :=
  (List.range n).map (fun k => l.getD (i + k) d)

/-- The number of 1 bits among the low n bits of v. -/
def popcount : Nat → Nat → Nat
  | 0, _ => 0
  | n + 1, v => v % 2 + popcount n (v / 2)

/-- A sparse table: keys strictly rising, and no entry equal to what an unlisted key reads as. -/
abbrev Tbl (α : Type) := List (Nat × α)

/-- The entry at key k, d where the key is not listed. -/
def tget {α : Type} (t : Tbl α) (k : Nat) (d : α) : α :=
  match t with
  | [] => d
  | (j, v) :: r => if j = k then v else if k < j then d else tget r k d

/-- Remove the entry at key k. -/
def tdel {α : Type} (t : Tbl α) (k : Nat) : Tbl α :=
  match t with
  | [] => []
  | (j, v) :: r => if j = k then r else if k < j then (j, v) :: r else (j, v) :: tdel r k

/-- Insert or replace the entry at key k, keeping the keys rising. -/
def tins {α : Type} (t : Tbl α) (k : Nat) (x : α) : Tbl α :=
  match t with
  | [] => [(k, x)]
  | (j, v) :: r => if j = k then (k, x) :: r else if k < j then (k, x) :: (j, v) :: r else (j, v) :: tins r k x

/-- Set the entry at key k to x in a table whose unlisted keys read d: writing d removes the entry. -/
def tput {α : Type} [DecidableEq α] (t : Tbl α) (k : Nat) (x d : α) : Tbl α :=
  if x = d then tdel t k else tins t k x

/-- The keys of a table rise strictly. -/
def tsorted {α : Type} (t : Tbl α) : Bool :=
  match t with
  | [] => true
  | (_, _) :: [] => true
  | (i, _) :: (j, w) :: r => decide (i < j) && tsorted ((j, w) :: r)

/-- The canonical form of a table whose unlisted keys read d: rising keys, no entry equal to d. -/
def twf {α : Type} [DecidableEq α] (t : Tbl α) (d : α) : Bool :=
  tsorted t && t.all (fun e => decide (e.2 ≠ d))

/-- The entry at key k, none where the key is not listed. -/
def tfind {α : Type} (t : Tbl α) (k : Nat) : Option α :=
  match t with
  | [] => none
  | (j, v) :: r => if j = k then some v else if k < j then none else tfind r k

end Sys2Proof.Machine
end

