-- ==== Sys2Proof/Machine/RegMap.lean ====
section
/-! DEFINITION. The harbour registers as the spec's register tables give them: block, offset, repetition, fields with access code
and reset value (R9, R11, R13, R44, R45). A reset that the table names otherwise than by a number (P, X, by part, by die, by table) stands
here as 0, and Regs.lean gives it. -/

namespace Sys2Proof.Machine

/-- The access codes of Table 0-4. -/
inductive Acc where
  | rw | ro | wo | w1c | w1s | rc | sh | st
  deriving DecidableEq, Repr

/-- The register blocks of Tables 1-6 and 1-7; die0 marks a register that exists on die 0 only. -/
inductive Block where
  | die | die0 | dock | slot | quay
  deriving DecidableEq, Repr

/-- A field of a register: bits [hi:lo], access code, reset value. -/
structure RField where
  hi : Nat
  lo : Nat
  acc : Acc
  reset : Nat
  deriving DecidableEq, Repr

/-- A register, or count registers at the given stride from an offset within its block. -/
structure RegRow where
  name : String
  block : Block
  off : Nat
  stride : Nat
  count : Nat
  fields : List RField
  deriving DecidableEq, Repr

/-- Register tables, part 0. -/
def regRows0 : List RegRow := [
  ⟨"HB_PARTID", .die, 0x0, 0x4, 1, [⟨3, 0, .ro, 0⟩, ⟨15, 8, .ro, 161⟩, ⟨31, 16, .ro, 3153⟩]⟩,
  ⟨"HB_DIEID", .die, 0x4, 0x4, 1, [⟨2, 0, .ro, 0⟩, ⟨3, 3, .ro, 0⟩, ⟨4, 4, .ro, 0⟩]⟩,
  ⟨"HB_TIMELO", .die, 0x10, 0x4, 1, [⟨31, 0, .ro, 0⟩]⟩,
  ⟨"HB_TIMEHI", .die, 0x14, 0x4, 1, [⟨31, 0, .ro, 0⟩]⟩,
  ⟨"HB_CLKSTAT", .die, 0x20, 0x4, 1, [⟨0, 0, .ro, 0⟩, ⟨1, 1, .ro, 0⟩, ⟨2, 2, .ro, 0⟩, ⟨3, 3, .w1c, 0⟩, ⟨5, 4, .ro, 0⟩]⟩,
  ⟨"HB_FABSTAT", .die, 0x30, 0x4, 1, [⟨3, 0, .ro, 0⟩, ⟨7, 4, .w1c, 0⟩, ⟨8, 8, .ro, 0⟩]⟩,
  ⟨"HB_PRFSEL", .die0, 0x40, 0x4, 1, [⟨1, 0, .ro, 0⟩, ⟨3, 2, .ro, 0⟩, ⟨4, 4, .ro, 0⟩, ⟨5, 5, .ro, 0⟩, ⟨7, 6, .ro, 0⟩]⟩,
  ⟨"HB_MCTPVID", .die0, 0x44, 0x4, 1, [⟨31, 0, .ro, 0⟩]⟩,
  ⟨"HB_BOOTSTAT", .die0, 0x48, 0x4, 1, [⟨7, 0, .ro, 1⟩, ⟨11, 8, .ro, 0⟩, ⟨15, 12, .ro, 0⟩, ⟨16, 16, .ro, 0⟩, ⟨17, 17, .ro, 0⟩, ⟨18, 18, .ro, 0⟩, ⟨19, 19, .ro, 0⟩, ⟨20, 20, .ro, 0⟩, ⟨21, 21, .ro, 0⟩, ⟨22, 22, .ro, 0⟩, ⟨23, 23, .ro, 0⟩]⟩,
  ⟨"HB_WDOG", .die0, 0x50, 0x4, 1, [⟨15, 0, .rw, 2000⟩, ⟨23, 16, .wo, 0⟩, ⟨31, 24, .ro, 0⟩]⟩,
  ⟨"HB_HOSTCTL", .die0, 0x1000, 0x800, 2, [⟨0, 0, .rw, 0⟩, ⟨1, 1, .ro, 0⟩, ⟨2, 2, .w1c, 0⟩, ⟨3, 3, .w1c, 0⟩]⟩,
  ⟨"HB_EVLOST", .die0, 0x1004, 0x800, 2, [⟨31, 0, .ro, 0⟩]⟩,
  ⟨"HB_EVBASELO", .die0, 0x1010, 0x800, 2, [⟨31, 0, .rw, 0⟩]⟩,
  ⟨"HB_EVBASEHI", .die0, 0x1014, 0x800, 2, [⟨31, 0, .rw, 0⟩]⟩,
  ⟨"HB_EVCFG", .die0, 0x1018, 0x800, 2, [⟨12, 0, .rw, 0⟩, ⟨21, 16, .rw, 0⟩, ⟨31, 31, .rw, 0⟩]⟩,
  ⟨"HB_EVHEAD", .die0, 0x101c, 0x800, 2, [⟨11, 0, .rw, 0⟩]⟩,
  ⟨"HB_SQ0BASELO", .die0, 0x1100, 0x20, 8, [⟨31, 0, .rw, 0⟩]⟩,
  ⟨"HB_SQ0BASEHI", .die0, 0x1104, 0x20, 8, [⟨31, 0, .rw, 0⟩]⟩,
  ⟨"HB_SQ0SIZE", .die0, 0x1108, 0x20, 8, [⟨12, 0, .rw, 0⟩]⟩,
  ⟨"HB_SQ0TAIL", .die0, 0x110c, 0x20, 8, [⟨11, 0, .rw, 0⟩]⟩,
  ⟨"HB_CQ0BASELO", .die0, 0x1110, 0x20, 8, [⟨31, 0, .rw, 0⟩]⟩,
  ⟨"HB_CQ0BASEHI", .die0, 0x1114, 0x20, 8, [⟨31, 0, .rw, 0⟩]⟩,
  ⟨"HB_CQ0CFG", .die0, 0x1118, 0x20, 8, [⟨12, 0, .rw, 0⟩, ⟨21, 16, .rw, 0⟩, ⟨31, 31, .rw, 0⟩]⟩,
  ⟨"HB_CQ0HEAD", .die0, 0x111c, 0x20, 8, [⟨11, 0, .rw, 0⟩]⟩]

/-- Register tables, part 1. -/
def regRows1 : List RegRow := [
  ⟨"HB_SQ1BASELO", .die0, 0x1900, 0x20, 8, [⟨31, 0, .rw, 0⟩]⟩,
  ⟨"HB_SQ1BASEHI", .die0, 0x1904, 0x20, 8, [⟨31, 0, .rw, 0⟩]⟩,
  ⟨"HB_SQ1SIZE", .die0, 0x1908, 0x20, 8, [⟨12, 0, .rw, 0⟩]⟩,
  ⟨"HB_SQ1TAIL", .die0, 0x190c, 0x20, 8, [⟨11, 0, .rw, 0⟩]⟩,
  ⟨"HB_CQ1BASELO", .die0, 0x1910, 0x20, 8, [⟨31, 0, .rw, 0⟩]⟩,
  ⟨"HB_CQ1BASEHI", .die0, 0x1914, 0x20, 8, [⟨31, 0, .rw, 0⟩]⟩,
  ⟨"HB_CQ1CFG", .die0, 0x1918, 0x20, 8, [⟨12, 0, .rw, 0⟩, ⟨21, 16, .rw, 0⟩, ⟨31, 31, .rw, 0⟩]⟩,
  ⟨"HB_CQ1HEAD", .die0, 0x191c, 0x20, 8, [⟨11, 0, .rw, 0⟩]⟩,
  ⟨"HB_BLOC", .die0, 0x2000, 0x4, 2048, [⟨11, 0, .ro, 0⟩, ⟨12, 12, .ro, 0⟩, ⟨13, 13, .ro, 0⟩, ⟨14, 14, .ro, 0⟩, ⟨31, 16, .ro, 0⟩]⟩,
  ⟨"HB_MSIX0", .die0, 0x8000, 0x4, 256, [⟨31, 0, .rw, 0⟩]⟩,
  ⟨"HB_PBA0", .die0, 0x8400, 0x4, 2, [⟨31, 0, .ro, 0⟩]⟩,
  ⟨"HB_MSIX1", .die0, 0x9000, 0x4, 256, [⟨31, 0, .rw, 0⟩]⟩,
  ⟨"HB_PBA1", .die0, 0x9400, 0x4, 2, [⟨31, 0, .ro, 0⟩]⟩,
  ⟨"HIC_PEND", .die, 0x10000, 0x4, 32, [⟨31, 0, .rw, 0⟩]⟩,
  ⟨"HIC_EN", .die, 0x10080, 0x4, 32, [⟨31, 0, .rw, 0⟩]⟩,
  ⟨"HIC_GCFG", .die, 0x10100, 0x4, 32, [⟨0, 0, .rw, 0⟩, ⟨15, 8, .rw, 0⟩, ⟨25, 16, .rw, 0⟩]⟩,
  ⟨"HIC_TOPD", .die, 0x10200, 0x4, 1, [⟨9, 0, .ro, 0⟩, ⟨31, 31, .ro, 0⟩]⟩,
  ⟨"HIC_TOPH", .die0, 0x10204, 0x4, 1, [⟨9, 0, .ro, 0⟩, ⟨31, 31, .ro, 0⟩]⟩,
  ⟨"HIC_EOI", .die, 0x10208, 0x4, 1, [⟨9, 0, .wo, 0⟩]⟩,
  ⟨"HIC_LEVEL", .die, 0x10280, 0x4, 32, [⟨31, 0, .ro, 0⟩]⟩,
  ⟨"HIC_RELEASED", .die, 0x10300, 0x4, 1, [⟨31, 0, .ro, 4294967295⟩]⟩,
  ⟨"HIC_NHELD", .die, 0x10380, 0x4, 32, [⟨7, 0, .ro, 0⟩]⟩,
  ⟨"PW_MODE", .die, 0x20000, 0x4, 1, [⟨4, 0, .rw, 0⟩, ⟨9, 8, .rw, 0⟩, ⟨12, 12, .rw, 0⟩, ⟨16, 16, .ro, 0⟩, ⟨17, 17, .w1c, 0⟩]⟩,
  ⟨"PW_DSTAT0", .die, 0x20004, 0x4, 1, [⟨31, 0, .ro, 0⟩]⟩]

/-- Register tables, part 2. -/
def regRows2 : List RegRow := [
  ⟨"PW_DSTAT1", .die, 0x20008, 0x4, 1, [⟨15, 0, .ro, 0⟩, ⟨21, 16, .ro, 0⟩, ⟨23, 22, .ro, 0⟩, ⟨25, 24, .ro, 0⟩, ⟨27, 26, .ro, 0⟩]⟩,
  ⟨"PW_ENTRY", .die, 0x2000c, 0x4, 1, [⟨2, 0, .ro, 0⟩, ⟨15, 8, .ro, 0⟩]⟩,
  ⟨"PW_RETMASKLO", .die, 0x20010, 0x4, 1, [⟨31, 0, .rw, 0⟩]⟩,
  ⟨"PW_RETMASKHI", .die, 0x20014, 0x4, 1, [⟨31, 0, .rw, 0⟩]⟩,
  ⟨"PW_TJ", .die, 0x20018, 0x4, 1, [⟨7, 0, .ro, 0⟩, ⟨15, 8, .rc, 0⟩, ⟨17, 16, .ro, 0⟩, ⟨23, 20, .ro, 0⟩]⟩,
  ⟨"PW_PKGPWR", .die0, 0x20100, 0x4, 1, [⟨15, 0, .ro, 0⟩, ⟨31, 16, .ro, 1500⟩]⟩,
  ⟨"PW_LADDER", .die0, 0x20104, 0x4, 1, [⟨1, 0, .ro, 0⟩, ⟨5, 4, .ro, 0⟩, ⟨11, 8, .ro, 0⟩, ⟨13, 12, .ro, 0⟩, ⟨31, 20, .ro, 0⟩]⟩,
  ⟨"PW_THPOL", .die0, 0x20108, 0x4, 1, [⟨7, 0, .rw, 95⟩, ⟨15, 8, .rw, 105⟩, ⟨17, 16, .rw, 0⟩, ⟨20, 20, .rw, 1⟩, ⟨28, 24, .rw, 2⟩]⟩,
  ⟨"PW_AVSTGT", .die0, 0x20110, 0x4, 1, [⟨15, 0, .ro, 0⟩, ⟨31, 16, .ro, 0⟩]⟩,
  ⟨"PW_AVSSTAT", .die0, 0x20114, 0x4, 1, [⟨0, 0, .ro, 0⟩, ⟨1, 1, .w1c, 0⟩, ⟨2, 2, .w1c, 0⟩, ⟨3, 3, .ro, 0⟩, ⟨15, 8, .ro, 0⟩]⟩,
  ⟨"HT_ARMLO", .die, 0x30000, 0x4, 1, [⟨31, 0, .rw, 0⟩]⟩,
  ⟨"HT_ARMHI", .die, 0x30004, 0x4, 1, [⟨31, 0, .rw, 0⟩]⟩,
  ⟨"HT_GO", .die0, 0x30008, 0x4, 1, [⟨0, 0, .wo, 0⟩, ⟨1, 1, .wo, 0⟩, ⟨2, 2, .ro, 0⟩, ⟨3, 3, .w1c, 0⟩, ⟨4, 4, .w1c, 0⟩]⟩,
  ⟨"HT_GOTLO", .die0, 0x3000c, 0x4, 1, [⟨31, 0, .rw, 0⟩]⟩,
  ⟨"HT_GOTHI", .die0, 0x30010, 0x4, 1, [⟨31, 0, .rw, 0⟩]⟩,
  ⟨"HT_LASTGO", .die0, 0x30014, 0x4, 1, [⟨31, 0, .ro, 0⟩]⟩,
  ⟨"HT_CTL", .die, 0x30100, 0x10, 64, [⟨0, 0, .rw, 0⟩, ⟨1, 1, .rw, 0⟩, ⟨2, 2, .w1c, 0⟩, ⟨7, 4, .rw, 0⟩]⟩,
  ⟨"HT_CNT", .die, 0x30104, 0x10, 64, [⟨31, 0, .rw, 0⟩]⟩,
  ⟨"HT_CMP", .die, 0x30108, 0x10, 64, [⟨31, 0, .rw, 0⟩]⟩,
  ⟨"HT_INT", .die, 0x3010c, 0x10, 64, [⟨31, 0, .rw, 0⟩]⟩,
  ⟨"GP_OUTLO", .die0, 0x40000, 0x4, 1, [⟨31, 0, .rw, 0⟩]⟩,
  ⟨"GP_OUTHI", .die0, 0x40004, 0x4, 1, [⟨15, 0, .rw, 0⟩]⟩,
  ⟨"GP_OELO", .die0, 0x40008, 0x4, 1, [⟨31, 0, .rw, 0⟩]⟩,
  ⟨"GP_OEHI", .die0, 0x4000c, 0x4, 1, [⟨15, 0, .rw, 0⟩]⟩]

/-- Register tables, part 3. -/
def regRows3 : List RegRow := [
  ⟨"GP_PADLVLLO", .die0, 0x40010, 0x4, 1, [⟨31, 0, .ro, 0⟩]⟩,
  ⟨"GP_PADLVLHI", .die0, 0x40014, 0x4, 1, [⟨15, 0, .ro, 0⟩]⟩,
  ⟨"GP_SYNCINLO", .die0, 0x40018, 0x4, 1, [⟨31, 0, .ro, 0⟩]⟩,
  ⟨"GP_SYNCINHI", .die0, 0x4001c, 0x4, 1, [⟨15, 0, .ro, 0⟩]⟩,
  ⟨"GP_EVTLO", .die0, 0x40020, 0x4, 1, [⟨31, 0, .w1c, 0⟩]⟩,
  ⟨"GP_EVTHI", .die0, 0x40024, 0x4, 1, [⟨15, 0, .w1c, 0⟩]⟩,
  ⟨"GP_BANKV", .die0, 0x40028, 0x4, 1, [⟨11, 0, .ro, 0x555⟩]⟩,
  ⟨"GP_STAT", .die0, 0x4002c, 0x4, 1, [⟨0, 0, .w1c, 0⟩]⟩,
  ⟨"GP_CFG", .die0, 0x40100, 0x4, 48, [⟨1, 0, .rw, 0⟩, ⟨2, 2, .rw, 0⟩, ⟨3, 3, .rw, 1⟩, ⟨5, 4, .rw, 1⟩, ⟨7, 6, .rw, 0⟩, ⟨8, 8, .rw, 0⟩, ⟨11, 9, .rw, 0⟩]⟩,
  ⟨"GP_ADCCTL", .die0, 0x40200, 0x4, 1, [⟨7, 0, .rw, 0⟩]⟩,
  ⟨"GP_ADC", .die0, 0x40204, 0x4, 8, [⟨11, 0, .ro, 0⟩, ⟨31, 16, .ro, 0⟩]⟩,
  ⟨"GP_FAN", .die0, 0x40300, 0x4, 4, [⟨7, 0, .rw, 255⟩]⟩,
  ⟨"GP_TACH", .die0, 0x40310, 0x4, 4, [⟨15, 0, .ro, 0⟩, ⟨16, 16, .ro, 0⟩]⟩,
  ⟨"GP_REFOUT", .die0, 0x40320, 0x4, 1, [⟨3, 0, .rw, 1⟩, ⟨8, 8, .rw, 0⟩]⟩,
  ⟨"GP_GLCNT", .die0, 0x40324, 0x4, 1, [⟨31, 0, .ro, 0⟩]⟩,
  ⟨"GP_GLTSLO", .die0, 0x40328, 0x4, 1, [⟨31, 0, .ro, 0⟩]⟩,
  ⟨"GP_GLTSHI", .die0, 0x4032c, 0x4, 1, [⟨31, 0, .ro, 0⟩]⟩,
  ⟨"ST_CFG", .die, 0x50000, 0x4, 1, [⟨0, 0, .rw, 0⟩, ⟨1, 1, .rw, 0⟩, ⟨2, 2, .rw, 0⟩, ⟨12, 8, .rw, 0⟩, ⟨31, 16, .rw, 0⟩]⟩,
  ⟨"ST_PERIOD", .die, 0x50004, 0x4, 1, [⟨31, 0, .rw, 0⟩]⟩,
  ⟨"ST_STAT", .die, 0x50008, 0x4, 1, [⟨4, 0, .ro, 0⟩, ⟨15, 8, .ro, 0⟩, ⟨16, 16, .w1c, 0⟩, ⟨17, 17, .w1c, 0⟩]⟩,
  ⟨"ST_SEQ", .die, 0x5000c, 0x4, 1, [⟨31, 0, .ro, 0⟩]⟩,
  ⟨"ST_VOTE", .die, 0x50010, 0x4, 1, [⟨2, 0, .ro, 7⟩, ⟨3, 3, .ro, 0⟩, ⟨4, 4, .ro, 0⟩, ⟨10, 8, .ro, 0⟩, ⟨11, 11, .ro, 0⟩, ⟨23, 16, .ro, 0⟩, ⟨31, 24, .ro, 0⟩]⟩,
  ⟨"ST_SECCLR", .die, 0x50014, 0x4, 1, [⟨17, 0, .ro, 0⟩]⟩,
  ⟨"ST_ECCCFG", .die, 0x50800, 0x4, 1, [⟨4, 0, .rw, 12⟩, ⟨8, 8, .rw, 1⟩, ⟨15, 12, .rw, 4⟩]⟩]

/-- Register tables, part 4. -/
def regRows4 : List RegRow := [
  ⟨"ST_ECCCNT", .die, 0x50804, 0x4, 1, [⟨15, 0, .ro, 0⟩, ⟨31, 16, .ro, 0⟩]⟩,
  ⟨"ST_ECCSEQ", .die, 0x50808, 0x4, 1, [⟨31, 0, .ro, 0⟩]⟩,
  ⟨"ST_ECCLOGA", .die, 0x50810, 0x8, 16, [⟨28, 0, .ro, 0⟩, ⟨29, 29, .ro, 0⟩, ⟨30, 30, .ro, 0⟩]⟩,
  ⟨"ST_ECCLOGB", .die, 0x50814, 0x8, 16, [⟨6, 0, .ro, 0⟩, ⟨13, 8, .ro, 0⟩, ⟨17, 14, .ro, 0⟩, ⟨28, 18, .ro, 0⟩]⟩,
  ⟨"ST_REPAIR", .die, 0x50900, 0x4, 64, [⟨5, 0, .ro, 0⟩, ⟨13, 8, .ro, 0⟩, ⟨16, 16, .ro, 0⟩, ⟨17, 17, .ro, 0⟩]⟩,
  ⟨"LG_PGIDX", .die, 0x60000, 0x4, 1, [⟨13, 0, .rw, 0⟩]⟩,
  ⟨"LG_PGENT", .die, 0x60004, 0x4, 1, [⟨10, 0, .rw, 0⟩, ⟨20, 11, .rw, 0⟩, ⟨21, 21, .rw, 0⟩, ⟨22, 22, .rw, 0⟩, ⟨23, 23, .rw, 0⟩, ⟨24, 24, .rw, 1⟩, ⟨25, 25, .rw, 1⟩, ⟨26, 26, .rw, 0⟩, ⟨27, 27, .rw, 0⟩, ⟨30, 28, .rw, 0⟩]⟩,
  ⟨"LG_BSGIDX", .die, 0x60008, 0x4, 1, [⟨10, 0, .rw, 0⟩]⟩,
  ⟨"LG_BSGENT", .die, 0x6000c, 0x4, 1, [⟨9, 0, .rw, 0⟩, ⟨19, 10, .rw, 0⟩, ⟨29, 20, .rw, 0⟩]⟩,
  ⟨"LG_FENCE", .die, 0x60010, 0x4, 1, [⟨0, 0, .wo, 0⟩, ⟨1, 1, .ro, 1⟩]⟩,
  ⟨"LG_REGLED", .die, 0x60100, 0x4, 9, [⟨0, 0, .rw, 0⟩, ⟨1, 1, .rw, 0⟩, ⟨2, 2, .rw, 0⟩, ⟨3, 3, .rw, 0⟩]⟩,
  ⟨"LG_REGLEDB", .die, 0x60140, 0x4, 34, [⟨0, 0, .rw, 0⟩, ⟨1, 1, .rw, 0⟩, ⟨2, 2, .rw, 0⟩, ⟨3, 3, .rw, 0⟩]⟩,
  ⟨"LG_PIN", .die0, 0x60200, 0x4, 48, [⟨10, 0, .rw, 0⟩, ⟨11, 11, .rw, 0⟩, ⟨12, 12, .rw, 0⟩]⟩,
  ⟨"LG_VLCOUNT", .die, 0x60400, 0x4, 1, [⟨31, 0, .ro, 0⟩]⟩,
  ⟨"LG_VIOLOG0", .die, 0x60800, 0x10, 64, [⟨3, 0, .ro, 0⟩, ⟨5, 4, .ro, 0⟩, ⟨8, 6, .ro, 0⟩, ⟨11, 9, .ro, 0⟩, ⟨26, 16, .ro, 0⟩]⟩,
  ⟨"LG_VIOLOG1", .die, 0x60804, 0x10, 64, [⟨31, 0, .ro, 0⟩]⟩,
  ⟨"LG_VIOLOG2", .die, 0x60808, 0x10, 64, [⟨31, 0, .ro, 0⟩]⟩,
  ⟨"LG_VIOLOG3", .die, 0x6080c, 0x10, 64, [⟨31, 0, .ro, 0⟩]⟩,
  ⟨"KP_STAT", .die0, 0x70000, 0x4, 1, [⟨0, 0, .ro, 0⟩, ⟨1, 1, .w1c, 0⟩, ⟨2, 2, .ro, 0⟩, ⟨3, 3, .w1c, 1⟩, ⟨4, 4, .w1c, 0⟩, ⟨5, 5, .w1c, 0⟩, ⟨6, 6, .w1c, 0⟩, ⟨7, 7, .ro, 0⟩, ⟨8, 8, .ro, 0⟩]⟩,
  ⟨"KP_CALTIME", .die0, 0x70004, 0x4, 1, [⟨5, 0, .ro, 0⟩, ⟨11, 6, .ro, 0⟩, ⟨16, 12, .ro, 0⟩, ⟨31, 17, .ro, 0⟩]⟩,
  ⟨"KP_CALDATE", .die0, 0x70008, 0x4, 1, [⟨4, 0, .ro, 1⟩, ⟨11, 8, .ro, 1⟩, ⟨14, 12, .ro, 5⟩, ⟨27, 16, .ro, 2000⟩]⟩,
  ⟨"KP_CALNTIME", .die0, 0x7000c, 0x4, 1, [⟨5, 0, .rw, 0⟩, ⟨11, 6, .rw, 0⟩, ⟨16, 12, .rw, 0⟩]⟩,
  ⟨"KP_CALNDATE", .die0, 0x70010, 0x4, 1, [⟨4, 0, .rw, 0⟩, ⟨11, 8, .rw, 0⟩, ⟨14, 12, .rw, 0⟩, ⟨27, 16, .rw, 0⟩]⟩,
  ⟨"KP_CALCTL", .die0, 0x70014, 0x4, 1, [⟨0, 0, .wo, 0⟩, ⟨15, 8, .rw, 0⟩]⟩]

/-- Register tables, part 5. -/
def regRows5 : List RegRow := [
  ⟨"KP_ALARM", .die0, 0x70018, 0x4, 1, [⟨5, 0, .rw, 0⟩, ⟨11, 6, .rw, 0⟩, ⟨16, 12, .rw, 0⟩, ⟨21, 17, .rw, 0⟩, ⟨31, 31, .rw, 0⟩]⟩,
  ⟨"KP_WAKECFG", .die0, 0x7001c, 0x4, 1, [⟨2, 0, .rw, 0⟩, ⟨6, 4, .rw, 0⟩, ⟨10, 8, .rw, 0⟩, ⟨14, 12, .rw, 0⟩, ⟨16, 16, .rw, 0⟩, ⟨17, 17, .rw, 1⟩]⟩,
  ⟨"KP_WAKESTAT", .die0, 0x70020, 0x4, 1, [⟨3, 0, .w1c, 0⟩, ⟨4, 4, .w1c, 0⟩, ⟨11, 8, .ro, 0⟩]⟩,
  ⟨"KP_SEQ", .die0, 0x70024, 0x4, 1, [⟨7, 0, .rw, 10⟩, ⟨15, 8, .rw, 10⟩, ⟨23, 16, .rw, 10⟩, ⟨31, 24, .rw, 20⟩]⟩,
  ⟨"KP_SHUT", .die0, 0x70028, 0x4, 1, [⟨0, 0, .wo, 0⟩, ⟨1, 1, .rw, 0⟩]⟩,
  ⟨"KP_SCRATCH", .die0, 0x70100, 0x4, 64, [⟨31, 0, .rw, 0⟩]⟩,
  ⟨"MS_SLOT", .die, 0x80000, 0x4, 256, [⟨31, 0, .ro, 0⟩]⟩,
  ⟨"MS_CNT", .die, 0x80400, 0x4, 16, [⟨15, 0, .ro, 0⟩]⟩,
  ⟨"MS_EXTDATA", .die, 0x80800, 0x4, 12, [⟨31, 0, .wo, 0⟩]⟩,
  ⟨"MS_EXTGO", .die, 0x80830, 0x4, 1, [⟨3, 0, .wo, 0⟩, ⟨8, 8, .ro, 0⟩]⟩,
  ⟨"DK_SLOTST0", .dock, 0x0, 0x4, 1, [⟨31, 0, .ro, 0⟩]⟩,
  ⟨"DK_SLOTST1", .dock, 0x4, 0x4, 1, [⟨1, 0, .ro, 0⟩, ⟨12, 8, .ro, 0⟩, ⟨20, 16, .ro, 17⟩]⟩,
  ⟨"DK_PIPE", .dock, 0x8, 0x4, 1, [⟨0, 0, .ro, 0⟩, ⟨1, 1, .w1c, 0⟩]⟩,
  ⟨"DK_FAULTTEST", .dock, 0xc, 0x4, 1, [⟨16, 0, .ro, 0⟩]⟩,
  ⟨"DP_ERR", .dock, 0x1000, 0x4, 1, [⟨0, 0, .w1c, 0⟩, ⟨1, 1, .w1c, 0⟩, ⟨2, 2, .w1c, 0⟩, ⟨3, 3, .w1c, 0⟩]⟩,
  ⟨"DP_LOAD", .dock, 0x1004, 0x4, 1, [⟨10, 0, .ro, 0⟩, ⟨26, 16, .rc, 0⟩]⟩,
  ⟨"DP_RELEASED", .dock, 0x1008, 0x4, 1, [⟨31, 0, .ro, 0⟩]⟩,
  ⟨"DP_LATE", .dock, 0x100c, 0x4, 1, [⟨31, 0, .ro, 0⟩]⟩,
  ⟨"DP_FETCHED", .dock, 0x1010, 0x4, 1, [⟨31, 0, .ro, 0⟩]⟩,
  ⟨"DP_SKIPPED", .dock, 0x1014, 0x4, 1, [⟨31, 0, .ro, 0⟩]⟩,
  ⟨"FY_STAT", .dock, 0x2000, 0x4, 1, [⟨7, 0, .ro, 0⟩, ⟨8, 8, .ro, 0⟩]⟩,
  ⟨"FY_ERR", .dock, 0x2004, 0x4, 1, [⟨0, 0, .w1c, 0⟩, ⟨1, 1, .w1c, 0⟩]⟩,
  ⟨"FY_DONE", .dock, 0x2008, 0x4, 1, [⟨31, 0, .ro, 0⟩]⟩,
  ⟨"FY_WORDS", .dock, 0x200c, 0x4, 1, [⟨31, 0, .ro, 0⟩]⟩]

/-- Register tables, part 6. -/
def regRows6 : List RegRow := [
  ⟨"LT_STAT", .dock, 0x3000, 0x4, 1, [⟨3, 0, .ro, 0⟩, ⟨8, 8, .ro, 0⟩]⟩,
  ⟨"LT_ERR", .dock, 0x3004, 0x4, 1, [⟨0, 0, .w1c, 0⟩, ⟨1, 1, .w1c, 0⟩]⟩,
  ⟨"LT_DONE", .dock, 0x3008, 0x4, 1, [⟨31, 0, .ro, 0⟩]⟩,
  ⟨"MC_VER", .dock, 0x4000, 0x4, 1, [⟨31, 0, .ro, 0⟩]⟩,
  ⟨"MC_CTL", .dock, 0x4004, 0x4, 1, [⟨0, 0, .ro, 0⟩, ⟨1, 1, .w1s, 0⟩, ⟨2, 2, .ro, 0⟩, ⟨3, 3, .ro, 0⟩, ⟨4, 4, .ro, 0⟩, ⟨5, 5, .w1c, 0⟩]⟩,
  ⟨"MC_IDLEVER", .dock, 0x4008, 0x4, 1, [⟨31, 0, .ro, 0⟩]⟩,
  ⟨"MC_SLOTBANK", .dock, 0x400c, 0x4, 1, [⟨16, 0, .ro, 0⟩]⟩,
  ⟨"MC_LADDR", .dock, 0x4010, 0x4, 1, [⟨11, 0, .rw, 0⟩]⟩,
  ⟨"MC_LDATA0", .dock, 0x4014, 0x4, 1, [⟨31, 0, .wo, 0⟩]⟩,
  ⟨"MC_LDATA1", .dock, 0x4018, 0x4, 1, [⟨31, 0, .wo, 0⟩]⟩,
  ⟨"MC_LDATA2", .dock, 0x401c, 0x4, 1, [⟨15, 0, .wo, 0⟩]⟩,
  ⟨"MC_LEND", .dock, 0x4020, 0x4, 1, [⟨31, 0, .wo, 0⟩]⟩,
  ⟨"MC_LVER", .dock, 0x4024, 0x4, 1, [⟨31, 0, .rw, 0⟩]⟩,
  ⟨"BM_GOVCFG", .slot, 0x0, 0x4, 1, [⟨0, 0, .rw, 0⟩]⟩,
  ⟨"BM_FPNUM", .slot, 0x4, 0x4, 1, [⟨31, 0, .rw, 0⟩]⟩,
  ⟨"BM_FPDEN", .slot, 0x8, 0x4, 1, [⟨15, 0, .rw, 0⟩]⟩,
  ⟨"BM_FPPHASE", .slot, 0xc, 0x4, 1, [⟨31, 0, .rw, 0⟩]⟩,
  ⟨"BM_GOVSTAT", .slot, 0x10, 0x4, 1, [⟨0, 0, .ro, 0⟩, ⟨1, 1, .ro, 0⟩, ⟨2, 2, .ro, 0⟩, ⟨3, 3, .ro, 0⟩, ⟨4, 4, .ro, 0⟩, ⟨31, 8, .ro, 0⟩]⟩,
  ⟨"BM_SQSTAT", .slot, 0x14, 0x4, 1, [⟨9, 0, .ro, 0⟩, ⟨31, 16, .ro, 0⟩]⟩,
  ⟨"BM_STORE", .slot, 0x18, 0x4, 1, [⟨12, 0, .ro, 0⟩, ⟨31, 16, .ro, 0⟩]⟩,
  ⟨"BM_CORESTAT", .slot, 0x20, 0x4, 1, [⟨1, 0, .ro, 0⟩, ⟨2, 2, .ro, 0⟩, ⟨3, 3, .ro, 0⟩, ⟨31, 16, .ro, 0⟩]⟩,
  ⟨"DP_SPOVF", .slot, 0x40, 0x4, 1, [⟨0, 0, .w1c, 0⟩, ⟨15, 8, .ro, 0⟩, ⟨31, 16, .ro, 0⟩]⟩,
  ⟨"DP_BLINE", .slot, 0x44, 0x4, 1, [⟨11, 0, .ro, 0⟩, ⟨27, 16, .ro, 0⟩]⟩,
  ⟨"DP_BLATE", .slot, 0x48, 0x4, 1, [⟨15, 0, .ro, 0⟩]⟩]

/-- Register tables, part 7. -/
def regRows7 : List RegRow := [
  ⟨"DP_FBCFG", .slot, 0x80, 0x4, 1, [⟨0, 0, .rw, 0⟩, ⟨1, 1, .rw, 0⟩, ⟨28, 16, .rw, 0⟩]⟩,
  ⟨"DP_FB0BASE", .slot, 0x84, 0x4, 1, [⟨22, 0, .rw, 0⟩]⟩,
  ⟨"DP_FB1BASE", .slot, 0x88, 0x4, 1, [⟨22, 0, .rw, 0⟩]⟩,
  ⟨"DP_OUTCFG", .slot, 0x8c, 0x4, 1, [⟨1, 0, .rw, 0⟩, ⟨2, 2, .rw, 0⟩, ⟨6, 4, .rw, 1⟩, ⟨27, 16, .rw, 0⟩]⟩,
  ⟨"DP_FILL", .slot, 0x90, 0x4, 1, [⟨29, 0, .rw, 0⟩]⟩,
  ⟨"DP_SEGCFG", .slot, 0x94, 0x4, 1, [⟨13, 0, .rw, 1024⟩, ⟨19, 16, .rw, 0⟩]⟩,
  ⟨"DP_OHORZ", .slot, 0x98, 0x4, 1, [⟨12, 0, .rw, 0⟩, ⟨28, 16, .rw, 0⟩]⟩,
  ⟨"DP_OVERT", .slot, 0x9c, 0x4, 1, [⟨12, 0, .rw, 0⟩, ⟨28, 16, .rw, 0⟩]⟩,
  ⟨"DP_OFPNUM", .slot, 0xa0, 0x4, 1, [⟨31, 0, .rw, 0⟩]⟩,
  ⟨"DP_OFPDEN", .slot, 0xa4, 0x4, 1, [⟨15, 0, .rw, 0⟩]⟩,
  ⟨"DP_OFPPHASE", .slot, 0xa8, 0x4, 1, [⟨31, 0, .rw, 0⟩]⟩,
  ⟨"DP_SWLINE", .slot, 0xac, 0x4, 1, [⟨11, 0, .rw, 0⟩]⟩,
  ⟨"DP_OSTAT", .slot, 0xb0, 0x4, 1, [⟨11, 0, .ro, 0⟩, ⟨12, 12, .ro, 0⟩, ⟨13, 13, .ro, 0⟩, ⟨14, 14, .ro, 0⟩, ⟨27, 16, .ro, 0⟩]⟩,
  ⟨"DP_UNDERRUN", .slot, 0xb4, 0x4, 1, [⟨15, 0, .ro, 0⟩, ⟨27, 16, .ro, 0⟩]⟩,
  ⟨"DP_OFRAMES", .slot, 0xb8, 0x4, 1, [⟨15, 0, .ro, 0⟩, ⟨31, 16, .ro, 0⟩]⟩,
  ⟨"DP_GAPSTAT", .slot, 0xbc, 0x4, 1, [⟨15, 0, .ro, 0⟩, ⟨31, 16, .ro, 0⟩]⟩,
  ⟨"BM_WATCHCFG", .slot, 0xc0, 0x4, 1, [⟨5, 0, .rw, 0⟩]⟩,
  ⟨"BM_WATCHSTAT", .slot, 0xc4, 0x4, 1, [⟨12, 0, .ro, 0⟩, ⟨13, 13, .ro, 0⟩, ⟨23, 16, .ro, 0⟩, ⟨31, 24, .ro, 0⟩]⟩,
  ⟨"BM_WATCHSEQ", .slot, 0xc8, 0x4, 1, [⟨31, 0, .ro, 0⟩]⟩,
  ⟨"BM_WATCHPAGE", .slot, 0xcc, 0x4, 1, [⟨13, 0, .rw, 0⟩]⟩,
  ⟨"BM_DESCA", .slot, 0x100, 0x8, 16, [⟨22, 0, .rw, 0⟩]⟩,
  ⟨"BM_DESCB", .slot, 0x104, 0x8, 16, [⟨15, 0, .rw, 65535⟩, ⟨16, 16, .rw, 0⟩, ⟨17, 17, .rw, 0⟩, ⟨18, 18, .rw, 0⟩, ⟨19, 19, .rw, 0⟩]⟩,
  ⟨"QY_CFG", .quay, 0x0, 0x4, 1, [⟨0, 0, .rw, 0⟩, ⟨1, 1, .rw, 0⟩, ⟨2, 2, .rw, 0⟩, ⟨3, 3, .rw, 0⟩, ⟨4, 4, .rw, 0⟩, ⟨5, 5, .rw, 0⟩, ⟨10, 8, .rw, 0⟩]⟩,
  ⟨"QY_STAT", .quay, 0x4, 0x4, 1, [⟨0, 0, .ro, 0⟩, ⟨1, 1, .ro, 0⟩, ⟨2, 2, .ro, 1⟩, ⟨3, 3, .ro, 0⟩, ⟨4, 4, .w1c, 0⟩, ⟨15, 8, .ro, 0⟩]⟩]

/-- Register tables, part 8. -/
def regRows8 : List RegRow := [
  ⟨"QY_MACLO", .quay, 0x8, 0x4, 1, [⟨31, 0, .rw, 0⟩]⟩,
  ⟨"QY_MACHI", .quay, 0xc, 0x4, 1, [⟨15, 0, .rw, 0⟩]⟩,
  ⟨"QY_IP4", .quay, 0x10, 0x4, 1, [⟨31, 0, .rw, 0⟩]⟩,
  ⟨"QY_IP6W", .quay, 0x14, 0x4, 4, [⟨31, 0, .rw, 0⟩]⟩,
  ⟨"QY_PFC", .quay, 0x24, 0x4, 1, [⟨7, 0, .rw, 255⟩, ⟨15, 8, .rw, 0⟩, ⟨23, 16, .rw, 192⟩]⟩,
  ⟨"QY_FAILOVER", .quay, 0x28, 0x4, 1, [⟨0, 0, .wo, 0⟩, ⟨1, 1, .ro, 0⟩]⟩,
  ⟨"QY_EVENT", .quay, 0x2c, 0x4, 1, [⟨0, 0, .w1c, 0⟩, ⟨1, 1, .w1c, 0⟩, ⟨2, 2, .w1c, 0⟩, ⟨3, 3, .w1c, 0⟩, ⟨4, 4, .w1c, 0⟩]⟩,
  ⟨"QY_EVEN", .quay, 0x30, 0x4, 1, [⟨4, 0, .rw, 0⟩]⟩,
  ⟨"QY_STIDX", .quay, 0x40, 0x4, 1, [⟨9, 0, .rw, 0⟩]⟩,
  ⟨"QY_STENT", .quay, 0x44, 0x4, 12, [⟨31, 0, .rw, 0⟩]⟩,
  ⟨"QY_TXPKTS", .quay, 0x100, 0x4, 1, [⟨31, 0, .ro, 0⟩]⟩,
  ⟨"QY_RXPKTS", .quay, 0x104, 0x4, 1, [⟨31, 0, .ro, 0⟩]⟩,
  ⟨"QY_RXDISC", .quay, 0x108, 0x4, 1, [⟨31, 0, .ro, 0⟩]⟩,
  ⟨"QY_RXFRAME", .quay, 0x10c, 0x4, 1, [⟨31, 0, .ro, 0⟩]⟩,
  ⟨"QY_RXSEC", .quay, 0x110, 0x4, 1, [⟨31, 0, .ro, 0⟩]⟩,
  ⟨"QY_RXNOMATCH", .quay, 0x114, 0x4, 1, [⟨31, 0, .ro, 0⟩]⟩,
  ⟨"QY_RXBADIP", .quay, 0x118, 0x4, 1, [⟨31, 0, .ro, 0⟩]⟩,
  ⟨"QY_RXBADQL", .quay, 0x11c, 0x4, 1, [⟨31, 0, .ro, 0⟩]⟩,
  ⟨"QY_RXFULL", .quay, 0x120, 0x4, 1, [⟨31, 0, .ro, 0⟩]⟩,
  ⟨"QY_RXDENIED", .quay, 0x124, 0x4, 1, [⟨31, 0, .ro, 0⟩]⟩,
  ⟨"QY_QDROPLINES", .quay, 0x128, 0x4, 1, [⟨31, 0, .ro, 0⟩]⟩,
  ⟨"QY_FECCORR", .quay, 0x12c, 0x4, 1, [⟨31, 0, .ro, 0⟩]⟩,
  ⟨"QY_FECUNCORR", .quay, 0x130, 0x4, 1, [⟨31, 0, .ro, 0⟩]⟩,
  ⟨"QY_INJCTL", .quay, 0x200, 0x4, 1, [⟨0, 0, .rw, 0⟩, ⟨1, 1, .rw, 0⟩, ⟨2, 2, .rw, 0⟩, ⟨3, 3, .rw, 0⟩, ⟨4, 4, .rw, 0⟩, ⟨26, 16, .rw, 0⟩]⟩]

/-- Register tables, part 9. -/
def regRows9 : List RegRow := [
  ⟨"QY_INJSEL", .quay, 0x204, 0x4, 1, [⟨15, 0, .rw, 0⟩, ⟨31, 16, .rw, 0⟩]⟩,
  ⟨"QY_INJCORR", .quay, 0x208, 0x4, 1, [⟨13, 0, .rw, 0⟩, ⟨16, 14, .rw, 0⟩, ⟨17, 17, .rw, 0⟩]⟩,
  ⟨"QY_INJREORD", .quay, 0x20c, 0x4, 1, [⟨3, 0, .rw, 0⟩]⟩,
  ⟨"QY_INJSEED", .quay, 0x210, 0x4, 1, [⟨31, 0, .rw, 0⟩]⟩,
  ⟨"QY_INJDROPS", .quay, 0x214, 0x4, 1, [⟨31, 0, .ro, 0⟩]⟩,
  ⟨"QY_INJCORRS", .quay, 0x218, 0x4, 1, [⟨31, 0, .ro, 0⟩]⟩,
  ⟨"QY_INJHOLDS", .quay, 0x21c, 0x4, 1, [⟨31, 0, .ro, 0⟩]⟩,
  ⟨"QY_TXTSLO", .quay, 0x300, 0x4, 1, [⟨31, 0, .ro, 0⟩]⟩,
  ⟨"QY_TXTSHI", .quay, 0x304, 0x4, 1, [⟨31, 0, .ro, 0⟩]⟩,
  ⟨"QY_TXTSINFO", .quay, 0x308, 0x4, 1, [⟨15, 0, .ro, 0⟩, ⟨19, 16, .ro, 0⟩, ⟨28, 24, .ro, 0⟩, ⟨30, 30, .w1c, 0⟩, ⟨31, 31, .ro, 0⟩]⟩,
  ⟨"QY_RXTSLO", .quay, 0x30c, 0x4, 1, [⟨31, 0, .ro, 0⟩]⟩,
  ⟨"QY_RXTSHI", .quay, 0x310, 0x4, 1, [⟨31, 0, .ro, 0⟩]⟩,
  ⟨"QY_RXTSINFO", .quay, 0x314, 0x4, 1, [⟨15, 0, .ro, 0⟩, ⟨19, 16, .ro, 0⟩, ⟨28, 24, .ro, 0⟩, ⟨30, 30, .w1c, 0⟩, ⟨31, 31, .ro, 0⟩]⟩]

/-- Every harbour register. -/
def regRows : List RegRow :=
  regRows0 ++ regRows1 ++ regRows2 ++ regRows3 ++ regRows4 ++ regRows5 ++ regRows6 ++ regRows7 ++ regRows8 ++ regRows9

end Sys2Proof.Machine

namespace Sys2Proof.Machine.R

/-- HB_PARTID (R38). -/
def HB_PARTID : Nat := 0x0

/-- HB_DIEID (R38). -/
def HB_DIEID : Nat := 0x4

/-- HB_TIMELO (R36). -/
def HB_TIMELO : Nat := 0x10

/-- HB_TIMEHI (R36). -/
def HB_TIMEHI : Nat := 0x14

/-- HB_CLKSTAT (R38). -/
def HB_CLKSTAT : Nat := 0x20

/-- HB_FABSTAT (R20). -/
def HB_FABSTAT : Nat := 0x30

/-- HB_PRFSEL (R486). -/
def HB_PRFSEL : Nat := 0x40

/-- HB_MCTPVID (R482). -/
def HB_MCTPVID : Nat := 0x44

/-- HB_BOOTSTAT (R570). -/
def HB_BOOTSTAT : Nat := 0x48

/-- HB_WDOG (R608). -/
def HB_WDOG : Nat := 0x50

/-- HB_HOSTCTL (R449). -/
def HB_HOSTCTL : Nat := 0x1000

/-- HB_EVLOST (R449). -/
def HB_EVLOST : Nat := 0x1004

/-- HB_EVBASELO (R449). -/
def HB_EVBASELO : Nat := 0x1010

/-- HB_EVBASEHI (R449). -/
def HB_EVBASEHI : Nat := 0x1014

/-- HB_EVCFG (R449). -/
def HB_EVCFG : Nat := 0x1018

/-- HB_EVHEAD (R449). -/
def HB_EVHEAD : Nat := 0x101c

/-- HB_SQ0BASELO (R449). -/
def HB_SQ0BASELO : Nat := 0x1100

/-- HB_SQ0BASEHI (R449). -/
def HB_SQ0BASEHI : Nat := 0x1104

/-- HB_SQ0SIZE (R449). -/
def HB_SQ0SIZE : Nat := 0x1108

/-- HB_SQ0TAIL (R449). -/
def HB_SQ0TAIL : Nat := 0x110c

/-- HB_CQ0BASELO (R449). -/
def HB_CQ0BASELO : Nat := 0x1110

/-- HB_CQ0BASEHI (R449). -/
def HB_CQ0BASEHI : Nat := 0x1114

/-- HB_CQ0CFG (R449). -/
def HB_CQ0CFG : Nat := 0x1118

/-- HB_CQ0HEAD (R449). -/
def HB_CQ0HEAD : Nat := 0x111c

/-- HB_SQ1BASELO (R449). -/
def HB_SQ1BASELO : Nat := 0x1900

/-- HB_SQ1BASEHI (R449). -/
def HB_SQ1BASEHI : Nat := 0x1904

/-- HB_SQ1SIZE (R449). -/
def HB_SQ1SIZE : Nat := 0x1908

/-- HB_SQ1TAIL (R449). -/
def HB_SQ1TAIL : Nat := 0x190c

/-- HB_CQ1BASELO (R449). -/
def HB_CQ1BASELO : Nat := 0x1910

/-- HB_CQ1BASEHI (R449). -/
def HB_CQ1BASEHI : Nat := 0x1914

/-- HB_CQ1CFG (R449). -/
def HB_CQ1CFG : Nat := 0x1918

/-- HB_CQ1HEAD (R449). -/
def HB_CQ1HEAD : Nat := 0x191c

/-- HB_BLOC (R30). -/
def HB_BLOC : Nat := 0x2000

/-- HB_MSIX0 (R449). -/
def HB_MSIX0 : Nat := 0x8000

/-- HB_PBA0 (R449). -/
def HB_PBA0 : Nat := 0x8400

/-- HB_MSIX1 (R449). -/
def HB_MSIX1 : Nat := 0x9000

/-- HB_PBA1 (R449). -/
def HB_PBA1 : Nat := 0x9400

/-- HIC_PEND (R401). -/
def HIC_PEND : Nat := 0x10000

/-- HIC_EN (R401). -/
def HIC_EN : Nat := 0x10080

/-- HIC_GCFG (R404). -/
def HIC_GCFG : Nat := 0x10100

/-- HIC_TOPD (R404). -/
def HIC_TOPD : Nat := 0x10200

/-- HIC_TOPH (R404). -/
def HIC_TOPH : Nat := 0x10204

/-- HIC_EOI (R405). -/
def HIC_EOI : Nat := 0x10208

/-- HIC_LEVEL (R400). -/
def HIC_LEVEL : Nat := 0x10280

/-- HIC_RELEASED (R406). -/
def HIC_RELEASED : Nat := 0x10300

/-- HIC_NHELD (R406). -/
def HIC_NHELD : Nat := 0x10380

/-- PW_MODE (R528). -/
def PW_MODE : Nat := 0x20000

/-- PW_DSTAT0 (R527). -/
def PW_DSTAT0 : Nat := 0x20004

/-- PW_DSTAT1 (R527). -/
def PW_DSTAT1 : Nat := 0x20008

/-- PW_ENTRY (R528). -/
def PW_ENTRY : Nat := 0x2000c

/-- PW_RETMASKLO (R525). -/
def PW_RETMASKLO : Nat := 0x20010

/-- PW_RETMASKHI (R525). -/
def PW_RETMASKHI : Nat := 0x20014

/-- PW_TJ (R542). -/
def PW_TJ : Nat := 0x20018

/-- PW_PKGPWR (R538). -/
def PW_PKGPWR : Nat := 0x20100

/-- PW_LADDER (R540). -/
def PW_LADDER : Nat := 0x20104

/-- PW_THPOL (R545). -/
def PW_THPOL : Nat := 0x20108

/-- PW_AVSTGT (R536). -/
def PW_AVSTGT : Nat := 0x20110

/-- PW_AVSSTAT (R536). -/
def PW_AVSSTAT : Nat := 0x20114

/-- HT_ARMLO (R395). -/
def HT_ARMLO : Nat := 0x30000

/-- HT_ARMHI (R395). -/
def HT_ARMHI : Nat := 0x30004

/-- HT_GO (R395). -/
def HT_GO : Nat := 0x30008

/-- HT_GOTLO (R395). -/
def HT_GOTLO : Nat := 0x3000c

/-- HT_GOTHI (R395). -/
def HT_GOTHI : Nat := 0x30010

/-- HT_LASTGO (R395). -/
def HT_LASTGO : Nat := 0x30014

/-- HT_CTL (R392). -/
def HT_CTL : Nat := 0x30100

/-- HT_CNT (R384). -/
def HT_CNT : Nat := 0x30104

/-- HT_CMP (R384). -/
def HT_CMP : Nat := 0x30108

/-- HT_INT (R384). -/
def HT_INT : Nat := 0x3010c

/-- GP_OUTLO (R592). -/
def GP_OUTLO : Nat := 0x40000

/-- GP_OUTHI (R592). -/
def GP_OUTHI : Nat := 0x40004

/-- GP_OELO (R592). -/
def GP_OELO : Nat := 0x40008

/-- GP_OEHI (R592). -/
def GP_OEHI : Nat := 0x4000c

/-- GP_PADLVLLO (R594). -/
def GP_PADLVLLO : Nat := 0x40010

/-- GP_PADLVLHI (R594). -/
def GP_PADLVLHI : Nat := 0x40014

/-- GP_SYNCINLO (R594). -/
def GP_SYNCINLO : Nat := 0x40018

/-- GP_SYNCINHI (R594). -/
def GP_SYNCINHI : Nat := 0x4001c

/-- GP_EVTLO (R595). -/
def GP_EVTLO : Nat := 0x40020

/-- GP_EVTHI (R595). -/
def GP_EVTHI : Nat := 0x40024

/-- GP_BANKV (R587). -/
def GP_BANKV : Nat := 0x40028

/-- GP_STAT (R589). -/
def GP_STAT : Nat := 0x4002c

/-- GP_CFG (R589). -/
def GP_CFG : Nat := 0x40100

/-- GP_ADCCTL (R590). -/
def GP_ADCCTL : Nat := 0x40200

/-- GP_ADC (R590). -/
def GP_ADC : Nat := 0x40204

/-- GP_FAN (R588). -/
def GP_FAN : Nat := 0x40300

/-- GP_TACH (R588). -/
def GP_TACH : Nat := 0x40310

/-- GP_REFOUT (R588). -/
def GP_REFOUT : Nat := 0x40320

/-- GP_GLCNT (R588). -/
def GP_GLCNT : Nat := 0x40324

/-- GP_GLTSLO (R588). -/
def GP_GLTSLO : Nat := 0x40328

/-- GP_GLTSHI (R588). -/
def GP_GLTSHI : Nat := 0x4032c

/-- ST_CFG (R516). -/
def ST_CFG : Nat := 0x50000

/-- ST_PERIOD (R516). -/
def ST_PERIOD : Nat := 0x50004

/-- ST_STAT (R516). -/
def ST_STAT : Nat := 0x50008

/-- ST_SEQ (R521). -/
def ST_SEQ : Nat := 0x5000c

/-- ST_VOTE (R514). -/
def ST_VOTE : Nat := 0x50010

/-- ST_SECCLR (R522). -/
def ST_SECCLR : Nat := 0x50014

/-- ST_ECCCFG (R61). -/
def ST_ECCCFG : Nat := 0x50800

/-- ST_ECCCNT (R57). -/
def ST_ECCCNT : Nat := 0x50804

/-- ST_ECCSEQ (R67). -/
def ST_ECCSEQ : Nat := 0x50808

/-- ST_ECCLOGA (R67). -/
def ST_ECCLOGA : Nat := 0x50810

/-- ST_ECCLOGB (R67). -/
def ST_ECCLOGB : Nat := 0x50814

/-- ST_REPAIR (R64). -/
def ST_REPAIR : Nat := 0x50900

/-- LG_PGIDX (R87). -/
def LG_PGIDX : Nat := 0x60000

/-- LG_PGENT (R78). -/
def LG_PGENT : Nat := 0x60004

/-- LG_BSGIDX (R87). -/
def LG_BSGIDX : Nat := 0x60008

/-- LG_BSGENT (R72). -/
def LG_BSGENT : Nat := 0x6000c

/-- LG_FENCE (R80). -/
def LG_FENCE : Nat := 0x60010

/-- LG_REGLED (R81). -/
def LG_REGLED : Nat := 0x60100

/-- LG_REGLEDB (R81). -/
def LG_REGLEDB : Nat := 0x60140

/-- LG_PIN (R83). -/
def LG_PIN : Nat := 0x60200

/-- LG_VLCOUNT (R86). -/
def LG_VLCOUNT : Nat := 0x60400

/-- LG_VIOLOG0 (R86). -/
def LG_VIOLOG0 : Nat := 0x60800

/-- LG_VIOLOG1 (R86). -/
def LG_VIOLOG1 : Nat := 0x60804

/-- LG_VIOLOG2 (R86). -/
def LG_VIOLOG2 : Nat := 0x60808

/-- LG_VIOLOG3 (R86). -/
def LG_VIOLOG3 : Nat := 0x6080c

/-- KP_STAT (R551). -/
def KP_STAT : Nat := 0x70000

/-- KP_CALTIME (R553). -/
def KP_CALTIME : Nat := 0x70004

/-- KP_CALDATE (R553). -/
def KP_CALDATE : Nat := 0x70008

/-- KP_CALNTIME (R554). -/
def KP_CALNTIME : Nat := 0x7000c

/-- KP_CALNDATE (R554). -/
def KP_CALNDATE : Nat := 0x70010

/-- KP_CALCTL (R554). -/
def KP_CALCTL : Nat := 0x70014

/-- KP_ALARM (R556). -/
def KP_ALARM : Nat := 0x70018

/-- KP_WAKECFG (R552). -/
def KP_WAKECFG : Nat := 0x7001c

/-- KP_WAKESTAT (R552). -/
def KP_WAKESTAT : Nat := 0x70020

/-- KP_SEQ (R547). -/
def KP_SEQ : Nat := 0x70024

/-- KP_SHUT (R549). -/
def KP_SHUT : Nat := 0x70028

/-- KP_SCRATCH (R551). -/
def KP_SCRATCH : Nat := 0x70100

/-- MS_SLOT (R571). -/
def MS_SLOT : Nat := 0x80000

/-- MS_CNT (R572). -/
def MS_CNT : Nat := 0x80400

/-- MS_EXTDATA (R571). -/
def MS_EXTDATA : Nat := 0x80800

/-- MS_EXTGO (R571). -/
def MS_EXTGO : Nat := 0x80830

/-- DK_SLOTST0 (R22). -/
def DK_SLOTST0 : Nat := 0x0

/-- DK_SLOTST1 (R22). -/
def DK_SLOTST1 : Nat := 0x4

/-- DK_PIPE (R25). -/
def DK_PIPE : Nat := 0x8

/-- DK_FAULTTEST (R508). -/
def DK_FAULTTEST : Nat := 0xc

/-- DP_ERR (R261). -/
def DP_ERR : Nat := 0x1000

/-- DP_LOAD (R252). -/
def DP_LOAD : Nat := 0x1004

/-- DP_RELEASED (R257). -/
def DP_RELEASED : Nat := 0x1008

/-- DP_LATE (R255). -/
def DP_LATE : Nat := 0x100c

/-- DP_FETCHED (R250). -/
def DP_FETCHED : Nat := 0x1010

/-- DP_SKIPPED (R250). -/
def DP_SKIPPED : Nat := 0x1014

/-- FY_STAT (R381). -/
def FY_STAT : Nat := 0x2000

/-- FY_ERR (R380). -/
def FY_ERR : Nat := 0x2004

/-- FY_DONE (R381). -/
def FY_DONE : Nat := 0x2008

/-- FY_WORDS (R381). -/
def FY_WORDS : Nat := 0x200c

/-- LT_STAT (R381). -/
def LT_STAT : Nat := 0x3000

/-- LT_ERR (R380). -/
def LT_ERR : Nat := 0x3004

/-- LT_DONE (R381). -/
def LT_DONE : Nat := 0x3008

/-- MC_VER (R580). -/
def MC_VER : Nat := 0x4000

/-- MC_CTL (R581). -/
def MC_CTL : Nat := 0x4004

/-- MC_IDLEVER (R580). -/
def MC_IDLEVER : Nat := 0x4008

/-- MC_SLOTBANK (R581). -/
def MC_SLOTBANK : Nat := 0x400c

/-- MC_LADDR (R580). -/
def MC_LADDR : Nat := 0x4010

/-- MC_LDATA0 (R580). -/
def MC_LDATA0 : Nat := 0x4014

/-- MC_LDATA1 (R580). -/
def MC_LDATA1 : Nat := 0x4018

/-- MC_LDATA2 (R580). -/
def MC_LDATA2 : Nat := 0x401c

/-- MC_LEND (R580). -/
def MC_LEND : Nat := 0x4020

/-- MC_LVER (R580). -/
def MC_LVER : Nat := 0x4024

/-- BM_GOVCFG (R100). -/
def BM_GOVCFG : Nat := 0x0

/-- BM_FPNUM (R100). -/
def BM_FPNUM : Nat := 0x4

/-- BM_FPDEN (R100). -/
def BM_FPDEN : Nat := 0x8

/-- BM_FPPHASE (R100). -/
def BM_FPPHASE : Nat := 0xc

/-- BM_GOVSTAT (R91). -/
def BM_GOVSTAT : Nat := 0x10

/-- BM_SQSTAT (R116). -/
def BM_SQSTAT : Nat := 0x14

/-- BM_STORE (R117). -/
def BM_STORE : Nat := 0x18

/-- BM_CORESTAT (R155). -/
def BM_CORESTAT : Nat := 0x20

/-- DP_SPOVF (R240). -/
def DP_SPOVF : Nat := 0x40

/-- DP_BLINE (R259). -/
def DP_BLINE : Nat := 0x44

/-- DP_BLATE (R255). -/
def DP_BLATE : Nat := 0x48

/-- DP_FBCFG (R266). -/
def DP_FBCFG : Nat := 0x80

/-- DP_FB0BASE (R266). -/
def DP_FB0BASE : Nat := 0x84

/-- DP_FB1BASE (R266). -/
def DP_FB1BASE : Nat := 0x88

/-- DP_OUTCFG (R285). -/
def DP_OUTCFG : Nat := 0x8c

/-- DP_FILL (R281). -/
def DP_FILL : Nat := 0x90

/-- DP_SEGCFG (R288). -/
def DP_SEGCFG : Nat := 0x94

/-- DP_OHORZ (R275). -/
def DP_OHORZ : Nat := 0x98

/-- DP_OVERT (R275). -/
def DP_OVERT : Nat := 0x9c

/-- DP_OFPNUM (R275). -/
def DP_OFPNUM : Nat := 0xa0

/-- DP_OFPDEN (R275). -/
def DP_OFPDEN : Nat := 0xa4

/-- DP_OFPPHASE (R275). -/
def DP_OFPPHASE : Nat := 0xa8

/-- DP_SWLINE (R277). -/
def DP_SWLINE : Nat := 0xac

/-- DP_OSTAT (R272). -/
def DP_OSTAT : Nat := 0xb0

/-- DP_UNDERRUN (R283). -/
def DP_UNDERRUN : Nat := 0xb4

/-- DP_OFRAMES (R277). -/
def DP_OFRAMES : Nat := 0xb8

/-- DP_GAPSTAT (R301). -/
def DP_GAPSTAT : Nat := 0xbc

/-- BM_WATCHCFG (R489). -/
def BM_WATCHCFG : Nat := 0xc0

/-- BM_WATCHSTAT (R491). -/
def BM_WATCHSTAT : Nat := 0xc4

/-- BM_WATCHSEQ (R489). -/
def BM_WATCHSEQ : Nat := 0xc8

/-- BM_WATCHPAGE (R492). -/
def BM_WATCHPAGE : Nat := 0xcc

/-- BM_DESCA (R127). -/
def BM_DESCA : Nat := 0x100

/-- BM_DESCB (R127). -/
def BM_DESCB : Nat := 0x104

/-- QY_CFG (R414). -/
def QY_CFG : Nat := 0x0

/-- QY_STAT (R414). -/
def QY_STAT : Nat := 0x4

/-- QY_MACLO (R414). -/
def QY_MACLO : Nat := 0x8

/-- QY_MACHI (R414). -/
def QY_MACHI : Nat := 0xc

/-- QY_IP4 (R414). -/
def QY_IP4 : Nat := 0x10

/-- QY_IP6W (R414). -/
def QY_IP6W : Nat := 0x14

/-- QY_PFC (R438). -/
def QY_PFC : Nat := 0x24

/-- QY_FAILOVER (R429). -/
def QY_FAILOVER : Nat := 0x28

/-- QY_EVENT (R439). -/
def QY_EVENT : Nat := 0x2c

/-- QY_EVEN (R439). -/
def QY_EVEN : Nat := 0x30

/-- QY_STIDX (R420). -/
def QY_STIDX : Nat := 0x40

/-- QY_STENT (R420). -/
def QY_STENT : Nat := 0x44

/-- QY_TXPKTS (R444). -/
def QY_TXPKTS : Nat := 0x100

/-- QY_RXPKTS (R433). -/
def QY_RXPKTS : Nat := 0x104

/-- QY_RXDISC (R433). -/
def QY_RXDISC : Nat := 0x108

/-- QY_RXFRAME (R433). -/
def QY_RXFRAME : Nat := 0x10c

/-- QY_RXSEC (R433). -/
def QY_RXSEC : Nat := 0x110

/-- QY_RXNOMATCH (R433). -/
def QY_RXNOMATCH : Nat := 0x114

/-- QY_RXBADIP (R433). -/
def QY_RXBADIP : Nat := 0x118

/-- QY_RXBADQL (R433). -/
def QY_RXBADQL : Nat := 0x11c

/-- QY_RXFULL (R433). -/
def QY_RXFULL : Nat := 0x120

/-- QY_RXDENIED (R433). -/
def QY_RXDENIED : Nat := 0x124

/-- QY_QDROPLINES (R425). -/
def QY_QDROPLINES : Nat := 0x128

/-- QY_FECCORR (R415). -/
def QY_FECCORR : Nat := 0x12c

/-- QY_FECUNCORR (R415). -/
def QY_FECUNCORR : Nat := 0x130

/-- QY_INJCTL (R441). -/
def QY_INJCTL : Nat := 0x200

/-- QY_INJSEL (R442). -/
def QY_INJSEL : Nat := 0x204

/-- QY_INJCORR (R443). -/
def QY_INJCORR : Nat := 0x208

/-- QY_INJREORD (R443). -/
def QY_INJREORD : Nat := 0x20c

/-- QY_INJSEED (R442). -/
def QY_INJSEED : Nat := 0x210

/-- QY_INJDROPS (R443). -/
def QY_INJDROPS : Nat := 0x214

/-- QY_INJCORRS (R443). -/
def QY_INJCORRS : Nat := 0x218

/-- QY_INJHOLDS (R443). -/
def QY_INJHOLDS : Nat := 0x21c

/-- QY_TXTSLO (R439). -/
def QY_TXTSLO : Nat := 0x300

/-- QY_TXTSHI (R439). -/
def QY_TXTSHI : Nat := 0x304

/-- QY_TXTSINFO (R439). -/
def QY_TXTSINFO : Nat := 0x308

/-- QY_RXTSLO (R439). -/
def QY_RXTSLO : Nat := 0x30c

/-- QY_RXTSHI (R439). -/
def QY_RXTSHI : Nat := 0x310

/-- QY_RXTSINFO (R439). -/
def QY_RXTSINFO : Nat := 0x314

end Sys2Proof.Machine.R
end

