-- ==== Sys2Proof/Machine/Types.lean ====
section
/-! DEFINITION. The records a berth is made of: core, descriptors, beam, live raster, berth timers, interrupt
controller, audio unit, engine channels, watches and pipe schedule. Plain data throughout. -/

namespace Sys2Proof.Machine

/-- FL, the flags register of the core: the condition flags and the two control bits (FL register table). -/
structure Flags where
  c : Bool := false
  z : Bool := false
  n : Bool := false
  v : Bool := false
  ie : Bool := false
  tf : Bool := false
  deriving DecidableEq, Repr

/-- A descriptor (Table 4-2): base in die-local words, limit, rights and the SHARED mark. -/
structure Desc where
  base : Nat := 0
  limit : Nat := 0xFFFF
  r : Bool := false
  w : Bool := false
  x : Bool := false
  shared : Bool := false
  deriving DecidableEq, Repr

/-- The states of the core (Table 4-5), the three waits told apart with the operand each compares. -/
inductive CoreState where
  | stopped
  | run
  | waitBI
  | waitL (tl : Nat)
  | waitC (tc l0 h0 : Nat)
  | halt
  deriving DecidableEq, Repr

/-- An exception on its way to entry (R148): the vector, the saved PC, and what BM_XCAUSE, BM_XOFF, BM_XPC and BM_XSEL
will record. kind: 0 read, 1 write, 2 fetch, 3 no access. -/
structure Exc where
  vec : Nat
  savedPc : Word
  seg : Nat := 0
  kind : Nat := 3
  stack : Bool := false
  off : Nat := 0
  xpc : Word
  xsel : BitVec 4
  deriving DecidableEq, Repr

/-- The berth core (Table 4-1, R148, R158 to R161): registers, core state, the exception ports, the hold-off of R173,
the last instruction's offset and S0 selector, the pending entry, and the pace budget's parts. -/
structure Core where
  w : Vector Word 16 := Vector.replicate 16 0
  pc : Word := 0
  fl : Flags := {}
  seg : Vector (BitVec 4) 8 := #v[0, 1, 2, 3, 4, 5, 6, 7]
  st : CoreState := .stopped
  double : Bool := false
  hold : Bool := false
  lastPc : Word := 0
  lastSel : BitVec 4 := 0
  tf0 : Bool := false
  pend : Option Exc := none
  xcause : Word := 0
  xoff : Word := 0
  xpc : Word := 0
  xsel : Word := 0
  cap : Nat := 0
  charges : Nat := 0
  overrun : Nat := 0
  deriving DecidableEq, Repr

/-- A beam geometry (R93, R99) with the increment INC of the pixel clock (R94). -/
structure Geometry where
  htotal : Nat
  hvis : Nat
  hsyncs : Nat
  hsyncw : Nat
  vtotal : Nat
  vvis : Nat
  vsyncs : Nat
  vsyncw : Nat
  inc : Nat
  deriving DecidableEq, Repr

/-- The beam (R93 to R97): line, column, phase accumulator (30 fraction bits), full frame count, geometry in force, ARM,
GEOERR, the berth times of the line's and the frame's first microcycle, and the live values an armed commit of this frame copied. -/
structure Beam where
  l : Nat := 0
  c : Nat := 0
  acc : Nat := 0
  frame : Nat := 0
  geo : Geometry
  arm : Bool := false
  geoerr : Bool := false
  lineBt : Nat := 0
  commit : Option (Tbl Word) := none
  frameBt : Nat := 0
  deriving DecidableEq, Repr

/-- A stamp (R105) by its effective position (R106): full frame count, line and column, with the port and the value. -/
structure Stamp where
  frame : Nat
  line : Nat
  col : Nat
  port : Nat
  value : Word
  deriving DecidableEq, Repr

/-- A berth timer (R384, R390): control bits, values, the stage and the latch of each value, and the follow-on mark of R388. -/
structure BTimer where
  en : Bool := false
  auto : Bool := false
  src : Nat := 0
  mat : Bool := false
  cnt : Word32 := 0
  cmp : Word32 := 0
  int : Word32 := 0
  stCnt : Word := 0
  stCmp : Word := 0
  stInt : Word := 0
  laCnt : Word := 0
  laCmp : Word := 0
  laInt : Word := 0
  follow : Bool := false
  deriving DecidableEq, Repr

/-- Moderation of an interrupt group (R406): released, held events, and the time of the first held event. -/
structure Moder where
  released : Bool := true
  nheld : Nat := 0
  since : Option Nat := none
  deriving DecidableEq, Repr

/-- The berth interrupt controller (R408 to R411). setNow holds the bits hardware set in the current microcycle (R401). -/
structure BIC where
  pend : Word32 := 0
  en : Word32 := 0
  count : Nat := 0
  time : Nat := 0
  lcmp : Nat := 0
  mod : Moder := {}
  lines : Nat := 0
  setNow : Word32 := 0
  deriving DecidableEq, Repr

/-- An envelope generator (R310): phase 0 OFF, 1 ATTACK, 2 DECAY, 3 SUSTAIN, 4 RELEASE, and level E. -/
structure EnvGen where
  phase : Nat := 0
  e : Int := 0
  deriving DecidableEq, Repr

/-- A sample voice (R313 to R321): ring pointers, the words buffered from RP, the sample index within the word at RP,
the pitch fraction, the ADPCM predictor and index, and the current and held samples. -/
structure SVoice where
  env : EnvGen := {}
  rp : Nat := 0
  fp : Nat := 0
  buf : List Word := []
  sub : Nat := 0
  frac : Nat := 0
  pred : Int := 0
  idx : Nat := 0
  cur : Int := 0
  ready : Bool := false
  starving : Bool := false
  deriving DecidableEq, Repr

/-- An FM voice (R322 to R325): four generators, four phases, and operator 3's two last outputs. -/
structure FMVoice where
  envs : List EnvGen := List.replicate 4 {}
  phi : List Nat := List.replicate 4 0
  h1 : Int := 0
  h2 : Int := 0
  deriving DecidableEq, Repr

/-- A square and noise voice (R326). -/
structure QVoice where
  env : EnvGen := {}
  phase : Nat := 0
  noise : Nat := 0x1FFFF
  deriving DecidableEq, Repr

/-- One channel of one equaliser band (R334). -/
structure Biquad where
  x1 : Int := 0
  x2 : Int := 0
  y1 : Int := 0
  y2 : Int := 0
  deriving DecidableEq, Repr

/-- A meter (R337, R338): the block peak being taken, the last block's peak, the held value and the hold count. -/
structure Meter where
  run : Nat := 0
  peak : Nat := 0
  held : Nat := 0
  hold : Nat := 0
  deriving DecidableEq, Repr

/-- What an OUT asks of a voice at the next sample instant (R307): KEYON or KEYOFF, with the INDEX0 and the LOOP mode that stand at the write (R311,
R317, R319), or an empty ring (R317). -/
inductive AuAct where
  | key (v : Nat) (on : Bool) (idx : Nat) (loop : Bool)
  | ring (v : Nat)
  deriving DecidableEq, Repr

/-- The audio unit of a berth (file 09): keys holds what waits for the next instant, smain, sfx and sdir the shifts in force, nmain, nfx and ndir those
counted for the block (R329), and packetLen the samples that the packet being made will hold (R344). -/
structure Audio where
  sacc : Nat := 0
  scount : Nat := 0
  latchHi : Option Word := none
  keys : List AuAct := []
  sv : List SVoice := List.replicate 16 {}
  fm : List FMVoice := List.replicate 8 {}
  qv : List QVoice := List.replicate 8 {}
  svf : List (Int × Int) := List.replicate 32 (0, 0)
  smain : Nat := 0
  sfx : Nat := 0
  sdir : Nat := 0
  nmain : Nat := 0
  nfx : Nat := 0
  ndir : Nat := 0
  damp : List Int := List.replicate 4 0
  revW : Nat := 0
  dlyW : Nat := 0
  eqL : List Biquad := List.replicate 4 {}
  eqR : List Biquad := List.replicate 4 {}
  lastE : List (Int × Int) := []
  lastD : List (Int × Int) := []
  meters : List Meter := List.replicate 7 {}
  block : List (Int × Int) := []
  packet : List (Int × Int) := []
  packetBt : Nat := 0
  packetLen : Nat := 0
  inputVoice : Option Nat := none
  deriving DecidableEq, Repr

/-- A Ferry channel (R357 to R359): state 0 IDLE, 1 ARMED, 2 BUSY, 3 DONE; the latched manifest; the write microcycle of GO;
whether the trigger has fired. -/
structure FChan where
  state : Nat := 0
  overrun : Bool := false
  result : Nat := 0
  count : Nat := 0
  diff : Nat := 0
  man : List Word := []
  deriving DecidableEq, Repr

/-- A Lighter job still on the berth's side (R370): its number in PUSH order, its tag, its words, and whether its trigger has fired. -/
structure LJob where
  seq : Nat
  tag : Nat
  words : List Word
  fired : Bool
  deriving DecidableEq, Repr

/-- The berth's side of the Lighter queue (R370, R379); pushes counts the accepted PUSHes since BERTH_START. -/
structure LQueue where
  pushes : Nat := 0
  nextTag : Nat := 0
  outst : List Nat := []
  jobs : List LJob := []
  fullErr : Bool := false
  badJob : Bool := false
  done : Nat := 0
  wmark : Nat := 0
  rows : List (Nat × Nat) := []
  res : List Nat := List.replicate 8 0
  deriving DecidableEq, Repr

/-- The berth's view of its pad ring (R436): positions, the drop count and the overflow flag. -/
structure PadView where
  wp : Nat := 0
  rp : Nat := 0
  drops : Nat := 0
  ovf : Bool := false
  deriving DecidableEq, Repr

/-- Berth-side state (R92): everything a checkpoint saves and a rollback restores (R118, R342, R391, R410, Table 14-3).
bt is berth time in microcycles (R88). base holds the live values at the last frame boundary, stamps those effective in the current
or the next frame, in program order. ports holds the plain RW ports, pins the GP_ sync view of each lent pin.
w1cNow holds the W1C port bits hardware set in the current microcycle (R12), bank the control store bank in use (R581). -/
structure BSide where
  bt : Nat := 0
  core : Core := {}
  desc : Vector Desc 16 := Vector.replicate 16 {}
  beam : Beam
  shadow : Tbl Word := []
  base : Tbl Word := []
  stamps : List Stamp := []
  stalled : Option Stamp := none
  ports : Tbl Word := []
  w1cNow : Tbl Word := []
  timers : Vector BTimer 4 := Vector.replicate 4 {}
  bi : BIC := {}
  au : Audio := {}
  fc : Vector FChan 4 := Vector.replicate 4 {}
  deadlined : List Nat := []
  lj : LQueue := {}
  pad : PadView := {}
  pins : Tbl Word := []
  bank : Nat := 0
  deriving DecidableEq, Repr

/-- A start or an abort that a watch's commit releases to an engine (R349, R359); trig is the trigger microcycle, seq a job's number in PUSH order. -/
inductive Start where
  | ferry (ch : Nat) (man : List Word) (trig : Nat)
  | ferryAbort (ch : Nat)
  | lighter (seq tag : Nat) (words : List Word) (trig : Nat)
  | deadline (ch : Nat)
  deriving DecidableEq, Repr

/-- A line the beam has passed (R110), with what its composition needs: descriptors as of its end (R205), the geometry, the berth
time of its first microcycle (Table 8-5) and the first microcycle after it, the live values an armed commit copied at its frame's boundary when it is line 0
(R113), and whether its frame is skipped (R543). -/
structure LineRec where
  frame : Nat
  line : Nat
  geo : Geometry
  desc : Vector Desc 16
  btime : Nat
  endBt : Nat := 0
  commit : Option (Tbl Word) := none
  skip : Bool := false
  deriving DecidableEq, Repr

/-- An audio packet's samples (R296, R344): index of the first sample, its berth time, beam line and frame, and the pairs. -/
structure AudioBlock where
  sample : Nat
  btime : Nat
  line : Nat
  frame : Nat
  samples : List (Int × Int)
  deriving DecidableEq, Repr

/-- What a watch has made and its commit will release (Table 14-5), with its number and start and its undo entries (R496). -/
structure WatchAcc where
  seq : Nat := 0
  start : Nat := 0
  stamps : List Stamp := []
  starts : List Start := []
  audio : List AudioBlock := []
  lines : List LineRec := []
  padRp : Option Nat := none
  inRp : Option Nat := none
  pins : List (Nat × Nat) := []
  undo : List Nat := []
  deadt : Option Nat := none
  mismatch : Bool := false
  deriving DecidableEq, Repr

/-- The governor of a berth (R89, R91, R100 to R103): the four settings in force, LOCKERR, the offset being slewed and the reference time at which the
beam's current frame began, both in ps; where the reference stands: microcycle refBt is due at refT (ps) in REFCLK mode and at grid point gridK in HTIME
mode; and the time of the last BCLK cycle granted, in thirds of a ns. Reference times are harbour times, corrections still being applied counted whole. -/
structure Gov where
  mode : Nat := 0
  fpnum : Nat := 0
  fpden : Nat := 0
  fpphase : Nat := 0
  lockerr : Bool := false
  offset : Int := 0
  frameT : Int := 0
  refT : Int := 0
  refBt : Nat := 0
  gridK : Int := 0
  clk : Int := 0
  deriving DecidableEq, Repr

/-- A watch that has ended and whose commit is not complete (R499): what it made, the state latched at its boundary, the descriptors
before the changes its commit applies and those changes (R129, R347), the close cause (0 length, 1 stamp queue, 2 undo, 3 command), the harbour time of the boundary, and its commit's progress through R117. -/
structure WatchRec where
  acc : WatchAcc
  side : BSide
  desc : Vector Desc 16
  segs : List (Nat × Desc) := []
  cause : Nat
  at_ : Nat
  gov : Gov := {}
  headerDone : Bool := false
  waiting : Option Nat := none
  deriving DecidableEq, Repr

/-- Causes of a freeze (Table 3-1); closed: the watch was closed for a pause or a move, which its commit carries out (R500). -/
inductive Freeze where
  | queueFull
  | storeFull
  | recovery
  | pause
  | parked
  | migrate
  | align
  | closed
  deriving DecidableEq, Repr

/-- A change from outside the berth that waits for a watch start (R143, R350, R597). -/
inductive Outside where
  | ferryDone (ch result count diff : Nat) (irq : Bool)
  | lighterRows (tag rows : Nat)
  | lighterMark (tag : Nat) (ie : Bool)
  | lighterDone (tag result : Nat) (ie : Bool)
  | spriteOverflow
  | padDrops (n : Nat)
  | pinEvent (n : Nat)
  deriving DecidableEq, Repr

/-- An outside change in the dock's pending set, with the watch whose checkpoint will record it once it has been applied (R499). -/
structure OutsideRec where
  chg : Outside
  appliedIn : Option Nat := none
  deriving DecidableEq, Repr

/-- A released Ferry manifest not yet complete (R347, R360): channel, words, the descriptors it keeps, its progress, and its trigger microcycle
(R351). -/
structure FItem where
  ch : Nat
  man : List Word
  desc : Vector Desc 16
  started : Bool := false
  aborted : Bool := false
  deadline : Bool := false
  moved : Nat := 0
  trig : Nat := 0
  deriving DecidableEq, Repr

/-- A released Lighter job not yet complete (R347, R377): number in PUSH order, tag, words, descriptors, rows done, the result of a failed row, its
trigger microcycle (R351), and what stood in the words it has written where its spans overlap (R376). -/
structure LItem where
  seq : Nat
  tag : Nat
  words : List Word
  desc : Vector Desc 16
  started : Bool := false
  rows : Nat := 0
  result : Option Nat := none
  trig : Nat := 0
  orig : Tbl Word := []
  deriving DecidableEq, Repr

/-- A receive ring attached to a berth (R366, R437): base package word address, size exponent, producer and consumer counts. -/
structure RxRing where
  base : Nat
  k : Nat
  prod : Nat := 0
  cons : Nat := 0
  deriving DecidableEq, Repr

/-- What is fixed for a beam frame at its boundary (R97, R271, R272, R280, R543): its first microcycle and the position in it (30 fraction bits), geometry,
lead, scale, skip mark; the governor as it stands for the frame, the delay in ns of its reads under R274, and once the beam has passed line VVIS - 1 the
time of that cycle in thirds of a ns (R253). -/
structure FrameInfo where
  frame : Nat
  startBt : Nat
  pos : Nat
  geo : Geometry
  lead : Nat
  scale : Nat
  skip : Bool
  gov : Gov := {}
  delay : Nat := 0
  passClk : Option Int := none
  deriving DecidableEq, Repr

/-- A packet of a stream before transmission (R292 to R298): type, flags, header fields and payload; ser is the serial number of the video
line it belongs to, last marks that line's last segment, other an AUDIO or GAP packet's place (R424), and lost the counts its gap
record carries. -/
structure Packet where
  typ : Nat
  flags : Nat
  seg : Nat := 0
  frame : Nat
  pf : Nat := 0
  line : Nat := 0
  btime : Nat
  payload : List Byte
  ser : Option Nat := none
  last : Bool := false
  other : Bool := false
  lost : Nat × Nat × Nat := (0, 0, 0)
  deriving DecidableEq, Repr

/-- A berth's stream as its dock keeps it (R285, R290, R298 to R302, R424 to R431): binding, SEQ counter, queue, the line being queued, the
CONTROL packet held, the losses not yet reported with the latest reason, the rebinding state, and whether a failover has used up its partner (R431). -/
structure Stream where
  bound : Bool := false
  held : Bool := false
  quay : Nat := 0
  entry : Nat := 0
  seq : Nat := 0
  queue : List Packet := []
  opened : List Nat := []
  ser : Nat := 0
  cur : Option Nat := none
  control : Option Packet := none
  ctlLine : Option Nat := none
  lostLines : Nat := 0
  lostFrames : Nat := 0
  lostAudio : Nat := 0
  reason : Nat := 0
  report : Bool := false
  rebound : Bool := false
  lastFrame : Nat := 0
  oframes : Nat := 0
  spent : Bool := false
  deriving DecidableEq, Repr

/-- A berth's output timing generator (R266 to R284): settings in force, with the FREE raster and grid and the ABLKS latched at the last output frame start, the offset in ps from its grid of the FREE frame in progress, whether its LOCKED timeline starts again (R274), the output frame in progress
and whether it repeats, the source line read, the next
output line and segment, line tags of both buffers, what each buffer holds in FREE output, and the frame last shown. -/
structure Gen where
  vmode : Nat := 0
  free : Bool := false
  segBytes : Nat := 1024
  nextF : Nat := 0
  started : Bool := false
  frame : Option Nat := none
  geo : Option Geometry := none
  scale : Nat := 1
  startT : Nat := 0
  endT : Nat := 0
  restart : Bool := false
  again : Bool := false
  line : Nat := 0
  row : Option (Nat × List Nat × Bool) := none
  oline : Nat := 0
  seg : Nat := 0
  tags0 : Tbl Nat := []
  tags1 : Tbl Nat := []
  buf : Nat := 0
  hold0 : Option (Nat × Nat) := none
  hold1 : Option (Nat × Nat) := none
  wbuf : Nat := 0
  shown : Option Nat := none
  ras : Nat × Nat × Nat × Nat := (0, 0, 0, 0)
  fnum : Nat := 0
  fden : Nat := 0
  fphase : Nat := 0
  foff : Int := 0
  ablks : Nat := 0
  deriving DecidableEq, Repr

end Sys2Proof.Machine
end

