-- ==== Sys2Proof/Machine/State.lean ====
section
/-! DEFINITION. The state of the block: registers, cellar, ledgers, berths, docks, quays, host rings, keeper, boot images, pins,
and the queue of waiting commands. -/

namespace Sys2Proof.Machine

/-- The part (R18): SX2, SX4 or SX8. -/
inductive Part where
  | sx2
  | sx4
  | sx8
  deriving DecidableEq, Repr

/-- An error held in an ECC word (R56, R58, R59): a single flipped bit 0 to 71, two flipped bits, the poison syndrome, or three and more
flipped bits, whose outcome the spec leaves open. -/
inductive EccErr where
  | single (bit : Nat)
  | double
  | poison
  | multi
  deriving DecidableEq, Repr

/-- The result of the last harbour register or BAR2 access, as its requester sees it (R10, R46, Table 2-6). -/
inductive BusResp where
  | idle
  | data (v : Nat)
  | done
  | unsupported
  | busFault
  | poisoned
  | jtagDenied
  | jtagPoison (v : Nat)
  deriving DecidableEq, Repr

/-- The checkpoint a berth rolls back to (R494, R504), with where its governor's reference stood. -/
structure Ckpt where
  side : BSide
  seq : Nat
  buffer : Nat
  cause : Nat
  at_ : Nat
  gov : Gov := {}
  deriving DecidableEq, Repr

/-- What the dock pipe keeps for a berth under its logical ID (R259): the live values it has applied, the stamps in its store, the composable lines in
beam order, and the layers of a frame and line whose denial has been logged (R85). -/
structure PipeSide where
  live : Tbl Word := []
  store : List Stamp := []
  lines : List LineRec := []
  logged : Nat × Nat × List Nat := (0, 0, [])
  deriving DecidableEq, Repr

/-- A berth (R28, R155, R489): where it stands, its berth-side state, the watch in progress, the watches ended and not committed,
its current checkpoint, and what the harbour and the dock keep for it. -/
structure Berth where
  id : Nat
  die : Nat
  dock : Nat
  slot : Nat
  parked : Bool := false
  moving : Bool := false
  locGen : Nat := 0
  started : Bool := false
  side : BSide
  cur : WatchAcc := {}
  ended : List WatchRec := []
  ckpt : Option Ckpt := none
  freezes : List Freeze := []
  closeReq : Bool := false
  stallStamp : Option Stamp := none
  outside : List OutsideRec := []
  pipe : PipeSide := {}
  gov : Gov := {}
  regs : Tbl Word32 := []
  segDefs : List (Nat × Desc) := []
  stores : List (Nat × Nat × Word) := []
  parkReq : Option Nat := none
  stalls : Nat := 0
  storeWaits : Nat := 0
  qcloses : Nat := 0
  ucloses : Nat := 0
  prio : Nat := 4
  skipping : Bool := false
  frameSkip : Bool := false
  scale : Nat := 1
  gapCause : Option Nat := none
  parkCause : Nat := 0
  parkVer : Nat := 0
  reloc : Nat := 0
  dest : Option (Nat × Nat × Nat) := none
  relocs : Nat := 0
  uLines : Nat := 0
  lateLines : Nat := 0
  ovLines : Nat := 0
  qLines : Nat := 0
  deadt : Nat := 0
  frames : List FrameInfo := []
  gen : Gen := {}
  stream : Stream := {}
  fq : List FItem := []
  lq : List LItem := []
  nextJob : Nat := 0
  deadJobs : List Nat := []
  rx : List (Option RxRing) := List.replicate 4 none
  padWp : Nat := 0
  padRet : Nat := 0
  inWp : Nat := 0
  inRet : Nat := 0
  sumU : Nat := 0
  sumL : Nat := 0
  sumAt : Nat := 0
  lossAt : Nat := 0
  deriving DecidableEq, Repr

/-- A composed line in a pipe's line buffer (R257): the berth, its line, the pixels as 30-bit colours, sprites dropped, cost in DCLK
cycles, layer-spans fetched and skipped, and the harbour time at which the composition started. -/
structure Composed where
  berth : Nat
  line : LineRec
  pixels : List Nat
  dropped : Nat
  cost : Nat
  fetched : Nat
  skipped : Nat
  startAt : Nat
  deriving DecidableEq, Repr

/-- What a dock keeps for whichever pipe composes it (R252, R257 to R265): the line in the line buffer, whether the dock's own pipe has failed and not
passed a test since, whether no pipe serves the dock, when a line was last released, the times spent composing in the last ms, and whether a check fired
in the own pipe's slice or that pipe failed its test. -/
structure DockPipe where
  cur : Option Composed := none
  failed : Bool := false
  dead : Bool := false
  lastRelease : Nat := 0
  spans : List (Nat × Nat) := []
  testFault : Bool := false
  testFailed : Bool := false
  deriving DecidableEq, Repr

/-- A frame on a quay: its bytes from destination address up to but not including the FCS, whether the FCS is valid, and for a transmitted frame the
harbour time of its start. -/
structure Frame where
  bytes : List Byte
  fcs : Bool := true
  at_ : Nat := 0
  deriving DecidableEq, Repr

/-- A MACsec SA in a quay's key store (R413, R475). -/
structure Sa where
  tx : Bool
  sc : Nat
  an : Nat
  key : List Byte
  salt : List Byte
  ssci : Nat
  sci : List Byte
  pn : Nat
  active : Bool := false
  replay : Nat := 0
  deriving DecidableEq, Repr

/-- A PTP time stamp in a quay's FIFO (R439). -/
structure TsEntry where
  time : Nat
  seqid : Nat
  mtype : Nat
  deriving DecidableEq, Repr

/-- A quay (file 12): stream table, pause ends and last turn of each class, frames sent, harbour frames waiting, frames handed to
firmware, time stamp FIFOs, key store, the selector's LFSR and count, the frame held for reordering with its class, the candidates left and
the time it was held, the receive buffer's fill in KiB, whether XOFF stands, the last loss of lock, the speed in use (0 for 200, 1 for 100 Gbit/s), and whether
its streams wait for the failover after a loss of lock (R429, R432). -/
structure Quay where
  table : Tbl (List Nat) := []
  pause : List Nat := List.replicate 8 0
  turn : List Nat := List.replicate 8 0
  sent : List Frame := []
  harbour : List (List Byte) := []
  fw : List (List Byte) := []
  txts : List TsEntry := []
  rxts : List TsEntry := []
  sas : List Sa := []
  lfsr : Nat := 1
  count : Nat := 0
  held : Option (Frame × Nat × Nat × Nat) := none
  rxFill : Nat := 0
  xoff : Bool := false
  downCause : Nat := 0
  downAt : Nat := 0
  speed : Nat := 0
  failing : Bool := false
  deriving DecidableEq, Repr

/-- A profile (Table 13-15), as boot loads it. -/
structure Profile where
  index : Nat
  cls : Nat
  berths : Nat
  sharepool : Nat
  cap : Nat
  watch : Nat
  qspeed : Nat
  dclkmin : Nat
  inject : Bool
  stagger : Bool
  budget : Bool
  sten : Bool
  k : Nat
  budgetUs : Nat
  vcore : List Nat
  vcellar : Nat
  geo : Geometry
  period : Nat
  deriving DecidableEq, Repr

/-- A completion entry (R453) as the harbour writes it. -/
structure Completion where
  cid : Nat
  status : Nat
  sq : Nat
  sqHead : Nat
  phase : Bool
  result : Nat
  deriving DecidableEq, Repr

/-- An event entry (R461): code, berth when valid, die, harbour time and the 16 DETAIL bytes. -/
structure Event where
  code : Nat
  lost : Bool := false
  eseq : Nat := 0
  phase : Bool := false
  berth : Option Nat
  die : Nat
  htime : Nat
  detail : List Byte
  deriving DecidableEq, Repr

/-- What the harbour keeps for one ring pair of an endpoint (R450 to R455): next entry to fetch, doorbelled tail, the completion
index and phase, the completions written, and those that wait for room: CID, STATUS and RESULT. -/
structure Ring where
  head : Nat := 0
  tail : Nat := 0
  cqHead : Nat := 0
  cqTail : Nat := 0
  phase : Bool := true
  posted : List Completion := []
  waiting : List (Nat × Nat × Nat) := []
  deriving DecidableEq, Repr

/-- What an endpoint's configuration space holds beside its fixed properties (R445, R447): the command register, the two BARs and the payload and read
request sizes, at their PCIe reset values (assumption log 138). -/
structure PciCfg where
  command : Nat := 0
  bar0 : Nat := 0
  bar2 : Nat := 0
  maxPayload : Nat := 128
  maxRead : Nat := 512
  deriving DecidableEq, Repr

/-- An endpoint (R445 to R449, R455, R461): its rings, event ring, the events held, the link and power states, MSI-X messages sent, what it has written
to host memory by address, subs the entries submitted and not yet fetched, each as its doorbell's time and ring, vecAt when each vector was last sent,
vecDue the vectors whose message waits for its microsecond (R454), and cfg. -/
structure Endpoint where
  rings : List Ring := List.replicate 8 {}
  evIdx : Nat := 0
  evHead : Nat := 0
  evPhase : Bool := true
  eseq : Nat := 0
  lostNext : Bool := false
  held : List Event := []
  events : List Event := []
  msix : List Nat := []
  link : Bool := false
  perst : Bool := false
  d3hot : Bool := false
  training : Bool := false
  writes : List (Nat × List Byte) := []
  subs : List (Nat × Nat) := []
  vecAt : Tbl Nat := []
  vecDue : List Nat := []
  cfg : PciCfg := {}
  deriving DecidableEq, Repr

/-- A fault record (Table 13-11). -/
structure FaultRec where
  seq : Nat
  code : Nat
  die : Nat
  berth : Option Nat
  htime : Nat
  slot : Nat
  unit : Nat
  detail : List Nat
  deriving DecidableEq, Repr

/-- A self-test record (Table 13-12). -/
structure TestRec where
  seq : Nat
  die : Nat
  kind : Nat
  unit : Nat
  result : Nat
  bit : Nat := 255
  repairs : Nat := 0
  addr : Nat := 0
  htime : Nat
  deriving DecidableEq, Repr

/-- A self-test slice (R516, R518): its kind and unit (Table 13-12), whether it stands at the head for a fault, how long it still
runs at DCLK 1.2 GHz in ns, whether a turn is running and since when, and when it was queued. -/
structure Slice where
  die : Nat
  kind : Nat
  unit : Nat
  left : Nat
  running : Bool := false
  turnAt : Nat := 0
  queuedAt : Nat := 0
  deriving DecidableEq, Repr

/-- What a command in flight waits for: a watch commit (R460), a domain's return to ON (R526), the time AT (R469), a relocation (R470), an
alignment (R469), the entry of a domain (R528), a failover (R459), or to start (R455 to R459). -/
inductive Why where
  | commit
  | domain
  | time
  | move
  | align
  | entry
  | failover
  | start
  deriving DecidableEq, Repr

/-- A command fetched and not complete (R456, R460): its opcode, when it came and what it waits for. ep 2 is the MCTP requester (R483), 3
an endpoint reset since. seq is the watch of its berth that was in progress when it came. -/
structure Flying where
  op : Nat
  cmd : Cmd
  startAt : Nat := 0
  why : Why := .commit
  seq : Nat := 0
  deriving DecidableEq, Repr

/-- An AVSBus exchange outstanding (R536): rail 0 VCORE or 1 VCELLAR, target in mV, its start, and whether it has been sent again. -/
structure Avs where
  rail : Nat
  target : Nat
  startAt : Nat
  retried : Bool := false
  deriving DecidableEq, Repr

/-- A ladder's history (R540, R542): its last action, and since when its condition for a step up has held. -/
structure Ladder where
  acted : Option Nat := none
  low : Option Nat := none
  deriving DecidableEq, Repr

/-- Power management (R534 to R546): the peak credit in units of 0.025 ms, the last P, the ladders of the package and of the dies, the
exchange outstanding and those queued, the ladders (8 package, else a die) whose step up waits for a voltage, RAISEHOLD's start, and a power
fault at boot. -/
structure PowerSt where
  credit : Nat := 60000
  lastP : Nat := 0
  pack : Ladder := {}
  dies : Tbl Ladder := []
  avs : Option Avs := none
  queue : List (Nat × Nat) := []
  ups : List Nat := []
  holdAt : Nat := 0
  bootFault : Bool := false
  deriving DecidableEq, Repr

/-- An armed entry of a die (R528 to R531): domain code and state, AUTOWAKE, its start and the delay to AP1 once the deputy waits, the HIC
sources set since that start with their harbour times, and whether AP4 has passed. -/
structure Entry where
  code : Nat
  st : Nat
  auto : Bool
  startAt : Option Nat := none
  ap1 : Nat := 0
  sets : List (Nat × Nat) := []
  committed : Bool := false
  deriving DecidableEq, Repr

/-- The keeper's sequences (R547 to R550) and PORST_N: core supplies off; powered up and waiting for PWRGD; supplies good with PORST_N low (R48); on;
shutting down. -/
inductive KPhase where
  | off
  | wait
  | reset
  | on
  | shut
  deriving DecidableEq, Repr

/-- The keeper's own state (R547 to R556): its phase, whether a thermal trip caused the shutdown, whether a wake or an alarm with its power
bit is held, the pending profile index, and whether VKEEP is present. -/
structure Keeper where
  phase : KPhase := .on
  trip : Bool := false
  held : Bool := false
  pending : Option Nat := none
  vkeep : Bool := true
  pwren : Nat := 15
  deriving DecidableEq, Repr

/-- The OTP security state of die 0 (R561): key hash slots with their revoke bits, minimum SVN by image type, device secret, factory
repairs (die, bank, row), lifecycle byte, and whether the secret can still be read. -/
structure Otp where
  hashes : List (List Byte) := List.replicate 4 (List.replicate 48 0)
  revoked : Nat := 0
  svn : List Nat := []
  secret : List Byte := List.replicate 48 0
  repairs : List (Nat × Nat × Nat) := []
  life : Nat := 0
  shut : Bool := false
  deriving DecidableEq, Repr

/-- A bank of a dock's control store (R577): its words of 80 bits, the MC_VER it was loaded with, and the self-test signatures of the image it was
loaded from (Table 16-9), none for a bank changed word by word since. -/
structure CBank where
  words : Tbl Nat := []
  ver : Nat := 0
  sigs : List Nat := []
  deriving DecidableEq, Repr

/-- A secured SPDM session (R574). -/
structure Session where
  id : Nat
  done : Bool := false
  deriving DecidableEq, Repr

/-- What happened in the present count of harbour time (R12, R398, R403, R593): by address, the register bits that hardware set in it, the rank of the last
requester that wrote a HIC register in it, and the bits of GP_OUT and GP_OE that writers of each rank wrote in it. -/
structure Cycle where
  sets : Tbl Word32 := []
  wrote : Tbl Nat := []
  bits : Tbl Nat := []
  deriving DecidableEq, Repr

/-- A pin whose function is being switched (R600, R601): the GP_CFG value from before the first write, the harbour times of edge 0 of the first write and of
the last, and whether edge 2 of the first has passed. -/
structure Switch where
  pin : Nat
  old : Nat
  first : Nat
  last : Nat
  kept : Bool := false
  deriving DecidableEq, Repr

/-- The state of the whole block. mem is the cellar as bytes in canonical form (assumption log 3); regs the harbour registers that
hold a stored value, by harbour byte address; pages and groups the page ledger and the share-group memberships; hold the moderation
of every HIC group; draws counts the free values drawn; follow and htT the follow-on marks of harbour timers and the release scheduled;
spareAt the harbour times at which slots passed their tests, engAt and voteAt those of engine faults and of voter rejoins,
latches the paired-register latches and index registers by requester (R26, R87), patrol the next line of every bank's patrol (R61),
repairing the row repairs in progress (R65), retire the pages to be retired once nothing holds them (R66), mctp the MCTP messages sent and their transports (R482), denied the LG_VLCOUNT and time of each die's last
EV_LEDGER_DENIAL, ptp the time-receiver quays (R440), pw, entries and keeper power and the keeper (file 15), otp, flash, profTable, keyStore, attKey the boot
material (file 16), scanned whether a JTAG scan has been entered (R522), fwVer the firmware version, dieImg and dockImg the microcode payloads last
loaded on a die and recorded for a dock (R579, R583), cstore the control store banks, newRepairs, repairs, repairCopy and repairSeq the repairs not yet
recorded, those recorded, and the copy and SEQ that hold them (R567, R568), sessions the SPDM sessions, chain the
certificate chain, wdogAt the start of the watchdog's count (R608), thermTrip THERMTRIP_N driven low (R546), toggles fan tachometer edges and idle
seconds (R588), hmHalt the harbourmaster halted (R515), wdogFired a watchdog restart after which READY
has not been set (R610), adcAt the ADC channel converted next (R590), eids the MCTP endpoint IDs by transport (R482), spdmSeq the SPDM messages answered, cyc what happened in the present count, corr the correction of harbour time still to be applied, in fifths of a ps (R36,
R440), ptpRun the Sync intervals in a row with the PTP offset within 100 ns, and memRows the spare rows used of a slot's or a pipe's memories
(R517), bootAt the harbour time at which the last boot or warm restart began (R49), outside the levels that the board gives pins the device does not
drive, and switches the pins whose function is being switched (R591, R600). -/
structure State where
  part : Part
  pending : List Instr
  htime : Nat
  draws : Nat
  bus : BusResp
  mem : List Host.Cell
  ecc : Tbl EccErr
  regs : Tbl Word32
  pages : Tbl Word32
  groups : Tbl Word32
  hold : Tbl Moder
  berths : Tbl Berth
  rowCe : Tbl Nat
  repairQ : List (Nat × Nat × Nat)
  slots : Tbl Nat
  eps : List Endpoint
  flying : List Flying
  faultLog : List FaultRec
  faultSeq : Nat
  pads : Nat
  sync : Nat
  domains : Tbl Nat
  prof : Profile
  slices : List Slice
  follow : List Nat := []
  htT : Option Nat := none
  pipes : Tbl DockPipe := []
  quays : Tbl Quay := []
  testLog : List TestRec := []
  spareAt : Tbl Nat := []
  engAt : Tbl Nat := []
  voteAt : Tbl Nat := []
  latches : Tbl Nat := []
  patrol : Tbl Nat := []
  repairing : List (Nat × Nat × Nat) := []
  retire : List (Nat × Nat) := []
  mctp : List (Nat × List Byte) := []
  denied : Tbl (Nat × Nat) := []
  ptp : List Nat := []
  pw : PowerSt := {}
  entries : Tbl Entry := []
  keeper : Keeper := {}
  otp : Otp := {}
  flash : List (Nat × List Byte) := []
  profTable : List (List Byte) := []
  keyStore : Option (List Byte × List Byte) := none
  attKey : Option (List Byte) := none
  scanned : Bool := false
  fwVer : Nat := 0
  dieImg : Tbl (List Byte) := []
  dockImg : Tbl (List Byte) := []
  cstore : Tbl CBank := []
  newRepairs : List (Nat × Nat × Nat × Nat × Nat) := []
  repairs : List (Nat × Nat × Nat × Nat × Nat) := []
  repairCopy : Nat := 0
  repairSeq : Nat := 0
  sessions : List Session := []
  chain : Option (List Byte) := none
  wdogAt : Nat := 0
  thermTrip : Bool := false
  toggles : Tbl Nat := []
  hmHalt : Bool := false
  wdogFired : Bool := false
  adcAt : Nat := 0
  eids : Tbl Nat := []
  spdmSeq : Nat := 0
  cyc : Cycle := {}
  corr : Int := 0
  ptpRun : Nat := 0
  memRows : Tbl Nat := []
  bootAt : Nat := 0
  outside : Tbl Bool := []
  switches : List Switch := []
  deriving DecidableEq, Repr

/-- The geometry of a stored profile (Table 13-14). -/
def storedGeo : Nat → Geometry
  | 1 => ⟨2200, 1920, 2008, 44, 1125, 1080, 1084, 5, 0x13CCCCCD⟩
  | 2 => ⟨4400, 3840, 4016, 88, 2250, 2160, 2168, 10, 0x4F333333⟩
  | _ => ⟨960, 768, 800, 64, 625, 576, 581, 5, 0x4000000⟩

/-- The stored profiles PRF0 to PRF2 (Table 13-14). -/
def storedProfile (n : Nat) : Profile where
  index := n
  cls := n
  berths := match n with | 1 => 8 | 2 => 2 | _ => 16
  sharepool := match n with | 2 => 1024 | _ => 2048
  cap := match n with | 1 => 111 | 2 => 476 | _ => 55
  watch := 16
  qspeed := 0
  dclkmin := match n with | 2 => 1 | _ => 2
  inject := false
  stagger := true
  budget := true
  sten := true
  k := 2
  budgetUs := 250
  vcore := match n with | 2 => [790, 750, 710] | _ => [780, 740, 700]
  vcellar := 850
  geo := storedGeo n
  period := 60000

/-- The block of a part at the release of cold reset (R13, R36, R69): no berth, every slot SPARE, every domain ON, the registers at their
reset values, the cellar listing nothing. -/
def State.cold (p : Part) : State where
  part := p
  pending := []
  htime := 0
  draws := 0
  bus := .idle
  mem := []
  ecc := []
  regs := []
  pages := []
  groups := []
  hold := []
  berths := []
  rowCe := []
  repairQ := []
  slots := []
  eps := [{ training := true }, { training := true }]
  flying := []
  faultLog := []
  faultSeq := 0
  pads := 0
  sync := 0
  domains := []
  prof := storedProfile 0
  slices := []

/-- The machine right after reset: the SX8 (assumption log 1) at the release of PORST_N. -/
def State.reset : State := State.cold .sx8

/-- Why the machine stops. -/
inductive Fault where
  /-- Raised by an outside event whose operand names a die, dock, slot, quay, pin or endpoint that the part does not have (R16, R18): the
  spec has no such unit, so no such event occurs. Safe: the machine stops. -/
  | noSuchUnit (what : String)
  deriving DecidableEq, Repr

/-- Why the machine refuses a command. -/
inductive Refusal where
  /-- Raised by Dispatch.lean for a command whose meaning has not been written. Safe: the machine stops. -/
  | notModelled (mnemonic : String)
  deriving DecidableEq, Repr

/-- What a command answers. -/
abbrev Answer := Host.Outcome State Fault Refusal

end Sys2Proof.Machine
end

