-- ==== Sys2Proof/Machine/Regs.lean ====
section
/-! DEFINITION. Harbour register addresses, reset values, and the named reads and updates of stored register fields (R9 to R14, R44 to R46). -/

namespace Sys2Proof.Machine

/-- The number of dies of the part (R18, HB_PARTID). -/
def Part.dies : Part → Nat
  | .sx2 => 2
  | .sx4 => 4
  | .sx8 => 8

/-- The number of logical berth IDs of the part (R28). -/
def Part.berthIds (p : Part) : Nat := p.dies * 256

/-- The number of PCIe endpoints (R17). -/
def Part.endpoints : Part → Nat
  | .sx8 => 2
  | _ => 1

/-- Harbour address of a register of die d (R44). -/
def dieAddr (d off : Nat) : Nat := d * 0x800000 + off

/-- Harbour address of a register of dock k of die d (Table 1-6). -/
def dockAddr (d k off : Nat) : Nat := d * 0x800000 + 0x100000 + k * 0x10000 + off

/-- Harbour address of a register of global quay q (R16, Table 1-6). -/
def quayAddr (q off : Nat) : Nat := (q / 18) * 0x800000 + 0x400000 + (q % 18) * 0x10000 + off

/-- Where a harbour address lies: a die block, a dock block, a slot block or a quay block, with the offset in it (Tables 1-6, 1-7). -/
inductive Loc where
  | die (d off : Nat)
  | dock (d k off : Nat)
  | slot (d k s off : Nat)
  | quay (q off : Nat)
  deriving DecidableEq, Repr

/-- The location of an address inside a block listed as present, none for every other address (R46). -/
def locate (p : Part) (a : Nat) : Option Loc :=
  let d := a / 0x800000
  let o := a % 0x800000
  if p.dies ≤ d then none
  else if o < 0x90000 then
    if (o / 0x10000 = 4 ∨ o / 0x10000 = 7) ∧ d ≠ 0 then none else some (.die d o)
  else if 0x100000 ≤ o ∧ o < 0x200000 then
    let k := (o - 0x100000) / 0x10000
    let e := o % 0x10000
    if e < 0x5000 then some (.dock d k e)
    else if 0x8000 ≤ e ∧ e < 0xC400 then some (.slot d k ((e - 0x8000) / 0x400) ((e - 0x8000) % 0x400))
    else none
  else if 0x400000 ≤ o ∧ o < 0x520000 then
    some (.quay (d * 18 + (o - 0x400000) / 0x10000) (o % 0x10000))
  else none

/-- The row that describes offset off of a block of the given kind. -/
def rowAt (b : Block) (d off : Nat) : Option RegRow :=
  regRows.find? (fun r =>
    (r.block = b ∨ (b = .die ∧ r.block = .die0 ∧ d = 0)) ∧ r.off ≤ off ∧ off < r.off + r.stride * r.count ∧
    (off - r.off) % r.stride = 0)

/-- The row of a location. -/
def Loc.row : Loc → Option RegRow
  | .die d off => rowAt .die d off
  | .dock d _ off => rowAt .dock d off
  | .slot d _ _ off => rowAt .slot d off
  | .quay q off => rowAt .quay (q / 18) off

/-- The reset value that a row's numbers give. -/
def RegRow.reset (r : RegRow) : Nat :=
  r.fields.foldl (fun v f => putBits v f.hi f.lo f.reset) 0

/-- Reset rights of register ledger entry k, bits [3:0] JW JR XW XR (Table 2-5). -/
def regLedReset (k : Nat) : Nat :=
  if k = 0 ∨ k = 3 ∨ (16 ≤ k ∧ k < 32) then 7
  else if k < 9 ∨ (32 ≤ k ∧ k < 50) then 5 else 0

/-- Reset value of FUNC of GPIO pin n: 1 for a pin whose default is its alternate function (Table 17-2). -/
def gpFuncReset (n : Nat) : Nat := if n < 16 ∧ n ≠ 7 then 1 else 0

/-- The value of a stored harbour register after cold reset (R13), where the tables' numbers give it or a rule names it. -/
def regDefault (p : Part) (a : Nat) : Nat :=
  let d := a / 0x800000
  let o := a % 0x800000
  if o = 0 then 0x0C51A100 + p.dies
  else if o = 4 then d + (if d = 0 then 24 else if d = 4 ∧ p = .sx8 then 16 else 0)
  else if o = 0x50010 then (if d = 0 then 0x707 else 0x7)
  else if 0x60100 ≤ o ∧ o < 0x601C8 then regLedReset ((o - 0x60100) / 4)
  else if d = 0 ∧ 0x40100 ≤ o ∧ o < 0x401C0 then 0x18 + gpFuncReset ((o - 0x40100) / 4)
  else if d = 0 ∧ ((0x8000 ≤ o ∧ o < 0x8400) ∨ (0x9000 ≤ o ∧ o < 0x9400)) then (if o % 16 = 12 then 1 else 0)
  else match locate p a with
    | some l => match l.row with
      | some r => r.reset
      | none => 0
    | none => 0

/-- The stored value of the harbour register at an address. -/
def State.reg (s : State) (a : Nat) : Nat := (tget s.regs a (w32 (regDefault s.part a))).toNat

/-- Set the stored value of a harbour register. -/
def State.setReg (s : State) (a v : Nat) : State :=
  { s with regs := tput s.regs a (w32 v) (w32 (regDefault s.part a)) }

/-- Return a harbour register to its reset value. -/
def State.resetReg (s : State) (a : Nat) : State := { s with regs := tdel s.regs a }

/-- Bits [hi:lo] of a stored register. -/
def State.fld (s : State) (a hi lo : Nat) : Nat := bitsOf (s.reg a) hi lo

/-- Bit n of a stored register. -/
def State.flag (s : State) (a n : Nat) : Bool := bitOf (s.reg a) n

/-- Replace bits [hi:lo] of a stored register. -/
def State.setFld (s : State) (a hi lo x : Nat) : State := s.setReg a (putBits (s.reg a) hi lo x)

/-- The bits of a register that hardware set in the present count of harbour time (R12). -/
def State.setNow (s : State) (a : Nat) : Nat := (tget s.cyc.sets a 0).toNat

/-- Note that hardware sets bits of a register in the present count: a software clear in the same count leaves them (R12). -/
def State.noteSet (s : State) (a m : Nat) : State :=
  { s with cyc := { s.cyc with sets := tput s.cyc.sets a (w32 (s.setNow a ||| m)) 0 } }

/-- Hardware sets or clears bit n of a stored register. -/
def State.setFlag (s : State) (a n : Nat) (x : Bool) : State :=
  let t := s.setFld a n n (b2n x)
  if x then t.noteSet a (2 ^ n) else t

/-- Hardware sets bits of a stored register. -/
def State.setBits (s : State) (a m : Nat) : State := (s.setReg a (s.reg a ||| m)).noteSet a m

/-- Add k to the counter in bits [hi:lo], modulo its width. -/
def State.addFld (s : State) (a hi lo k : Nat) : State := s.setFld a hi lo (s.fld a hi lo + k)

/-- Harbour time as hardware counts it, 64 bits (R36). -/
def State.now (s : State) : Nat := s.htime % 2 ^ 64

/-- Draw a value the spec leaves open (assumption log 9). -/
def State.draw (s : State) : Nat × State := (Config.freeNat s.draws, { s with draws := s.draws + 1 })

/-- A change of HB_CLKSTAT on every die, given as a change of the register at an address. -/
def State.eachClkstat (s : State) (f : State → Nat → State) : State :=
  (List.range s.part.dies).foldl (fun t d => f t (dieAddr d R.HB_CLKSTAT)) s

/-- Draw an open value that may be negative. -/
def State.drawInt (s : State) : Int × State :=
  let (n, t) := s.draw
  (if n % 2 = 0 then (n / 2 : Nat) else -((n / 2 + 1 : Nat) : Int), t)

/-- The die exists on the part. -/
def State.hasDie (s : State) (d : Nat) : Bool := decide (d < s.part.dies)

/-- The quay exists on the part (18 per die, R16). -/
def State.hasQuay (s : State) (q : Nat) : Bool := decide (q < s.part.dies * 18)

/-- Key of slot s of dock k of die d. -/
def slotKey (d k s : Nat) : Nat := (d * 16 + k) * 17 + s

/-- The slot address of Table 1-4. -/
def slotLoc (d k s : Nat) : Nat := d * 512 + k * 32 + s

/-- State of a slot, encoded as Table 1-3 (0 SPARE, 1 ACTIVE, 2 TEST, 3 RETIRED). -/
def State.slot (s : State) (d k n : Nat) : Nat := tget s.slots (slotKey d k n) 0

/-- Set the state of a slot. -/
def State.setSlot (s : State) (d k n v : Nat) : State := { s with slots := tput s.slots (slotKey d k n) v 0 }

/-- The slots of a dock in a given state, ascending. -/
def State.slotsIn (s : State) (d k v : Nat) : List Nat := (List.range 17).filter (fun n => s.slot d k n = v)

/-- The berth with a logical ID. -/
def State.berth (s : State) (b : Nat) : Option Berth := tfind s.berths b

/-- Store a berth under its logical ID. -/
def State.setBerth (s : State) (x : Berth) : State := { s with berths := tins s.berths x.id x }

/-- Change the berth with a logical ID, if it exists. -/
def State.modBerth (s : State) (b : Nat) (f : Berth → Berth) : State :=
  match s.berth b with
  | some x => s.setBerth (f x)
  | none => s

/-- The berth that slot n of dock k of die d holds. -/
def State.berthIn (s : State) (d k n : Nat) : Option Berth :=
  (s.berths.find? (fun e => e.2.die = d ∧ e.2.dock = k ∧ e.2.slot = n ∧ !e.2.parked)).map (·.2)

end Sys2Proof.Machine
end

