-- ==== Sys2Proof/Machine/Hic.lean ====
section
/-! DEFINITION. The harbour interrupt controller: pending bits, moderation and level conditions (R399 to R407). -/

namespace Sys2Proof.Machine

/-- The moderation of HIC group g of die d. -/
def State.moder (s : State) (d g : Nat) : Moder := tget s.hold (d * 32 + g) {}

/-- Store the moderation of a HIC group. -/
def State.setModer (s : State) (d g : Nat) (m : Moder) : State :=
  { s with hold := tput s.hold (d * 32 + g) m {} }

/-- The moderation rule of R406, shared by the HIC and the BI: pe is whether some source is pending and enabled, cnt and tim the
programmed limits, TIME in units of which each lasts u, delta the held events of this cycle, t its time; wr tells a cycle in which the limits
are written, which hold from the next one. A group that is released with no source pending and enabled stops being released in that cycle. -/
def moderStep (m : Moder) (pe : Bool) (cnt tim u delta t : Nat) (wr : Bool) : Moder :=
  if cnt = 0 ∧ tim = 0 then { released := true }
  else if m.released then (if pe then m else { released := false })
  else
    let n := min 255 (m.nheld + delta)
    let since := if delta = 0 then m.since else some (m.since.getD t)
    let full := decide (cnt ≠ 0 ∧ cnt ≤ n)
    let late := match since with
      | some b => decide (tim ≠ 0 ∧ tim * u ≤ t - b)
      | none => false
    if !wr && (full || late) then (if pe then { released := true, nheld := n, since := since } else { released := false })
    else { released := false, nheld := n, since := since }

/-- Some source of HIC group g of die d is pending and enabled. -/
def State.hicWants (s : State) (d g : Nat) : Bool :=
  (s.reg (dieAddr d (R.HIC_PEND + 4 * g)) &&& s.reg (dieAddr d (R.HIC_EN + 4 * g))) != 0

/-- Apply the moderation rule to HIC group g after delta held events in this cycle, wr one that writes its limits (R406). -/
def State.hicModer (s : State) (d g delta : Nat) (wr : Bool) : State :=
  let cfg := dieAddr d (R.HIC_GCFG + 4 * g)
  s.setModer d g (moderStep (s.moder d g) (s.hicWants d g) (s.fld cfg 15 8) (s.fld cfg 25 16) 1000 delta s.htime wr)

/-- Apply the moderation rule to HIC group g after delta held events in this cycle (R406). -/
def State.hicSettle (s : State) (d g delta : Nat) : State := s.hicModer d g delta false

/-- The moderation of every group that holds something, in a cycle without an event of it (R406). -/
def State.moderTime (s : State) : State :=
  s.hold.foldl (fun t e => t.hicSettle (e.1 / 32) (e.1 % 32) 0) s

/-- The wake detector of die d sees sources set while an entry is in progress (R528, R529). -/
def State.noteWake (s : State) (d : Nat) (srcs : List Nat) : State :=
  match tfind s.entries d with
  | some e => if e.startAt.isSome then { s with entries := tins s.entries d { e with sets := e.sets ++ srcs.map (fun n => (n, s.htime)) } } else s
  | none => s

/-- Hardware sets the pending bit of a source (R400): a bit that rises while enabled is a held event of its group (R406). -/
def State.hicSet (s : State) (d src : Nat) : State :=
  let g := src / 32
  let a := dieAddr d (R.HIC_PEND + 4 * g)
  let t := s.noteWake d [src]
  if s.flag a (src % 32) then t
  else (t.setFlag a (src % 32) true).hicSettle d g (b2n (s.flag (dieAddr d (R.HIC_EN + 4 * g)) (src % 32)))

/-- Tj of a die stands at or above TWARN (R542), the condition of HIC source 427. -/
def State.thermalLevel (s : State) (d : Nat) : Bool :=
  decide (s.fld R.PW_THPOL 7 0 ≤ s.fld (dieAddr d R.PW_TJ) 7 0)

/-- The switch of function that pin n is in (R600). -/
def State.switchOf (s : State) (n : Nat) : Option Switch := s.switches.find? (fun w => decide (w.pin = n))

/-- The GP_CFG value that acts on pin n: GP_CFGn, but before edge 2 of a switch the value from before it (Table 17-4). -/
def State.pinCfg (s : State) (n : Nat) : Nat :=
  match s.switchOf n with
  | some w => if w.kept then s.reg (R.GP_CFG + 4 * n) else w.old
  | none => s.reg (R.GP_CFG + 4 * n)

/-- Pin n is in analogue mode, its digital input disabled (R590). -/
def State.analogPin (s : State) (n : Nat) : Bool := bitsOf (s.pinCfg n) 1 0 == 2

/-- Bit n of GP_SYNCIN: the synchronised level of pin n, 0 in analogue mode (R590, R594). -/
def State.syncBit (s : State) (n : Nat) : Bool := bitOf s.sync n && !s.analogPin n

/-- A level mode of EVT holds pin n's event asserted: mode 4 with the synchronised level high, 5 with it low; none in analogue mode (R590, R595). -/
def State.pinHolds (s : State) (n : Nat) : Bool :=
  let m := bitsOf (s.pinCfg n) 11 9
  !s.analogPin n && ((m == 4 && bitOf s.sync n) || (m == 5 && !bitOf s.sync n))

/-- The condition of HIC source 448 + n: the level event of pin n while it is not lent (R595). -/
def State.pinLevel (s : State) (n : Nat) : Bool := !s.flag (R.LG_PIN + 4 * n) 11 && s.pinHolds n

/-- The live condition of a level source (Table 11-2); false for an edge source. -/
def State.hicLevel (s : State) (d src : Nat) : Bool :=
  if 336 ≤ src ∧ src < 352 then s.flag (dockAddr d (src - 336) R.DK_PIPE) 1
  else if 352 ≤ src ∧ src < 368 then s.reg (dockAddr d (src - 352) R.FY_ERR) != 0
  else if 368 ≤ src ∧ src < 384 then s.reg (dockAddr d (src - 368) R.LT_ERR) != 0
  else if 402 ≤ src ∧ src < 420 then
    let q := d * 18 + (src - 402)
    (s.reg (quayAddr q R.QY_EVENT) &&& s.reg (quayAddr q R.QY_EVEN)) != 0
  else if src = 422 then
    (List.range 64).any (fun n => s.fld (dieAddr d (R.ST_REPAIR + 4 * n)) 17 16 != 0)
  else if src = 424 then s.fld (dieAddr d R.HB_FABSTAT) 7 4 != 0
  else if src = 425 then s.flag (dieAddr d R.HB_CLKSTAT) 3
  else if src = 427 then s.thermalLevel d
  else if d = 0 ∧ src = 498 then s.fld R.KP_WAKESTAT 4 0 != 0
  else if d = 0 ∧ 448 ≤ src ∧ src < 496 then s.pinLevel (src - 448)
  else false

/-- Run an update that can change the condition of level source src, and set the source when the condition rises (R400). -/
def State.withLevel (s : State) (d src : Nat) (f : State → State) : State :=
  let t := f s
  if !s.hicLevel d src && t.hicLevel d src then t.hicSet d src else t

/-- EOI (R405): a level source whose condition is asserted becomes pending again. -/
def State.hicEoi (s : State) (d src : Nat) : State :=
  if s.hicLevel d src then s.hicSet d src else s

/-- A source is presentable (R404): pending, enabled, and its group released. -/
def State.presentable (s : State) (d src : Nat) : Bool :=
  s.flag (dieAddr d (R.HIC_PEND + 4 * (src / 32))) (src % 32) &&
  s.flag (dieAddr d (R.HIC_EN + 4 * (src / 32))) (src % 32) && (s.moder d (src / 32)).released

/-- The core that group g of die d targets: 0 the deputy, 1 the harbourmaster, on die 0 only (R404). -/
def State.hicTarget (s : State) (d g : Nat) : Nat := if d = 0 then s.fld (dieAddr d (R.HIC_GCFG + 4 * g)) 0 0 else 0

/-- The lowest presentable source whose group targets the given core (R404). -/
def State.hicTop (s : State) (d tgt : Nat) : Option Nat :=
  (List.range 1024).find? (fun src => s.presentable d src && decide (s.hicTarget d (src / 32) = tgt))

end Sys2Proof.Machine
end

