-- ==== Sys2Proof/Machine/Events.lean ====
section
/-! DEFINITION. Completions, events and fault records of the host interface (R453, R454, R461, R479). -/

namespace Sys2Proof.Machine

/-- Endpoint e. -/
def State.ep (s : State) (e : Nat) : Endpoint := s.eps.getD e {}

/-- Change endpoint e. -/
def State.modEp (s : State) (e : Nat) (f : Endpoint → Endpoint) : State :=
  { s with eps := s.eps.set e (f (s.ep e)) }

/-- Offset of the ring block of endpoint e (R449). -/
def ringBase (e : Nat) : Nat := 0x1000 + 0x800 * e

/-- The rings of endpoint e are enabled. -/
def State.epOn (s : State) (e : Nat) : Bool := decide (e < s.part.endpoints) && s.flag (ringBase e) 0

/-- Send MSI-X vector v of endpoint e now: a message, or its PBA bit while the vector is masked (R449, as PCIe gives). -/
def State.emitVec (s : State) (e v : Nat) : State :=
  if s.flag (0x8000 + 0x1000 * e + 16 * v + 12) 0 then s.setFlag (0x8400 + 0x1000 * e + 4 * (v / 32)) (v % 32) true
  else s.modEp e (fun x => { x with msix := x.msix ++ [v], vecAt := tins x.vecAt v s.htime })

/-- A vector of an endpoint may be sent: a microsecond has passed since its last message (R454). -/
def State.vecFree (s : State) (e v : Nat) : Bool := match tfind (s.ep e).vecAt v with
  | some t => decide (t + 1000 ≤ s.htime)
  | none => true

/-- Send MSI-X vector v of endpoint e, at most once per microsecond: one that comes sooner waits (R454). -/
def State.sendVec (s : State) (e v : Nat) : State :=
  if s.vecFree e v then s.emitVec e v
  else if (s.ep e).vecDue.contains v then s
  else s.modEp e (fun x => { x with vecDue := x.vecDue ++ [v] })

/-- The messages of endpoint e that waited for their microsecond are sent (R454). -/
def State.dueVecs (s : State) (e : Nat) : State :=
  let l := (s.ep e).vecDue.filter (fun v => s.vecFree e v)
  if l.isEmpty then s
  else l.foldl (fun (t : State) v => t.emitVec e v) (s.modEp e (fun x => { x with vecDue := x.vecDue.filter (fun v => !l.contains v) }))

/-- A completion entry as its 16 bytes (R453). -/
def Completion.bytes (c : Completion) : List Byte :=
  leBytes 2 c.cid ++ leBytes 1 c.status ++ leBytes 1 c.sq ++ leBytes 2 c.sqHead ++ leBytes 1 (b2n c.phase) ++ [0] ++ leBytes 8 c.result

/-- An event entry as its 32 bytes (R461). -/
def Event.bytes (v : Event) : List Byte :=
  let b := match v.berth with
    | some n => n % 2048 + 2 ^ 15
    | none => 0
  leBytes 1 v.code ++ leBytes 1 (b2n v.phase + 2 * b2n v.lost) ++ leBytes 2 v.eseq ++ leBytes 2 b ++ leBytes 1 v.die ++ [0] ++ leBytes 8 v.htime ++
    sliceD v.detail 0 16 0

/-- A base address in host memory, from its two registers. -/
def State.hostBase (s : State) (a : Nat) : Nat := s.reg a + s.reg (a + 4) * 2 ^ 32

/-- Write one event entry into the ring of endpoint e (R454, R461): its sequence number, phase and LOST are filled in. -/
def State.writeEvent (s : State) (e : Nat) (ev : Event) : State :=
  let cfg := ringBase e + 0x18
  let size := s.fld cfg 12 0
  let t := s.modEp e (fun x =>
    let nxt := (x.evIdx + 1) % size
    let v : Event := { ev with eseq := x.eseq % 65536, phase := x.evPhase, lost := x.lostNext }
    { x with
      events := x.events ++ [v]
      writes := x.writes ++ [(s.hostBase (ringBase e + 0x10) + 32 * x.evIdx, v.bytes)]
      eseq := (x.eseq + 1) % 65536
      lostNext := false
      evIdx := nxt
      evPhase := if nxt = 0 then !x.evPhase else x.evPhase })
  if s.flag cfg 31 then t.sendVec e (s.fld cfg 21 16) else t

/-- The event ring of endpoint e has room for an entry: the head doorbell has released it (R454). -/
def State.evRoom (s : State) (e : Nat) : Bool :=
  let x := s.ep e
  let size := s.fld (ringBase e + 0x18) 12 0
  size != 0 && decide ((x.evIdx + 1) % size ≠ x.evHead % size)

/-- Post an event to endpoint e: into its ring, held while the ring is full, lost and counted beyond 64 held (R461). -/
def State.postTo (s : State) (e : Nat) (ev : Event) : State :=
  if !s.epOn e then s
  else if s.evRoom e && (s.ep e).held.isEmpty then s.writeEvent e ev
  else if (s.ep e).held.length < 64 then s.modEp e (fun x => { x with held := x.held ++ [ev] })
  else (s.addFld (ringBase e + 4) 31 0 1).modEp e (fun x => { x with lostNext := true })

/-- Post an event that occurred at harbour time t to the event ring of every endpoint whose EN is 1 (R461). -/
def State.postAt (s : State) (t code : Nat) (berth : Option Nat) (die : Nat) (detail : List Byte) : State :=
  let ev : Event := { code := code, berth := berth, die := die, htime := t, detail := detail }
  (s.postTo 0 ev).postTo 1 ev

/-- Post an event of this moment (R461). -/
def State.post (s : State) (code : Nat) (berth : Option Nat) (die : Nat) (detail : List Byte) : State :=
  s.postAt s.now code berth die detail

/-- Move held events into the event ring of endpoint e while it has room, at most n of them. -/
def State.drainHeld (s : State) (e : Nat) : Nat → State
  | 0 => s
  | n + 1 =>
    match (s.ep e).held with
    | [] => s
    | ev :: r =>
      if s.evRoom e then ((s.modEp e (fun x => { x with held := r })).writeEvent e ev).drainHeld e n else s

/-- Append a record to the fault log, which keeps the last 1,024 (R479). -/
def State.logFault (s : State) (code die : Nat) (berth : Option Nat) (slot unit : Nat) (detail : List Nat) : State :=
  let r : FaultRec := ⟨s.faultSeq, code, die, berth, s.now, slot, unit, detail⟩
  let l := s.faultLog ++ [r]
  { s with faultLog := l.drop (l.length - 1024), faultSeq := (s.faultSeq + 1) % 2 ^ 32 }

/-- Completion ring n of endpoint e has room for an entry: the head doorbell has released it (R454). -/
def State.cqRoom (s : State) (e n : Nat) : Bool :=
  let size := s.fld (ringBase e + 0x118 + 0x20 * n) 12 0
  let r := (s.ep e).rings.getD n {}
  size != 0 && decide ((r.cqTail + 1) % size ≠ r.cqHead % size)

/-- Write a completion into completion ring n of endpoint e (R453, R454); RESULT is 0 when STATUS is not OK. -/
def State.writeCompletion (s : State) (e n cid status result : Nat) : State :=
  let cfg := ringBase e + 0x118 + 0x20 * n
  let size := s.fld cfg 12 0
  let t := s.modEp e (fun x =>
    let r := x.rings.getD n {}
    let nxt := if size = 0 then 0 else (r.cqTail + 1) % size
    let c : Completion := ⟨cid, status, n, r.head, r.phase, if status = 0 then result else 0⟩
    let r2 := { r with posted := r.posted ++ [c], cqTail := nxt, phase := if nxt = 0 then !r.phase else r.phase }
    { x with rings := x.rings.set n r2, writes := x.writes ++ [(s.hostBase (cfg - 8) + 16 * r.cqTail, c.bytes)] })
  if s.flag cfg 31 then t.sendVec e (s.fld cfg 21 16) else t

/-- Complete a command on ring n of endpoint e: at once while the completion ring has room, else once it has (R454). -/
def State.complete (s : State) (e n cid status result : Nat) : State :=
  if s.cqRoom e n && ((s.ep e).rings.getD n {}).waiting.isEmpty then s.writeCompletion e n cid status result
  else s.modEp e (fun x =>
    let r := x.rings.getD n {}
    { x with rings := x.rings.set n { r with waiting := r.waiting ++ [(cid, status, result)] } })

/-- Write the completions that wait on ring n of endpoint e while it has room, at most k of them. -/
def State.drainDone (s : State) (e n : Nat) : Nat → State
  | 0 => s
  | k + 1 =>
    match ((s.ep e).rings.getD n {}).waiting with
    | [] => s
    | c :: l =>
      if s.cqRoom e n then
        ((s.modEp e (fun x => { x with rings := x.rings.set n { x.rings.getD n {} with waiting := l } })).writeCompletion e n c.1 c.2.1 c.2.2).drainDone e n k
      else s

end Sys2Proof.Machine
end

