-- ==== Sys2Proof/Machine/Cellar.lean ====
section
/-! DEFINITION. The cellar: bytes, words, ECC words and their errors, the ECC log and the queue of row repairs (R52 to R66). -/

namespace Sys2Proof.Machine

/-- What a byte of the cellar that nothing has written reads as: 0 (assumption log 3). -/
def Memory.unlisted : Byte := 0

/-- Read one byte of the cellar at a package byte address (R42). -/
def Memory.byte (m : List Host.Cell) (a : Nat) : Byte := tget m a Memory.unlisted

/-- Write one byte of the cellar, keeping the canonical form. -/
def Memory.putByte (m : List Host.Cell) (a : Nat) (v : Byte) : List Host.Cell := tput m a v Memory.unlisted

/-- The canonical form of the cellar's cells: addresses strictly rising, no cell equal to what an unlisted one reads as. -/
def Memory.wf (m : List Host.Cell) : Bool := twf m Memory.unlisted

/-- The word at package word address w: the byte at the even offset is bits [7:0] (R42). -/
def Memory.word (m : List Host.Cell) (w : Nat) : Word :=
  w16 ((Memory.byte m (2 * w)).toNat + 256 * (Memory.byte m (2 * w + 1)).toNat)

/-- Write the word at package word address w. -/
def Memory.putWord (m : List Host.Cell) (w : Nat) (v : Word) : List Host.Cell :=
  Memory.putByte (Memory.putByte m (2 * w) (BitVec.ofNat 8 v.toNat)) (2 * w + 1) (BitVec.ofNat 8 (v.toNat / 256))

/-- The package word address of a die-local word address (R39). -/
def pkgWord (d wa : Nat) : Nat := d * 2 ^ 29 + wa % 2 ^ 29

/-- The word of the cellar at a package word address, as the cells hold it. -/
def State.word (s : State) (w : Nat) : Word := Memory.word s.mem w

/-- Write the word at a package word address into the cells. -/
def State.putWord (s : State) (w : Nat) (v : Word) : State := { s with mem := Memory.putWord s.mem w v }

/-- Bank 0 to 63 of a die-local word address (Table 2-1): eight banks to a group. -/
def bankOf (wa : Nat) : Nat := bitsOf wa 28 26 * 8 + bitsOf wa 7 5

/-- Row of a die-local word address (Table 2-1). -/
def rowOf (wa : Nat) : Nat := bitsOf wa 25 15

/-- The identity of an access (R75): master class and logical berth ID. -/
structure Master where
  cls : Nat
  id : Nat := 0
  deriving DecidableEq, Repr

/-- Write one record into the die's ECC log (R67) and count the error (R57, R58); HIC source 420 or 421 is set. -/
def State.logEcc (s : State) (d wa : Nat) (ue scrub : Bool) (bit cls master : Nat) : State :=
  let a := dieAddr d R.ST_ECCSEQ
  let i := s.reg a % 16
  let s1 := (s.setReg (dieAddr d (R.ST_ECCLOGA + 8 * i)) (wa / 4 * 4 + b2n ue * 2 ^ 29 + b2n scrub * 2 ^ 30)).setReg
    (dieAddr d (R.ST_ECCLOGB + 8 * i)) (bit + bankOf wa * 2 ^ 8 + cls * 2 ^ 14 + master * 2 ^ 18)
  let s2 := s1.addFld a 31 0 1
  let c := dieAddr d R.ST_ECCCNT
  if ue then ((s2.addFld c 31 16 1).hicSet d 420).logFault 10 d (if cls < 6 then some master else none) 0 0 [wa]
  else (s2.addFld c 15 0 1).hicSet d 421

/-- Key of a row of a bank of a die. -/
def rowKey (d bank row : Nat) : Nat := (d * 64 + bank) * 2048 + row

/-- One more row of a bank is repaired: USED counts, and EXHAUSTED is set when it reaches 32 (R66, ST_REPAIRn). -/
def State.countSpare (s : State) (d bank : Nat) : State :=
  let a := dieAddr d (R.ST_REPAIR + 4 * bank)
  let t := s.addFld a 5 0 1
  if 32 ≤ t.fld a 5 0 then t.withLevel d 422 (fun u => u.setFlag a 17 true) else t

/-- A spare row of a bank is in use: by a factory repair, or by one of a later source (R567). -/
def State.spareBusy (s : State) (d bank n : Nat) : Bool :=
  decide (n < s.fld (dieAddr d (R.ST_REPAIR + 4 * bank)) 13 8) ||
    (s.repairs ++ s.newRepairs).any (fun e => decide (e.1 = d ∧ e.2.1 = bank ∧ e.2.2.2.1 = n))

/-- The lowest spare row of a bank not in use. -/
def State.freeSpare (s : State) (d bank : Nat) : Nat := ((List.range 32).find? (fun n => !s.spareBusy d bank n)).getD 31

/-- Queue a row for repair (R64); when the bank has no spare row left EXHAUSTED is set, and the row's page is to be retired (R66). -/
def State.queueRepair (s : State) (d bank row : Nat) : State :=
  let a := dieAddr d (R.ST_REPAIR + 4 * bank)
  let page := bank / 8 * 2048 + row
  if 32 ≤ s.fld a 5 0 then
    let t := s.withLevel d 422 (fun t => t.setFlag a 17 true)
    if t.retire.contains (d, page) then t else { t with retire := t.retire ++ [(d, page)] }
  else if s.repairQ.contains (d, bank, row) || s.repairing.contains (d, bank, row) then s
  else
    let t := { s with repairQ := s.repairQ ++ [(d, bank, row)] }
    t.withLevel d 422 (fun t => t.setFlag a 16 true)

/-- Count a correctable error of a row within the patrol pass, and queue the row at THRESH (R64). -/
def State.countRowCe (s : State) (d wa : Nat) : State :=
  let k := rowKey d (bankOf wa) (rowOf wa)
  let n := tget s.rowCe k 0 + 1
  let s1 := { s with rowCe := tput s.rowCe k n 0 }
  let th := s.fld (dieAddr d R.ST_ECCCFG) 15 12
  if th ≠ 0 ∧ th ≤ n then s1.queueRepair d (bankOf wa) (rowOf wa) else s1

/-- The flips of one word of an ECC word, as a mask. -/
def flipMask (bits : List Nat) (i : Nat) : Word :=
  w16 (bits.foldl (fun m b => if b / 16 = i then m ^^^ 2 ^ (b % 16) else m) 0)

/-- What the ECC check of one read of an ECC word answers: the bits flipped in the returned data, or poison. -/
inductive EccRead where
  | flips (bits : List Nat)
  | poison
  deriving DecidableEq, Repr

/-- Flip bits of the four words of the ECC word at die-local word address wa, in the cells. -/
def State.flipWords (s : State) (d wa : Nat) (bits : List Nat) : State :=
  (List.range 4).foldl (fun t i =>
    let p := pkgWord d (wa / 4 * 4 + i)
    t.putWord p (t.word p ^^^ flipMask bits i)) s

/-- Check one ECC word on a read (R56 to R58): a single-bit error is corrected, written back, counted and logged; an uncorrectable one
poisons the data and stays; three and more flipped bits take one of the three outcomes of R56, drawn as an open value
(assumption log 9). -/
def State.eccRead (s : State) (d wa : Nat) (scrub : Bool) (cls master : Nat) : EccRead × State :=
  let k := pkgWord d wa / 4
  match tfind s.ecc k with
  | none => (.flips [], s)
  | some .poison => (.poison, s.logEcc d wa true scrub 127 cls master)
  | some .double => (.poison, s.logEcc d wa true scrub 127 cls master)
  | some (.single bit) =>
    (.flips [], (({ s with ecc := tdel s.ecc k }).logEcc d wa false scrub bit cls master).countRowCe d wa)
  | some .multi =>
    let (v, s1) := s.draw
    if v % 3 = 0 then (.poison, s1.logEcc d wa true scrub 127 cls master)
    else
      let (f, s2) := s1.draw
      let bits := (List.range 64).filter (fun n => bitOf f n)
      if v % 3 = 1 then
        let s3 := { s2.flipWords d wa bits with ecc := tdel s2.ecc k }
        (.flips [], (s3.logEcc d wa false scrub (v / 3 % 72) cls master).countRowCe d wa)
      else (.flips bits, s2)

/-- The result of a checked word read. -/
inductive WordRead where
  | ok (v : Word)
  | poison
  deriving DecidableEq, Repr

/-- Read one word of a die's bank through its ECC logic (R57, R58). -/
def State.bankRead (s : State) (d wa : Nat) (m : Master) : WordRead × State :=
  match s.eccRead d wa false m.cls (if m.cls < 6 then m.id else 0) with
  | (.poison, t) => (.poison, t)
  | (.flips bits, t) => (.ok (t.word (pkgWord d wa) ^^^ flipMask bits (wa % 4)), t)

/-- The merge read of a write of fewer than four words of an ECC word (R59): an uncorrectable error leaves the poison syndrome, and
flips that the check does not see stay in the words, under check bits computed anew. -/
def State.mergeRead (s : State) (d wa : Nat) (m : Master) : State :=
  let k := pkgWord d wa / 4
  match s.eccRead d wa false m.cls (if m.cls < 6 then m.id else 0) with
  | (.poison, t) => { t with ecc := tput t.ecc k .poison (.single 72) }
  | (.flips bits, t) => { t.flipWords d wa bits with ecc := tdel t.ecc k }

/-- Write one word of a die's bank, merged into its ECC word (R59). -/
def State.bankWrite (s : State) (d wa : Nat) (v : Word) (m : Master) : State :=
  (s.mergeRead d wa m).putWord (pkgWord d wa) v

/-- Write whole ECC words, starting on an ECC word: every one is replaced and its poison cleared (R59). -/
def State.bankWrite4 (s : State) (d wa : Nat) (v : List Word) : State :=
  let t := { s with ecc := tdel s.ecc (pkgWord d wa / 4) }
  (List.range 4).foldl (fun t i => t.putWord (pkgWord d (wa + i)) (v.getD i 0)) t

/-- Write a run of words from wa, whole ECC words at once where the run covers them (R59). -/
def State.bankWriteRun (s : State) (d wa : Nat) (v : List Word) (m : Master) : State :=
  (List.range v.length).foldl (fun t i =>
    let a := wa + i
    let first := a / 4 * 4
    let t1 := if wa ≤ first ∧ first + 4 ≤ wa + v.length then { t with ecc := tdel t.ecc (pkgWord d a / 4) }
      else if i = 0 ∨ a % 4 = 0 then t.mergeRead d a m else t
    t1.putWord (pkgWord d a) (v.getD i 0)) s

end Sys2Proof.Machine
end

