-- ==== Sys2Proof/Machine/Ledger.lean ====
section
/-! DEFINITION. The page ledger, the register ledger, share groups and the violation log (R68 to R87, R617). -/

namespace Sys2Proof.Machine

/-- Ledger entry of a page after cold reset: HR and HW 1; pages 0 to 127 are HARBOUR with XR 1 (R69, LG_PGENT). -/
def pageDefault (p : Nat) : Nat := if p < 128 then 0x37000000 else 0x3000000

/-- Ledger entry of page p of die d, as LG_PGENT lays it out. -/
def State.page (s : State) (d p : Nat) : Nat := (tget s.pages (d * 16384 + p) (w32 (pageDefault p))).toNat

/-- Write the ledger entry of a page. BW and XW are held at 0 in SHARED (R73), bit 31 is reserved. -/
def State.setPage (s : State) (d p v : Nat) : State :=
  let v1 := v % 2 ^ 31
  let v2 := if bitsOf v1 30 28 = 2 then putBits (putBits v1 22 22 0) 27 27 0 else v1
  { s with pages := tput s.pages (d * 16384 + p) (w32 v2) (w32 (pageDefault p)) }

/-- Build a ledger entry from its fields. -/
def pageEntry (owner sgroup : Nat) (br bw bx hr hw xr xw : Bool) (state : Nat) : Nat :=
  owner + sgroup * 2 ^ 11 + b2n br * 2 ^ 21 + b2n bw * 2 ^ 22 + b2n bx * 2 ^ 23 + b2n hr * 2 ^ 24 + b2n hw * 2 ^ 25 +
  b2n xr * 2 ^ 26 + b2n xw * 2 ^ 27 + state * 2 ^ 28

/-- STATE of a ledger entry; 6 and 7 are treated as RETIRED. -/
def pageState (v : Nat) : Nat := min 5 (bitsOf v 30 28)

/-- The share groups of a berth on a die (R72, LG_BSGENT). -/
def State.groupsOf (s : State) (d b : Nat) : List Nat :=
  let v := (tget s.groups (d * 2048 + b) 0).toNat
  [bitsOf v 9 0, bitsOf v 19 10, bitsOf v 29 20]

/-- The kinds of access the ledger tells apart (R78). -/
inductive Kind where
  | read
  | write
  | exec
  deriving DecidableEq, Repr

/-- KIND of a violation record. -/
def Kind.code : Kind → Nat
  | .read => 0
  | .write => 1
  | .exec => 2

/-- STATE grants the class nothing for any ID (R617, Table 2-4). -/
def stateBars (st cls : Nat) : Bool :=
  if cls ≤ 2 then decide (st = 0 ∨ st = 3 ∨ st = 5)
  else if cls = 3 then decide (st = 0 ∨ st = 3 ∨ st = 5)
  else if cls = 4 then decide (st ≠ 4)
  else if cls = 5 then decide (st ≠ 1)
  else if cls ≤ 8 then decide (st = 5)
  else decide (st = 0 ∨ st = 5)

/-- The rights Table 2-4 gives a master for a kind of access, from the entry and the berth's share groups. -/
def pageGrants (v : Nat) (groups : List Nat) (m : Master) (k : Kind) : Bool :=
  let st := pageState v
  let own := decide (bitsOf v 10 0 = m.id)
  let sg := bitsOf v 20 11
  let memb := decide (sg ≠ 0) && groups.contains sg
  let br := bitOf v 21
  let bw := bitOf v 22
  let bx := bitOf v 23
  if m.cls ≤ 2 then
    match st, k with
    | 1, .read => own && br
    | 1, .write => own && bw
    | 1, .exec => own && bx
    | 2, .read => memb && br
    | 2, .exec => memb && bx
    | 4, .read => own && br
    | _, _ => false
  else if m.cls = 3 then
    match st, k with
    | 1, .read => own
    | 2, .read => memb
    | 4, .read => own
    | 4, .write => own
    | _, _ => false
  else if m.cls = 4 then decide (st = 4) && own && decide (k = .read)
  else if m.cls = 5 then decide (st = 1) && own && bw && decide (k = .write)
  else if m.cls ≤ 8 then
    decide (st ≠ 5) && (match k with | .read => bitOf v 24 | .write => bitOf v 25 | .exec => false)
  else if m.cls ≤ 11 then
    decide (st ≠ 0 ∧ st ≠ 5) &&
      (match k with | .read => bitOf v 26 | .write => decide (st ≠ 2) && bitOf v 27 | .exec => false)
  else false

/-- Key of a power domain of a die by its domain code (R477). -/
def domKey (d code : Nat) : Nat := d * 32 + code

/-- State of a power domain: 0 ON, 1 RET, 2 OFF (Table 15-2); every domain is ON after cold reset. -/
def State.domain (s : State) (d code : Nat) : Nat := tget s.domains (domKey d code) 0

/-- The cellar group of a die-local word address is ON (R526). -/
def State.bankOn (s : State) (d wa : Nat) : Bool := decide (s.domain d (0x10 + bitsOf wa 28 26) = 0)

/-- The ledger's answer to an access by a master on die md to word wa of die d: none when allowed, else TARGET and REASON (R78, R617). -/
def State.ledgerCheck (s : State) (md d wa : Nat) (m : Master) (k : Kind) : Option (Nat × Nat) :=
  if !s.hasDie d then some (0, 5)
  else if !s.bankOn d wa then some (4, 4)
  else if m.cls ≤ 5 ∧ md ≠ d then some (0, 2)
  else
    let v := s.page d (bitsOf wa 28 15)
    let gs := s.groupsOf d m.id
    if pageGrants v gs m k then none
    else if stateBars (pageState v) m.cls then some (0, 1)
    else if pageState v = 2 ∧ m.cls ≤ 3 ∧ (bitsOf v 20 11 = 0 ∨ !(gs.contains (bitsOf v 20 11))) then some (0, 3)
    else some (0, 0)

/-- Write one record into the violation log of a die, and set HIC source 423 (R86, LG_VIOLOG). -/
def State.logViol (s : State) (d : Nat) (m : Master) (k : Kind) (target reason addr : Nat) : State :=
  let c := dieAddr d R.LG_VLCOUNT
  let a := dieAddr d (0x60800 + 16 * (s.reg c % 64))
  let w0 := m.cls + k.code * 2 ^ 4 + target * 2 ^ 6 + reason * 2 ^ 9 + (if m.cls ≤ 6 then m.id else 0) * 2 ^ 16
  (((((s.setReg a w0).setReg (a + 4) addr).setReg (a + 8) (s.now % 2 ^ 32)).setReg (a + 12) (s.now / 2 ^ 32)).addFld c 31 0 1).hicSet d 423

/-- The answer to a checked cellar access. -/
inductive Access where
  | ok (v : Word)
  | denied
  | poison
  deriving DecidableEq, Repr

/-- A checked read of one word: denials are logged on the target's die (R85), a passing read goes through the bank's ECC logic. -/
def State.cellRead (s : State) (md d wa : Nat) (m : Master) (k : Kind := .read) : Access × State :=
  match s.ledgerCheck md d wa m k with
  | some (t, r) => (.denied, s.logViol (if s.hasDie d then d else md) m k t r (pkgWord d wa))
  | none => match s.bankRead d wa m with
    | (.ok v, t) => (.ok v, t)
    | (.poison, t) => (.poison, t)

/-- A checked write of one word: false where the ledger denied it. -/
def State.cellWrite (s : State) (md d wa : Nat) (v : Word) (m : Master) : Bool × State :=
  match s.ledgerCheck md d wa m .write with
  | some (t, r) => (false, s.logViol (if s.hasDie d then d else md) m .write t r (pkgWord d wa))
  | none => (true, s.bankWrite d wa v m)

end Sys2Proof.Machine
end

