-- ==== Sys2Proof/Machine/PortMap.lean ====
section
/-! DEFINITION. The berth I/O ports as the spec's port tables give them (R141, Table 4-3): port number, repetition, fields with access
code and the value at BERTH_START. Every SH_ port 0x400 + n has the fields of the LV_ port n (R209). -/

namespace Sys2Proof.Machine

/-- A port, or count ports at the given stride. -/
structure PortRow where
  name : String
  port : Nat
  stride : Nat
  count : Nat
  fields : List RField
  deriving DecidableEq, Repr

/-- Port tables, part 0. -/
def portRows0 : List PortRow := [
  ⟨"LV_T0CTL", 0x0, 0x20, 1, [⟨0, 0, .st, 0⟩, ⟨2, 1, .st, 0⟩, ⟨3, 3, .st, 0⟩, ⟨5, 4, .st, 0⟩, ⟨7, 6, .st, 0⟩, ⟨8, 8, .st, 0⟩, ⟨9, 9, .st, 0⟩, ⟨10, 10, .st, 0⟩, ⟨11, 11, .st, 0⟩]⟩,
  ⟨"LV_TnCTL", 0x20, 0x20, 3, [⟨0, 0, .st, 0⟩, ⟨2, 1, .st, 0⟩, ⟨3, 3, .st, 0⟩, ⟨5, 4, .st, 0⟩, ⟨7, 6, .st, 0⟩, ⟨8, 8, .st, 0⟩, ⟨9, 9, .st, 0⟩, ⟨10, 10, .st, 0⟩]⟩,
  ⟨"LV_TSEG", 0x1, 0x20, 4, [⟨3, 0, .st, 0⟩, ⟨7, 4, .st, 0⟩]⟩,
  ⟨"LV_TTBASE", 0x2, 0x20, 4, [⟨15, 0, .st, 0⟩]⟩,
  ⟨"LV_TMBASE", 0x3, 0x20, 4, [⟨15, 0, .st, 0⟩]⟩,
  ⟨"LV_TPAL", 0x4, 0x20, 4, [⟨7, 0, .st, 0⟩]⟩,
  ⟨"LV_TSCX", 0x5, 0x20, 4, [⟨15, 0, .st, 0⟩]⟩,
  ⟨"LV_TSCY", 0x6, 0x20, 4, [⟨15, 0, .st, 0⟩]⟩,
  ⟨"LV_TCSBASE", 0x7, 0x20, 4, [⟨15, 0, .st, 0⟩]⟩,
  ⟨"LV_AF", 0x80, 0x1, 8, [⟨15, 0, .st, 0⟩]⟩,
  ⟨"LV_AFHC", 0x88, 0x1, 1, [⟨12, 0, .st, 0⟩]⟩,
  ⟨"LV_AFVC", 0x89, 0x1, 1, [⟨11, 0, .st, 0⟩]⟩,
  ⟨"LV_BPCTL", 0xa0, 0x1, 1, [⟨0, 0, .st, 0⟩, ⟨2, 1, .st, 0⟩, ⟨3, 3, .st, 0⟩, ⟨4, 4, .st, 0⟩, ⟨6, 5, .st, 0⟩]⟩,
  ⟨"LV_BPSEG", 0xa1, 0x1, 1, [⟨3, 0, .st, 0⟩]⟩,
  ⟨"LV_BPBASE", 0xa2, 0x1, 1, [⟨15, 0, .st, 0⟩]⟩,
  ⟨"LV_BPSTRIDE", 0xa3, 0x1, 1, [⟨15, 0, .st, 0⟩]⟩,
  ⟨"LV_BPW", 0xa4, 0x1, 1, [⟨11, 0, .st, 0⟩]⟩,
  ⟨"LV_BPH", 0xa5, 0x1, 1, [⟨11, 0, .st, 0⟩]⟩,
  ⟨"LV_BPSCX", 0xa6, 0x1, 1, [⟨15, 0, .st, 0⟩]⟩,
  ⟨"LV_BPSCY", 0xa7, 0x1, 1, [⟨15, 0, .st, 0⟩]⟩,
  ⟨"LV_BPPAL", 0xa8, 0x1, 1, [⟨7, 0, .st, 0⟩]⟩,
  ⟨"LV_BPKEY", 0xa9, 0x1, 1, [⟨15, 0, .st, 0⟩]⟩,
  ⟨"LV_PALSEG", 0xb0, 0x1, 1, [⟨3, 0, .st, 0⟩]⟩,
  ⟨"LV_PALBASE", 0xb1, 0x1, 1, [⟨15, 0, .st, 0⟩]⟩,
  ⟨"LV_BKLO", 0xb2, 0x1, 1, [⟨15, 0, .st, 0⟩]⟩]

/-- Port tables, part 1. -/
def portRows1 : List PortRow := [
  ⟨"LV_BKHI", 0xb3, 0x1, 1, [⟨13, 0, .st, 0⟩]⟩,
  ⟨"LV_COVIDX", 0xc0, 0x3, 16, [⟨11, 0, .st, 0⟩, ⟨15, 15, .st, 0⟩]⟩,
  ⟨"LV_COVLO", 0xc1, 0x3, 16, [⟨15, 0, .st, 0⟩]⟩,
  ⟨"LV_COVHI", 0xc2, 0x3, 16, [⟨15, 0, .st, 0⟩]⟩,
  ⟨"LV_SPCTL", 0x100, 0x1, 1, [⟨0, 0, .st, 0⟩, ⟨15, 8, .st, 0⟩]⟩,
  ⟨"LV_SPSEG", 0x101, 0x1, 1, [⟨3, 0, .st, 0⟩, ⟨7, 4, .st, 0⟩]⟩,
  ⟨"LV_SPABASE", 0x102, 0x1, 1, [⟨15, 0, .st, 0⟩]⟩,
  ⟨"LV_SPTBASE", 0x103, 0x1, 1, [⟨15, 0, .st, 0⟩]⟩,
  ⟨"LV_SPPAL", 0x104, 0x1, 1, [⟨7, 0, .st, 0⟩]⟩,
  ⟨"LV_PRIO", 0x110, 0x1, 1, [⟨9, 0, .st, 0⟩]⟩,
  ⟨"LV_WINCTL", 0x120, 0x1, 1, [⟨2, 0, .st, 0⟩]⟩,
  ⟨"LV_W0L", 0x121, 0x1, 1, [⟨12, 0, .st, 0⟩]⟩,
  ⟨"LV_W0R", 0x122, 0x1, 1, [⟨12, 0, .st, 0⟩]⟩,
  ⟨"LV_W0T", 0x123, 0x1, 1, [⟨11, 0, .st, 0⟩]⟩,
  ⟨"LV_W0B", 0x124, 0x1, 1, [⟨11, 0, .st, 0⟩]⟩,
  ⟨"LV_W1L", 0x125, 0x1, 1, [⟨12, 0, .st, 0⟩]⟩,
  ⟨"LV_W1R", 0x126, 0x1, 1, [⟨12, 0, .st, 0⟩]⟩,
  ⟨"LV_W1T", 0x127, 0x1, 1, [⟨11, 0, .st, 0⟩]⟩,
  ⟨"LV_W1B", 0x128, 0x1, 1, [⟨11, 0, .st, 0⟩]⟩,
  ⟨"LV_WINM", 0x129, 0x1, 4, [⟨6, 0, .st, 127⟩, ⟨14, 8, .st, 127⟩]⟩,
  ⟨"LV_BLDCTL", 0x130, 0x1, 1, [⟨2, 0, .st, 0⟩, ⟨9, 4, .st, 0⟩]⟩,
  ⟨"LV_BLDBOT", 0x131, 0x1, 1, [⟨6, 0, .st, 0⟩]⟩,
  ⟨"LV_BLDCOEF", 0x132, 0x1, 1, [⟨4, 0, .st, 0⟩, ⟨12, 8, .st, 0⟩, ⟨15, 15, .st, 0⟩]⟩,
  ⟨"AU_VCTL", 0x800, 0x4, 32, [⟨0, 0, .w1s, 0⟩, ⟨1, 1, .w1s, 0⟩, ⟨2, 2, .rw, 0⟩, ⟨4, 3, .rw, 0⟩, ⟨5, 5, .rw, 0⟩, ⟨15, 8, .rw, 0⟩]⟩]

/-- Port tables, part 2. -/
def portRows2 : List PortRow := [
  ⟨"AU_VPAN", 0x801, 0x4, 32, [⟨7, 0, .rw, 128⟩, ⟨15, 8, .rw, 128⟩]⟩,
  ⟨"AU_VSVFF", 0x802, 0x4, 32, [⟨15, 0, .rw, 0⟩]⟩,
  ⟨"AU_VSVFQ", 0x803, 0x4, 32, [⟨15, 0, .rw, 16384⟩]⟩,
  ⟨"AU_VSTAT", 0x880, 0x1, 32, [⟨2, 0, .ro, 0⟩, ⟨3, 3, .ro, 0⟩, ⟨4, 4, .ro, 0⟩, ⟨5, 5, .w1c, 0⟩, ⟨6, 6, .w1c, 0⟩, ⟨7, 7, .w1c, 0⟩]⟩,
  ⟨"AU_SCTL", 0x8a0, 0x8, 16, [⟨1, 0, .rw, 1⟩, ⟨2, 2, .rw, 0⟩, ⟨7, 4, .rw, 0⟩, ⟨11, 8, .rw, 6⟩]⟩,
  ⟨"AU_SBASE", 0x8a1, 0x8, 16, [⟨15, 0, .rw, 0⟩]⟩,
  ⟨"AU_SWP", 0x8a2, 0x8, 16, [⟨15, 0, .rw, 0⟩]⟩,
  ⟨"AU_SRP", 0x8a3, 0x8, 16, [⟨15, 0, .ro, 0⟩]⟩,
  ⟨"AU_SPITCH", 0x8a4, 0x8, 16, [⟨15, 0, .rw, 4096⟩]⟩,
  ⟨"AU_SADP", 0x8a5, 0x8, 16, [⟨6, 0, .rw, 0⟩]⟩,
  ⟨"AU_SENVA", 0x8a6, 0x8, 16, [⟨15, 0, .rw, 65535⟩]⟩,
  ⟨"AU_SENVB", 0x8a7, 0x8, 16, [⟨15, 0, .rw, 65535⟩]⟩,
  ⟨"AU_QCTL", 0x920, 0x4, 8, [⟨1, 0, .rw, 0⟩, ⟨5, 2, .rw, 8⟩]⟩,
  ⟨"AU_QFREQ", 0x921, 0x4, 8, [⟨15, 0, .rw, 0⟩]⟩,
  ⟨"AU_QENVA", 0x922, 0x4, 8, [⟨15, 0, .rw, 65535⟩]⟩,
  ⟨"AU_QENVB", 0x923, 0x4, 8, [⟨15, 0, .rw, 65535⟩]⟩,
  ⟨"AU_FCTL", 0x940, 0x10, 8, [⟨2, 0, .rw, 0⟩, ⟨6, 4, .rw, 0⟩]⟩,
  ⟨"AU_FFREQLO", 0x941, 0x10, 8, [⟨15, 0, .rw, 0⟩]⟩,
  ⟨"AU_FFREQHI", 0x942, 0x10, 8, [⟨3, 0, .rw, 0⟩]⟩,
  ⟨"AU_FOP0", 0x944, 0x10, 8, [⟨3, 0, .rw, 1⟩, ⟨15, 8, .rw, 0⟩]⟩,
  ⟨"AU_FENVA0", 0x945, 0x10, 8, [⟨15, 0, .rw, 65535⟩]⟩,
  ⟨"AU_FENVB0", 0x946, 0x10, 8, [⟨15, 0, .rw, 65535⟩]⟩,
  ⟨"AU_FOP1", 0x947, 0x10, 8, [⟨3, 0, .rw, 1⟩, ⟨15, 8, .rw, 0⟩]⟩,
  ⟨"AU_FENVA1", 0x948, 0x10, 8, [⟨15, 0, .rw, 65535⟩]⟩]

/-- Port tables, part 3. -/
def portRows3 : List PortRow := [
  ⟨"AU_FENVB1", 0x949, 0x10, 8, [⟨15, 0, .rw, 65535⟩]⟩,
  ⟨"AU_FOP2", 0x94a, 0x10, 8, [⟨3, 0, .rw, 1⟩, ⟨15, 8, .rw, 0⟩]⟩,
  ⟨"AU_FENVA2", 0x94b, 0x10, 8, [⟨15, 0, .rw, 65535⟩]⟩,
  ⟨"AU_FENVB2", 0x94c, 0x10, 8, [⟨15, 0, .rw, 65535⟩]⟩,
  ⟨"AU_FOP3", 0x94d, 0x10, 8, [⟨3, 0, .rw, 1⟩, ⟨15, 8, .rw, 0⟩]⟩,
  ⟨"AU_FENVA3", 0x94e, 0x10, 8, [⟨15, 0, .rw, 65535⟩]⟩,
  ⟨"AU_FENVB3", 0x94f, 0x10, 8, [⟨15, 0, .rw, 65535⟩]⟩,
  ⟨"AU_CTL", 0x9c0, 0x1, 1, [⟨0, 0, .rw, 0⟩, ⟨1, 1, .rw, 1⟩, ⟨2, 2, .rw, 1⟩, ⟨3, 3, .rw, 1⟩, ⟨7, 4, .rw, 0⟩]⟩,
  ⟨"AU_SCOUNTLO", 0x9c1, 0x1, 1, [⟨15, 0, .ro, 0⟩]⟩,
  ⟨"AU_SCOUNTHI", 0x9c2, 0x1, 1, [⟨15, 0, .ro, 0⟩]⟩,
  ⟨"AU_MASTER", 0x9c3, 0x1, 1, [⟨15, 0, .rw, 32768⟩]⟩,
  ⟨"AU_FXSEG", 0x9c4, 0x1, 1, [⟨3, 0, .rw, 0⟩]⟩,
  ⟨"AU_FXBASE", 0x9c5, 0x1, 1, [⟨15, 0, .rw, 0⟩]⟩,
  ⟨"AU_REVDAMP", 0x9c6, 0x1, 1, [⟨15, 0, .rw, 16384⟩]⟩,
  ⟨"AU_REVFB", 0x9c7, 0x1, 1, [⟨15, 0, .rw, 24576⟩]⟩,
  ⟨"AU_REVD0", 0x9c8, 0x1, 1, [⟨11, 0, .rw, 1116⟩]⟩,
  ⟨"AU_REVD1", 0x9c9, 0x1, 1, [⟨11, 0, .rw, 1188⟩]⟩,
  ⟨"AU_REVD2", 0x9ca, 0x1, 1, [⟨11, 0, .rw, 1277⟩]⟩,
  ⟨"AU_REVD3", 0x9cb, 0x1, 1, [⟨11, 0, .rw, 1356⟩]⟩,
  ⟨"AU_REVWET", 0x9cc, 0x1, 1, [⟨15, 0, .rw, 0⟩]⟩,
  ⟨"AU_DLYD", 0x9cd, 0x1, 1, [⟨13, 0, .rw, 1⟩]⟩,
  ⟨"AU_DLYFB", 0x9ce, 0x1, 1, [⟨15, 0, .rw, 0⟩]⟩,
  ⟨"AU_DLYWET", 0x9cf, 0x1, 1, [⟨15, 0, .rw, 0⟩]⟩,
  ⟨"AU_EQB0", 0x9d0, 0x5, 4, [⟨15, 0, .rw, 16384⟩]⟩]

/-- Port tables, part 4. -/
def portRows4 : List PortRow := [
  ⟨"AU_EQB1", 0x9d1, 0x5, 4, [⟨15, 0, .rw, 0⟩]⟩,
  ⟨"AU_EQB2", 0x9d2, 0x5, 4, [⟨15, 0, .rw, 0⟩]⟩,
  ⟨"AU_EQA1", 0x9d3, 0x5, 4, [⟨15, 0, .rw, 0⟩]⟩,
  ⟨"AU_EQA2", 0x9d4, 0x5, 4, [⟨15, 0, .rw, 0⟩]⟩,
  ⟨"AU_SCALE", 0x9e4, 0x1, 1, [⟨2, 0, .ro, 0⟩, ⟨6, 4, .ro, 0⟩, ⟨10, 8, .ro, 0⟩]⟩,
  ⟨"AU_MTRCFG", 0x9e5, 0x1, 1, [⟨7, 0, .rw, 96⟩, ⟨11, 8, .rw, 5⟩]⟩,
  ⟨"AU_STAT", 0x9e6, 0x1, 1, [⟨0, 0, .w1c, 0⟩, ⟨1, 1, .w1c, 0⟩, ⟨2, 2, .ro, 0⟩]⟩,
  ⟨"AU_MTR", 0x9e8, 0x1, 12, [⟨15, 0, .ro, 0⟩]⟩,
  ⟨"AU_CLIP", 0x9f4, 0x1, 1, [⟨3, 0, .w1c, 0⟩]⟩,
  ⟨"AU_PEAK6", 0x9f5, 0x1, 1, [⟨15, 0, .ro, 0⟩]⟩,
  ⟨"AU_HELD6", 0x9f6, 0x1, 1, [⟨15, 0, .ro, 0⟩]⟩,
  ⟨"BT_CTL", 0xa00, 0x10, 4, [⟨0, 0, .rw, 0⟩, ⟨1, 1, .rw, 0⟩, ⟨3, 2, .rw, 0⟩, ⟨4, 4, .w1c, 0⟩]⟩,
  ⟨"BT_VAL", 0xa01, 0x10, 4, [⟨15, 0, .rw, 0⟩]⟩,
  ⟨"BT_CNTHI", 0xa02, 0x10, 4, [⟨15, 0, .rw, 0⟩]⟩,
  ⟨"BT_CMPLO", 0xa03, 0x10, 4, [⟨15, 0, .rw, 0⟩]⟩,
  ⟨"BT_CMPHI", 0xa04, 0x10, 4, [⟨15, 0, .rw, 0⟩]⟩,
  ⟨"BT_INTLO", 0xa05, 0x10, 4, [⟨15, 0, .rw, 0⟩]⟩,
  ⟨"BT_INTHI", 0xa06, 0x10, 4, [⟨15, 0, .rw, 0⟩]⟩,
  ⟨"FC_0M", 0xa80, 1, 8, [⟨15, 0, .rw, 0⟩]⟩,
  ⟨"FC_1M", 0xa90, 1, 8, [⟨15, 0, .rw, 0⟩]⟩,
  ⟨"FC_2M", 0xaa0, 1, 8, [⟨15, 0, .rw, 0⟩]⟩,
  ⟨"FC_3M", 0xab0, 1, 8, [⟨15, 0, .rw, 0⟩]⟩,
  ⟨"FC_GO", 0xa88, 0x10, 4, [⟨0, 0, .w1s, 0⟩, ⟨1, 1, .w1s, 0⟩]⟩,
  ⟨"FC_STAT", 0xa89, 0x10, 4, [⟨1, 0, .ro, 0⟩, ⟨2, 2, .w1c, 0⟩, ⟨7, 4, .ro, 0⟩]⟩]

/-- Port tables, part 5. -/
def portRows5 : List PortRow := [
  ⟨"FC_CNTLO", 0xa8a, 0x10, 4, [⟨15, 0, .ro, 0⟩]⟩,
  ⟨"FC_CNTHI", 0xa8b, 0x10, 4, [⟨0, 0, .ro, 0⟩]⟩,
  ⟨"FC_DIFF", 0xa8c, 0x10, 4, [⟨15, 0, .ro, 0⟩]⟩,
  ⟨"LJ_J", 0xb00, 0x1, 13, [⟨15, 0, .rw, 0⟩]⟩,
  ⟨"LJ_PUSH", 0xb10, 0x1, 1, [⟨0, 0, .w1s, 0⟩]⟩,
  ⟨"LJ_QSTAT", 0xb11, 0x1, 1, [⟨3, 0, .ro, 0⟩, ⟨6, 4, .ro, 0⟩, ⟨8, 8, .w1c, 0⟩, ⟨9, 9, .w1c, 0⟩]⟩,
  ⟨"LJ_DEADT", 0xb12, 0x1, 1, [⟨9, 0, .rw, 0⟩]⟩,
  ⟨"LJ_DONE", 0xb13, 0x1, 1, [⟨7, 0, .w1c, 0⟩]⟩,
  ⟨"LJ_WMARK", 0xb14, 0x1, 1, [⟨7, 0, .w1c, 0⟩]⟩,
  ⟨"LJ_ROWS", 0xb15, 0x1, 1, [⟨12, 0, .ro, 0⟩]⟩,
  ⟨"LJ_TRES", 0xb18, 0x1, 8, [⟨3, 0, .ro, 0⟩]⟩,
  ⟨"BI_PENDLO", 0xb80, 0x1, 1, [⟨15, 0, .rw, 0⟩]⟩,
  ⟨"BI_PENDHI", 0xb81, 0x1, 1, [⟨15, 0, .rw, 0⟩]⟩,
  ⟨"BI_ENLO", 0xb82, 0x1, 1, [⟨15, 0, .rw, 0⟩]⟩,
  ⟨"BI_ENHI", 0xb83, 0x1, 1, [⟨15, 0, .rw, 0⟩]⟩,
  ⟨"BI_TOP", 0xb84, 0x1, 1, [⟨4, 0, .ro, 0⟩, ⟨15, 15, .ro, 0⟩]⟩,
  ⟨"BI_EOI", 0xb85, 0x1, 1, [⟨4, 0, .wo, 0⟩]⟩,
  ⟨"BI_MOD", 0xb86, 0x1, 1, [⟨7, 0, .rw, 0⟩, ⟨15, 8, .rw, 0⟩]⟩,
  ⟨"BI_LCMP", 0xb87, 0x1, 1, [⟨11, 0, .rw, 0⟩]⟩,
  ⟨"BI_STAT", 0xb88, 0x1, 1, [⟨0, 0, .ro, 0⟩, ⟨1, 1, .ro, 1⟩, ⟨15, 8, .ro, 0⟩]⟩,
  ⟨"BM_POSL", 0xbc0, 0x1, 1, [⟨11, 0, .ro, 0⟩]⟩,
  ⟨"BM_POSC", 0xbc1, 0x1, 1, [⟨12, 0, .ro, 0⟩]⟩,
  ⟨"BM_FRAME", 0xbc2, 0x1, 1, [⟨15, 0, .ro, 0⟩]⟩,
  ⟨"BM_STAT", 0xbc3, 0x1, 1, [⟨0, 0, .ro, 0⟩, ⟨1, 1, .ro, 0⟩, ⟨2, 2, .ro, 0⟩, ⟨3, 3, .ro, 0⟩, ⟨4, 4, .ro, 0⟩, ⟨5, 5, .w1c, 0⟩]⟩]

/-- Port tables, part 6. -/
def portRows6 : List PortRow := [
  ⟨"BM_COMMIT", 0xbc4, 0x1, 1, [⟨0, 0, .w1s, 0⟩]⟩,
  ⟨"BM_HTOTAL", 0xbc8, 0x1, 1, [⟨12, 0, .sh, 0⟩]⟩,
  ⟨"BM_HVIS", 0xbc9, 0x1, 1, [⟨12, 0, .sh, 0⟩]⟩,
  ⟨"BM_HSYNCS", 0xbca, 0x1, 1, [⟨12, 0, .sh, 0⟩]⟩,
  ⟨"BM_HSYNCW", 0xbcb, 0x1, 1, [⟨12, 0, .sh, 0⟩]⟩,
  ⟨"BM_VTOTAL", 0xbcc, 0x1, 1, [⟨11, 0, .sh, 0⟩]⟩,
  ⟨"BM_VVIS", 0xbcd, 0x1, 1, [⟨11, 0, .sh, 0⟩]⟩,
  ⟨"BM_VSYNCS", 0xbce, 0x1, 1, [⟨11, 0, .sh, 0⟩]⟩,
  ⟨"BM_VSYNCW", 0xbcf, 0x1, 1, [⟨11, 0, .sh, 0⟩]⟩,
  ⟨"BM_INCLO", 0xbd0, 0x1, 1, [⟨15, 0, .sh, 0⟩]⟩,
  ⟨"BM_INCHI", 0xbd1, 0x1, 1, [⟨15, 0, .sh, 0⟩]⟩,
  ⟨"BM_PACE", 0xbd4, 0x1, 1, [⟨15, 0, .rw, 0⟩]⟩,
  ⟨"BM_PACEUSE", 0xbd5, 0x1, 1, [⟨15, 0, .ro, 0⟩]⟩,
  ⟨"BM_XCAUSE", 0xbd8, 0x1, 1, [⟨4, 0, .ro, 0⟩, ⟨7, 5, .ro, 0⟩, ⟨9, 8, .ro, 0⟩, ⟨10, 10, .ro, 0⟩, ⟨11, 11, .ro, 0⟩]⟩,
  ⟨"BM_XOFF", 0xbd9, 0x1, 1, [⟨15, 0, .ro, 0⟩]⟩,
  ⟨"BM_XPC", 0xbda, 0x1, 1, [⟨15, 0, .ro, 0⟩]⟩,
  ⟨"BM_XSEL", 0xbdb, 0x1, 1, [⟨3, 0, .ro, 0⟩]⟩,
  ⟨"BM_ID", 0xbdc, 0x1, 1, [⟨10, 0, .ro, 0⟩]⟩,
  ⟨"BM_SELLO", 0xbde, 0x1, 1, [⟨15, 0, .ro, 12816⟩]⟩,
  ⟨"BM_SELHI", 0xbdf, 0x1, 1, [⟨15, 0, .ro, 30292⟩]⟩,
  ⟨"PD_WP", 0xc00, 0x1, 1, [⟨15, 0, .ro, 0⟩]⟩,
  ⟨"PD_RP", 0xc01, 0x1, 1, [⟨15, 0, .rw, 0⟩]⟩,
  ⟨"PD_CFG", 0xc02, 0x1, 1, [⟨3, 0, .ro, 0⟩, ⟨7, 4, .ro, 0⟩, ⟨8, 8, .ro, 0⟩]⟩,
  ⟨"PD_BASE", 0xc03, 0x1, 1, [⟨15, 0, .ro, 0⟩]⟩]

/-- Port tables, part 7. -/
def portRows7 : List PortRow := [
  ⟨"PD_DROPS", 0xc04, 0x1, 1, [⟨15, 0, .ro, 0⟩]⟩,
  ⟨"PD_STAT", 0xc05, 0x1, 1, [⟨0, 0, .w1c, 0⟩]⟩,
  ⟨"GP_VIEW", 0xc40, 0x1, 48, [⟨0, 0, .ro, 0⟩, ⟨1, 1, .w1c, 0⟩, ⟨8, 8, .rw, 0⟩, ⟨9, 9, .rw, 0⟩]⟩]

/-- Every berth port but the SH_ ports. -/
def portRows : List PortRow :=
  portRows0 ++ portRows1 ++ portRows2 ++ portRows3 ++ portRows4 ++ portRows5 ++ portRows6 ++ portRows7

end Sys2Proof.Machine
end

