-- ==== Sys2Proof/Machine/Beam.lean ====
section
/-! DEFINITION. Berth time and the beam: geometry checks, the advance of one microcycle, stamps and live values, berth timers, the berth
interrupt controller and the pace budget (R88 to R119, R159 to R161, R384 to R391, R408 to R411). -/

namespace Sys2Proof.Machine

/-- Width, height, pixel clock in MHz, and frame rate range of a canvas class (Table 3-2). -/
def classLimits (cls : Nat) : Nat × Nat × Nat × Nat :=
  if cls = 0 then (768, 576, 150, 240) else if cls = 1 then (1920, 1080, 300, 120) else (3840, 2160, 600, 60)

/-- The class figure of berths per dock (Table 3-2). -/
def classBerths (cls : Nat) : Nat := if cls = 0 then 16 else if cls = 1 then 8 else 2

/-- A geometry is valid for a canvas class (R99). -/
def Geometry.valid (g : Geometry) (cls : Nat) : Bool :=
  let (cw, ch, clk, fmax) := classLimits cls
  let f := 480000000 * g.inc
  decide (1 ≤ g.hvis ∧ g.hvis ≤ cw ∧ g.hvis + 16 ≤ g.htotal ∧ g.htotal ≤ 8191 ∧
    1 ≤ g.vvis ∧ g.vvis ≤ ch ∧ g.vvis + 1 ≤ g.vtotal ∧ g.vtotal ≤ 4095 ∧
    g.hvis ≤ g.hsyncs ∧ 1 ≤ g.hsyncw ∧ g.hsyncs + g.hsyncw ≤ g.htotal ∧
    g.vvis ≤ g.vsyncs ∧ 1 ≤ g.vsyncw ∧ g.vsyncs + g.vsyncw ≤ g.vtotal ∧
    f ≤ clk * 1000000 * 2 ^ 30 ∧ f ≤ 140000 * g.htotal * 2 ^ 30 ∧
    24 * g.htotal * g.vtotal * 2 ^ 30 ≤ f ∧ f ≤ fmax * g.htotal * g.vtotal * 2 ^ 30)

/-- A stored berth port's value, its BERTH_START value where the table does not list it. -/
def portRow (p : Nat) : Option PortRow :=
  portRows.find? (fun r => r.port ≤ p ∧ p < r.port + r.stride * r.count ∧ (p - r.port) % r.stride = 0)

/-- The value of a port at BERTH_START as its row's numbers give it. -/
def PortRow.reset (r : PortRow) : Nat := r.fields.foldl (fun v f => putBits v f.hi f.lo f.reset) 0

/-- The bits of a row whose fields have one of the given access codes. -/
def PortRow.mask (r : PortRow) (as : List Acc) : Nat :=
  r.fields.foldl (fun v f => if as.contains f.acc then putBits v f.hi f.lo (2 ^ 16 - 1) else v) 0

/-- The BERTH_START value of a port; a shadow's is that of its LV_ port (R209). -/
def portDefault (p : Nat) : Nat :=
  match portRow (if 0x400 ≤ p ∧ p < 0x800 then p - 0x400 else p) with
  | some r => r.reset
  | none => 0

/-- The stored value of a port of a berth. -/
def BSide.port (x : BSide) (p : Nat) : Nat := (tget x.ports p (w16 (portDefault p))).toNat

/-- Store the value of a port of a berth. -/
def BSide.setPort (x : BSide) (p v : Nat) : BSide :=
  { x with ports := tput x.ports p (w16 v) (w16 (portDefault p)) }

/-- Mark W1C bits of a port as set by hardware in this microcycle: a software clear in it loses to them (R12). -/
def BSide.markNow (x : BSide) (p m : Nat) : BSide :=
  { x with w1cNow := tput x.w1cNow p (w16 ((tget x.w1cNow p 0).toNat ||| m)) 0 }

/-- Hardware sets stored W1C bits of a port in this microcycle. -/
def BSide.hwSet (x : BSide) (p m : Nat) : BSide := (x.setPort p (x.port p ||| m)).markNow p m

/-- Hardware sets W1C bits of a port in this microcycle, if any. -/
def BSide.hwSome (x : BSide) (p m : Nat) : BSide := if m = 0 then x else x.hwSet p m

/-- The bits of a port that hardware set in this microcycle. -/
def BSide.setBits (x : BSide) (p : Nat) : Nat := (tget x.w1cNow p 0).toNat

/-- Clear stored W1C bits of a port by a write of v, keeping those hardware set in this microcycle (R11, R12). -/
def BSide.w1c (x : BSide) (p v : Nat) : BSide :=
  x.setPort p (x.port p ^^^ (x.port p &&& v &&& (0xFFFF ^^^ x.setBits p)))

/-- The shadow of LV_ port n (R111). -/
def BSide.shadowOf (x : BSide) (n : Nat) : Word := tget x.shadow n (w16 (portDefault n))

/-- Position (a, b) lies at or before (c, d) in beam order. -/
def posLe (a b c d : Nat) : Bool := decide (a < c ∨ (a = c ∧ b ≤ d))

/-- The later-wins choice of R108 over stamps in program order: the latest effective position, and the last of them in program order. -/
def latestStamp (l : List Stamp) : Option Stamp :=
  l.foldl (fun o t => match o with
    | none => some t
    | some u => if posLe u.line u.col t.line t.col then some t else some u) none

/-- The value of LV_ port n at position (l, c) of frame f: the latest effective stamp, else the value at the boundary (R108). -/
def BSide.liveAt (x : BSide) (n f l c : Nat) : Word :=
  match latestStamp (x.stamps.filter (fun t => t.port = n ∧ t.frame = f ∧ posLe t.line t.col l c)) with
  | some t => t.value
  | none => tget x.base n (w16 (portDefault n))

/-- The effective position of a stamp made at (l, c) of the current frame (R106): full frame count, line, column. -/
def Beam.effective (m : Beam) (l c : Nat) : Nat × Nat × Nat :=
  if m.geo.vvis ≤ l then (m.frame + 1, 0, 0)
  else if m.geo.hvis ≤ c then (if l = m.geo.vvis - 1 then (m.frame + 1, 0, 0) else (m.frame, l + 1, 0))
  else (m.frame, l, c)

/-- The geometry the shadows hold (R114). -/
def BSide.shadowGeo (x : BSide) : Geometry :=
  { htotal := x.port 0xBC8, hvis := x.port 0xBC9, hsyncs := x.port 0xBCA, hsyncw := x.port 0xBCB,
    vtotal := x.port 0xBCC, vvis := x.port 0xBCD, vsyncs := x.port 0xBCE, vsyncw := x.port 0xBCF,
    inc := x.port 0xBD0 + 65536 * x.port 0xBD1 }

/-- Write a geometry into the geometry shadows. -/
def BSide.setShadowGeo (x : BSide) (g : Geometry) : BSide :=
  (((((((((x.setPort 0xBC8 g.htotal).setPort 0xBC9 g.hvis).setPort 0xBCA g.hsyncs).setPort 0xBCB g.hsyncw).setPort
    0xBCC g.vtotal).setPort 0xBCD g.vvis).setPort 0xBCE g.vsyncs).setPort 0xBCF g.vsyncw).setPort
    0xBD0 (g.inc % 65536)).setPort 0xBD1 (g.inc / 65536)

/-- The live values carried into a new frame: each port with stamps of the frame that ends takes its latest one (R108). -/
def BSide.carry (x : BSide) : Tbl Word :=
  let old := x.stamps.filter (fun t => t.frame = x.beam.frame)
  (old.map (·.port)).foldl (fun b n =>
    match latestStamp (old.filter (fun t => t.port = n)) with
    | some t => tput b n t.value (w16 (portDefault n))
    | none => b) x.base

/-- BI source n becomes pending by hardware in this microcycle (R400, R408). -/
def BIC.set (i : BIC) (n : Nat) : BIC :=
  { i with pend := i.pend ||| w32 (2 ^ n), setNow := i.setNow ||| w32 (2 ^ n) }

/-- A core that is idle releases the BI at once; with no source pending and enabled it stops being released again (R406, R407). -/
def BIC.idle (i : BIC) : BIC :=
  if i.mod.released then i
  else { i with mod := if (i.pend &&& i.en) != 0 then { i.mod with released := true } else { released := false } }

/-- Moderation of the BI after a change from the pending-and-enabled bits old, its time counted in lines (R406, R409); idle is R407's bypass, and wr
tells a microcycle in which BI_MOD is written. -/
def BIC.settle (i : BIC) (old : Word32) (idle wr : Bool) : BIC :=
  let pe := i.pend &&& i.en
  let m := moderStep i.mod (pe != 0) i.count i.time 1 (popcount 32 (pe &&& ~~~old).toNat) i.lines wr
  let j := { i with mod := m }
  if idle then j.idle else j

/-- The lowest presentable BI source (R404). -/
def BIC.top (i : BIC) : Option Nat :=
  if i.mod.released then (List.range 32).find? (fun n => bitOf (i.pend &&& i.en).toNat n) else none

/-- A request is presented to the core (R151, R404). -/
def BIC.request (i : BIC) : Bool := i.top.isSome

/-- What one microcycle's advance of the beam was: columns advanced, a new line, a frame boundary. -/
structure Advance where
  cols : Nat
  newLine : Bool
  boundary : Bool
  deriving DecidableEq, Repr

/-- Advance the beam by one microcycle (R94 to R97); bt is the microcycle's number. -/
def Beam.step (m : Beam) (bt : Nat) : Beam × Advance :=
  let sum := m.acc % 2 ^ 30 + m.geo.inc
  let cols := sum / 2 ^ 30
  let c := m.c + cols
  let acc := (m.acc + m.geo.inc) % 2 ^ 32
  if c < m.geo.htotal then ({ m with acc := acc, c := c }, ⟨cols, false, false⟩)
  else
    let c1 := c - m.geo.htotal
    if m.l + 1 < m.geo.vtotal then
      ({ m with acc := acc, c := c1, l := m.l + 1, lineBt := bt }, ⟨cols, true, false⟩)
    else ({ m with acc := acc, c := c1, l := 0, lineBt := bt, frameBt := bt }, ⟨cols, true, true⟩)

/-- A compare value c is passed by counter n (R386). -/
def passed (n c : Word32) : Bool := decide ((n - c).toNat < 2 ^ 31)

/-- A write to a timer that lands in the step itself (R389): 0 CNT, 1 CMP, 2 INT. -/
structure TimerWrite where
  fld : Nat
  v : Word32
  deriving DecidableEq, Repr

/-- One step of a timer (R385 to R389), shared by berth and harbour timers: counter, compare, interval and follow-on mark before; the
advance; the write of this step. Answers counter, compare, interval, follow-on mark and whether a match occurred. -/
def timerStep (en auto : Bool) (cnt cmp int : Word32) (follow : Bool) (adv : Nat) (wr : Option TimerWrite) :
    Word32 × Word32 × Word32 × Bool × Bool :=
  let wCnt := match wr with | some w => decide (w.fld = 0) | none => false
  let wCmp := match wr with | some w => decide (w.fld = 1) | none => false
  let wInt := match wr with | some w => decide (w.fld = 2) | none => false
  let wv := match wr with | some w => w.v | none => 0
  let cnt1 := if wCnt then wv else if en then cnt + w32 adv else cnt
  let cmp1 := if wCmp then wv else cmp
  let int1 := if wInt then wv else int
  let hitAdv := en && !wCnt && decide ((cmp - cnt - 1).toNat < adv)
  let hitWr := en && wCmp && passed cnt1 cmp1
  let hit := hitAdv || hitWr || (en && follow)
  let reload := hit && auto && (int1 != 0)
  let cmp2 := if reload then cmp1 + int1 else cmp1
  (cnt1, cmp2, int1, reload && passed cnt1 cmp2, hit)

/-- One microcycle of a berth timer (R384, R387). -/
def BTimer.step (t : BTimer) (adv : Nat) (wr : Option TimerWrite) : BTimer × Bool :=
  let r := timerStep t.en t.auto t.cnt t.cmp t.int t.follow adv wr
  ({ t with cnt := r.1, cmp := r.2.1, int := r.2.2.1, follow := r.2.2.2.1, mat := t.mat || r.2.2.2.2 }, r.2.2.2.2)

/-- The advance a berth timer's source gives in a microcycle (Table 11-1). -/
def BTimer.adv (t : BTimer) (a : Advance) (sample : Bool) : Nat :=
  match t.src with
  | 0 => 1
  | 1 => a.cols
  | 2 => b2n a.newLine
  | _ => b2n sample

/-- The pace budget that is left in the line (R159, R160); meaningful while CAP is nonzero. -/
def Core.budget (k : Core) : Int := (k.cap : Int) - k.overrun - k.charges

/-- The core may begin an instruction or an entry under the pace cap (R160). -/
def Core.paceOk (k : Core) : Bool := decide (k.cap = 0) || decide (0 < k.budget)

/-- Start a line's budget: the overdraft carries (R159, R160). -/
def Core.newLine (k : Core) : Core :=
  { k with overrun := if k.cap = 0 then 0 else k.overrun + k.charges - k.cap, charges := 0 }

/-- Field values of a Ferry manifest's first word (Table 10-2). -/
def manTrig (m : List Word) : Nat := bitsOf (m.getD 0 0).toNat 4 3

/-- Fire the trigger of Ferry channel n (R348, R357): the channel becomes BUSY and its start waits for the watch commit. -/
def Berth.fireFerry (x : Berth) (n : Fin 4) : Berth :=
  let ch := x.side.fc[n]
  { x with
    side := { x.side with fc := x.side.fc.set n { ch with state := 2 } }
    cur := { x.cur with starts := x.cur.starts ++ [.ferry n.val ch.man (x.side.bt - 1)] } }

/-- Fire the Ferry channels that are ARMED and whose manifest meets a test (R348). -/
def Berth.fireFerries (x : Berth) (p : List Word → Bool) : Berth :=
  (List.finRange 4).foldl (fun y n =>
    if y.side.fc[n].state = 1 ∧ p y.side.fc[n].man then y.fireFerry n else y) x

/-- Fire the Lighter jobs that wait for a line and meet a test (R348, R370). -/
def Berth.fireJobs (x : Berth) (p : List Word → Bool) : Berth :=
  let hit := x.side.lj.jobs.filter (fun j => !j.fired && p j.words)
  { x with
    side := { x.side with lj := { x.side.lj with
      jobs := x.side.lj.jobs.map (fun j => if !j.fired && p j.words then { j with fired := true } else j) } }
    cur := { x.cur with starts := x.cur.starts ++ hit.map (fun j => .lighter j.seq j.tag j.words (x.side.bt - 1)) } }

/-- A manifest waits for line l (R348). -/
def manLine (l : Nat) (m : List Word) : Bool :=
  decide (manTrig m = 1 ∧ bitsOf (m.getD 7 0).toNat 11 0 = l)

/-- A job waits for line l (R348, R371). -/
def jobLine (l : Nat) (j : List Word) : Bool :=
  bitOf (j.getD 0 0).toNat 7 && decide (bitsOf (j.getD 11 0).toNat 11 0 = l)

/-- Stream manifests whose deadline line the beam is on become known to have reached it (R368). -/
def Berth.deadlines (x : Berth) : Berth :=
  (List.finRange 4).foldl (fun y n =>
    let ch := y.side.fc[n]
    let m2 := (ch.man.getD 2 0).toNat
    if ch.state = 2 ∧ bitOf (ch.man.getD 0 0).toNat 2 ∧ bitOf m2 15 ∧ bitsOf m2 11 0 = y.side.beam.l ∧
        !(y.side.deadlined.contains n.val) then
      { y with
        side := { y.side with deadlined := y.side.deadlined ++ [n.val] }
        cur := { y.cur with starts := y.cur.starts ++ [.deadline n.val] } }
    else y) x

end Sys2Proof.Machine
end

