-- ==== Sys2Proof/Machine/Audio.lean ====
section
/-! DEFINITION. The audio unit: one sample instant of a berth (file 09), and the berth's checked accesses to its rings and its effects
area with the undo log (R203, R313, R333, R496 to R498). -/

namespace Sys2Proof.Machine

/-- sat24 of R304. -/
def sat24 (x : Int) : Int := clampInt (-8388608) 8388607 x

/-- round(32767 sin(2 pi j / 4096)) for j = 0 to 1,024, 16 bits each, from bit 0 up (R323). -/
def sineBits : Nat := 0x7fff7fff7fff7fff7ffe7ffe7ffe7ffd7ffd7ffc7ffb7ffa7ff97ff87ff77ff67ff57ff47ff37ff17ff07fee7fec7feb7fe97fe77fe57fe37fe17fdf7fdc7fda7fd87fd57fd27fd07fcd7fca7fc77fc47fc17fbe7fbb7fb87fb47fb17fad7faa7fa67fa27f9f7f9b7f977f937f8f7f8a7f867f827f7d7f797f747f707f6b7f667f617f5c7f577f527f4d7f487f427f3d7f377f327f2c7f267f217f1b7f157f0f7f097f027efc7ef67eef7ee97ee27edc7ed57ece7ec77ec07eb97eb27eab7ea47e9c7e957e8d7e867e7e7e777e6f7e677e5f7e577e4f7e477e3e7e367e2e7e257e1d7e147e0b7e027dfa7df17de87ddf7dd57dcc7dc37db97db07da67d9d7d937d897d807d767d6c7d627d577d4d7d437d397d2e7d247d197d0e7d047cf97cee7ce37cd87ccd7cc17cb67cab7c9f7c947c887c7d7c717c657c597c4d7c417c357c297c1d7c107c047bf87beb7bde7bd27bc57bb87bab7b9e7b917b847b777b697b5c7b4f7b417b337b267b187b0a7afc7aee7ae07ad27ac47ab67aa87a997a8b7a7c7a6d7a5f7a507a417a327a237a147a0579f679e679d779c879b879a9799979897979796a795a794a793979297919790978f878e878d778c778b678a578947884787378627850783f782e781d780b77fa77e877d777c577b377a1778f777d776b7759774777357722771076fe76eb76d876c676b376a0768d767a766776547641762d761a760775f375e075cc75b875a57591757d756975557541752d7518750474f074db74c674b2749d74887474745f744a74357420740a73f573e073ca73b5739f738a7374735e73497333731d730772f172db72c472ae72987281726b7254723e7227721071f971e271cb71b4719d7186716f715871407129711170fa70e270ca70b2709b7083706b7053703a7022700a6ff26fd96fc16fa86f906f776f5e6f456f2c6f146efb6ee16ec86eaf6e966e7c6e636e4a6e306e166dfd6de36dc96daf6d956d7b6d616d476d2d6d136cf86cde6cc36ca96c8e6c746c596c3e6c236c086bed6bd26bb76b9c6b816b656b4a6b2f6b136af86adc6ac06aa46a896a6d6a516a356a1969fd69e069c469a8698b696f69526936691968fc68e068c368a66889686c684f6832681467f767da67bc679f6781676467466728670a66ed66cf66b16693667566566638661a65fc65dd65bf65a06582656365446525650764e864c964aa648b646c644c642d640e63ee63cf63af6390637063516331631162f162d162b16291627162516231621161f061d061af618f616e614e612d610c60eb60cb60aa608960686047602560045fe35fc25fa05f7f5f5d5f3c5f1a5ef85ed75eb55e935e715e4f5e2d5e0b5de95dc75da55d825d605d3e5d1b5cf95cd65cb35c915c6e5c4b5c285c055be25bbf5b9c5b795b565b335b0f5aec5ac95aa55a825a5e5a3b5a1759f359cf59ac598859645940591c58f858d358af588b58675842581e57f957d557b0578b57675742571d56f856d356af568a5664563f561a55f555d055aa55855560553a551554ef54c954a4547e54585432540c53e753c1539b5374534e5328530252dc52b5528f52685242521b51f551ce51a85181515a5133510c50e550be50975070504950224ffb4fd44fac4f854f5d4f364f0e4ee74ebf4e984e704e484e204df94dd14da94d814d594d314d094ce04cb84c904c684c3f4c174bee4bc64b9d4b754b4c4b244afb4ad24aa94a804a584a2f4a0649dd49b4498a49614938490f48e548bc489348694840481647ed47c3479a47704746471c46f346c9469f4675464b462145f745cd45a34578454e452444f944cf44a5447a4450442543fb43d043a5437b4350432542fa42d042a5427a424f422441f941ce41a24177414c412140f640ca409f40734048401d3ff13fc53f9a3f6e3f433f173eeb3ebf3e933e683e3c3e103de43db83d8c3d603d333d073cdb3caf3c833c563c2a3bfe3bd13ba53b783b4c3b1f3af23ac63a993a6c3a403a1339e639b9398c39603933390638d938ab387e3851382437f737ca379c376f3742371536e736ba368c365f3631360435d635a8357b354d351f34f234c434963468343a340c33df33b133833355332632f832ca329c326e3240321131e331b531873158312a30fb30cd309e3070304130132fe42fb62f872f582f2a2efb2ecc2e9d2e6e2e402e112de22db32d842d552d262cf72cc82c992c6a2c3a2c0b2bdc2bad2b7d2b4e2b1f2af02ac02a912a612a322a0229d329a329742944291528e528b528862856282627f727c7279727672737270826d826a826782648261825e825b825882558252824f824c8249724672437240723d723a623762346231522e522b522842254222321f321c2219221612131210020d0209f206f203e200d1fdd1fac1f7b1f4a1f1a1ee91eb81e871e571e261df51dc41d931d621d311d001ccf1c9e1c6d1c3c1c0b1bda1ba91b781b471b161ae51ab41a821a511a2019ef19be198c195b192a18f918c7189618651833180217d0179f176e173c170b16d916a816761645161315e215b0157f154d151c14ea14b914871455142413f213c0138f135d132b12fa12c8129612641233120111cf119d116c113a110810d610a410721041100f0fdd0fab0f790f470f150ee30eb10e800e4e0e1c0dea0db80d860d540d220cf00cbe0c8c0c5a0c280bf60bc40b920b5f0b2d0afb0ac90a970a650a330a0109cf099d096a0938090608d408a20870083e080b07d907a707750743071106de06ac067a0648061605e305b1057f054d051b04e804b604840452041f03ed03bb03890356032402f202c0028d025b022901f701c401920160012e00fb00c90097006500320000

/-- A value of the first quarter of the sine (R323). -/
def sineQ (j : Nat) : Int := (bitsOf sineBits (16 * j + 15) (16 * j) : Nat)

/-- sine(j) for j = 0 to 4,095 (R323), by the quarter's symmetry. -/
def sine (j : Nat) : Int :=
  let k := j % 2048
  let v := if k ≤ 1024 then sineQ k else sineQ (2048 - k)
  if j % 4096 < 2048 then v else -v

/-- inc(r) of R310. -/
def envInc (r : Nat) : Int := ((16 + r % 16) * 2 ^ (r / 16) : Nat)

/-- EMAX of R310. -/
def envMax : Int := 8388352

/-- One step of an envelope generator with its two rate words ENVA and ENVB (R310). -/
def EnvGen.step (g : EnvGen) (enva envb : Nat) : EnvGen :=
  match g.phase with
  | 1 =>
    let e := g.e + envInc (enva % 256)
    if envMax ≤ e then { phase := 2, e := envMax } else { g with e := e }
  | 2 =>
    let e := g.e - envInc (enva / 256)
    let sl : Int := ((envb % 256) * 2 ^ 15 : Nat)
    if e ≤ sl then { phase := 3, e := sl } else { g with e := e }
  | 4 =>
    let e := g.e - envInc (envb / 256)
    if e ≤ 0 then { phase := 0, e := 0 } else { g with e := e }
  | _ => g

/-- KEYON and KEYOFF on a generator (R311). -/
def EnvGen.key (g : EnvGen) (on : Bool) : EnvGen :=
  if on then { g with phase := 1 } else if g.phase = 0 then g else { g with phase := 4 }

/-- The generator is not OFF (R312). -/
def EnvGen.live (g : EnvGen) : Bool := decide (g.phase ≠ 0)

/-- Descriptor n of the berth. -/
def BSide.descN (x : BSide) (n : Nat) : Desc := x.desc.toList.getD (n % 16) {}

/-- The die-local word address of graphics offset g through descriptor n (R203). -/
def BSide.gaddr (x : BSide) (n g : Nat) : Nat := ((x.descN n).base + g % 2 ^ 22) % 2 ^ 29

/-- Word offset of undo bank n mod 2 in the berth's HARBOUR page (Table 14-2). -/
def undoBank (n : Nat) : Nat := 6144 + (n % 2) * 12288

/-- The page a berth's watch state lies in, BM_WATCHPAGE (R492). -/
def Berth.watchPage (x : Berth) : Nat := (tget x.regs R.BM_WATCHPAGE 0).toNat % 16384

/-- Master class 0x6 for a berth: the watch hardware (Table 2-3). -/
def watchMaster (x : Berth) : Master := { cls := 6, id := x.id }

/-- Enter the old value of a word into the undo log of the current watch, once per word (R496, R498); a denial parks the berth with cause
LEDGER, poisoned data with cause CELLAR (Table 2-6). false: the write it precedes does not take place. -/
def State.undoEntry (s : State) (x : Berth) (wa : Nat) : Bool × State × Berth :=
  if x.cur.undo.contains wa then (true, s, x)
  else
    let m := watchMaster x
    match s.cellRead x.die x.die wa m with
    | (.poison, t) => (false, t, { x with parkReq := some 3 })
    | (.denied, t) => (false, t, { x with parkReq := some 4 })
    | (.ok old, t) =>
      let a := x.watchPage * 32768 + undoBank x.cur.seq + 3 * x.cur.undo.length
      let r0 := t.cellWrite x.die x.die a (w16 wa) m
      let r1 := r0.2.cellWrite x.die x.die (a + 1) (w16 (wa / 65536 % 8192)) m
      let r2 := r1.2.cellWrite x.die x.die (a + 2) old m
      if r0.1 && r1.1 && r2.1 then
        (true, r2.2, { x with cur := { x.cur with undo := x.cur.undo ++ [wa] } })
      else (false, r0.2, { x with parkReq := some 4 })

/-- Fetch n words of a sample ring from FP: denied reads nothing, a poisoned word reads 0 (R313, R316, R339). The flags answered are
DENIED and POISON. -/
def State.ringFetch (s : State) (x : Berth) (sel base k fp n : Nat) : State × Option (List Word) × Bool :=
  let m : Master := { cls := 0, id := x.id }
  let addr := fun i => x.side.gaddr sel (base * 64 + (fp + i) % 2 ^ k)
  if !(x.side.descN sel).r then (s, none, false)
  else match (List.range n).find? (fun i => (s.ledgerCheck x.die x.die (addr i) m .read).isSome) with
    | some i => ((s.cellRead x.die x.die (addr i) m).2, none, false)
    | none => (List.range n).foldl (fun (acc : State × Option (List Word) × Bool) i =>
        match acc.1.cellRead x.die x.die (addr i) m with
        | (.ok v, t) => (t, acc.2.1.map (· ++ [v]), acc.2.2)
        | (.poison, t) => (t, acc.2.1.map (· ++ [0]), true)
        | (.denied, t) => (t, acc.2.1.map (· ++ [0]), acc.2.2)) (s, some [], false)

/-- Samples per ring word of a format (Table 9-3). -/
def perWord (fmt : Nat) : Nat := match fmt with | 0 => 2 | 1 => 1 | 2 => 4 | _ => 1

/-- ADPCM decoding of one nibble from predictor p and index i (R319). -/
def adpcm (p : Int) (i nib : Nat) : Int × Nat :=
  let step := (8 + i % 8) * 2 ^ (i / 8)
  let m := nib % 8
  let diff : Int := (step / 8 + (if m / 4 % 2 = 1 then step else 0) + (if m / 2 % 2 = 1 then step / 2 else 0) +
    (if m % 2 = 1 then step / 4 else 0) : Nat)
  let q := sat16 (if nib / 8 % 2 = 1 then p - diff else p + diff)
  let j : Int := (i : Int) + (if m < 4 then -1 else 2 * ((m : Int) - 3))
  (q, (clampInt 0 87 j).toNat)

/-- Decode sample number n of word w (Table 9-3), with the ADPCM state before and after. -/
def decodeSample (fmt : Nat) (w : Word) (n : Nat) (p : Int) (i : Nat) : Int × Int × Nat :=
  match fmt with
  | 0 => (sxInt (w.toNat / 2 ^ (8 * n)) 8 * 65536, p, i)
  | 1 => (w.toInt * 256, p, i)
  | 2 =>
    let r := adpcm p i (w.toNat / 2 ^ (4 * n) % 16)
    (r.1 * 256, r.1, r.2)
  | _ => (0, p, i)

/-- Make the sample at the voice's position the current one, if it is buffered and not yet decoded. -/
def SVoice.load (v : SVoice) (fmt : Nat) : SVoice :=
  if v.ready then v
  else match v.buf with
    | [] => v
    | w :: _ =>
      let r := decodeSample fmt w v.sub v.pred v.idx
      { v with cur := r.1, pred := r.2.1, idx := r.2.2, ready := true }

/-- The sample after the current one, equal to it when it is not buffered (R320). -/
def SVoice.next (v : SVoice) (fmt : Nat) : Int :=
  let n := v.sub + 1
  if n < perWord fmt then
    match v.buf with
    | w :: _ => (decodeSample fmt w n v.pred v.idx).1
    | [] => v.cur
  else match v.buf with
    | _ :: w :: _ => (decodeSample fmt w 0 v.pred v.idx).1
    | _ => v.cur

/-- Advance the voice by one source sample; RP moves past a word fully played (R320). -/
def SVoice.advance1 (v : SVoice) (fmt k : Nat) : SVoice :=
  if !v.ready then v
  else if v.sub + 1 < perWord fmt then ({ v with sub := v.sub + 1, ready := false }).load fmt
  else ({ v with buf := v.buf.drop 1, sub := 0, rp := (v.rp + 1) % 2 ^ (k + 1), ready := false }).load fmt

/-- Advance the voice by n source samples. -/
def SVoice.advance (v : SVoice) (fmt k : Nat) : Nat → SVoice
  | 0 => v
  | n + 1 => (v.advance1 fmt k).advance fmt k n

/-- Ring size exponent K of a sample voice: values below 6 act as 6, up to 15 (AU_SnCTL). -/
def ringK (ctl : Nat) : Nat := max 6 (bitsOf ctl 11 8)

/-- The words between RP and FP that a voice's buffer lost in a rollback are read again from RP (R342). -/
def State.refill (s : State) (x : Berth) (sel base k : Nat) (q : SVoice) : State × SVoice × Bool × Bool :=
  let n := (q.fp + 2 ^ (k + 1) - q.rp) % 2 ^ (k + 1)
  if q.buf.length = n then (s, q, false, false)
  else
    let f := s.ringFetch x sel base k q.rp n
    (f.1, { q with buf := f.2.1.getD [] }, f.2.1.isNone, f.2.2)

/-- One instant of an active sample voice v (R316, R317, R320): fetch, then play. Answers the voice's value before the filter. -/
def State.sampleVoice (s : State) (x : Berth) (v : Nat) : State × Berth × Int :=
  let ctl := x.side.port (0x8A0 + 8 * v)
  let fmt := bitsOf ctl 1 0
  let loop := bitOf ctl 2
  let k := ringK ctl
  if fmt = 3 then (s, x, 0)
  else
    let sel := bitsOf ctl 7 4
    let base := x.side.port (0x8A1 + 8 * v)
    let back := s.refill x sel base k (x.side.au.sv.getD v {})
    let q := back.2.1
    let wp := x.side.port (0x8A2 + 8 * v) % 2 ^ (k + 1)
    let a := if loop then 2 ^ k else (wp + 2 ^ (k + 1) - q.fp) % 2 ^ (k + 1)
    let n := if q.buf.length < 32 ∧ 32 ≤ a then 32
      else if q.buf.length * perWord fmt ≤ q.sub + 1 ∧ 0 < a ∧ a < 32 then a else 0
    let f := if n = 0 then (back.1, some [], false) else back.1.ringFetch x sel base k q.fp n
    let got := f.2.1.getD []
    let q1 := ({ q with buf := q.buf ++ got, fp := (q.fp + got.length) % 2 ^ (k + 1) }).load fmt
    let starve := !q1.ready && !loop
    let bits := (if starve then 0x20 else 0) + (if f.2.1.isNone ∨ back.2.2.1 then 0x40 else 0) + (if f.2.2 ∨ back.2.2.2 then 0x80 else 0)
    let side1 := x.side.hwSome (0x880 + v) bits
    let q2 := { q1 with starving := if starve then true else if q1.ready then false else q1.starving }
    let src := q2.cur + asr ((q2.next fmt - q2.cur) * q2.frac) 12
    let val := asr (src * asr q2.env.e 8) 15
    let fr := q2.frac + x.side.port (0x8A4 + 8 * v)
    let q3 := ({ q2 with frac := fr % 4096 }).advance fmt k (fr / 4096)
    (f.1, { x with side := { side1 with au := { side1.au with sv := side1.au.sv.set v q3 } } }, val)

/-- Modulation inputs and carriers of Table 9-4: min of operators 2, 1 and 0 from outputs o3, o2, o1, and the carriers' sum. -/
def fmMod (alg : Nat) (op : Nat) (o1 o2 o3 : Int) : Int :=
  match alg, op with
  | 0, 2 => o3 | 0, 1 => o2 | 0, 0 => o1
  | 1, 2 => 0 | 1, 1 => o2 + o3 | 1, 0 => o1
  | 2, 2 => o3 | 2, 1 => 0 | 2, 0 => o1 + o2
  | 3, 2 => o3 | 3, 1 => o2 | 3, 0 => 0
  | 4, 2 => o3 | 4, 1 => 0 | 4, 0 => o1
  | 5, 2 => o3 | 5, 1 => o3 | 5, 0 => o3
  | 6, 2 => o3 | 6, _ => 0
  | _, _ => 0

/-- The carriers' sum of Table 9-4. -/
def fmCarriers (alg : Nat) (o0 o1 o2 o3 : Int) : Int :=
  match alg with
  | 3 => o0 + o1
  | 4 => o0 + o2
  | 5 => o0 + o1 + o2
  | 6 => o0 + o1 + o2
  | 7 => o0 + o1 + o2 + o3
  | _ => o0

/-- One instant of an active FM voice v = 16 to 23 (R322 to R325). -/
def BSide.fmVoice (x : BSide) (v : Nat) : BSide × Int :=
  let b := 0x940 + 16 * (v - 16)
  let q := x.au.fm.getD (v - 16) {}
  let freq := x.port (b + 1) + 65536 * bitsOf (x.port (b + 2)) 3 0
  let alg := bitsOf (x.port b) 2 0
  let fb := bitsOf (x.port b) 6 4
  let phi := (List.range 4).map (fun k =>
    let mul := bitsOf (x.port (b + 4 + 3 * k)) 3 0
    (q.phi.getD k 0 + (if mul = 0 then freq / 2 else freq * mul)) % 2 ^ 24)
  let out := fun (k : Nat) (mn : Int) =>
    let p := (((phi.getD k 0 : Nat) : Int) + mn * 512) % (2 ^ 24 : Nat)
    let lv : Int := (bitsOf (x.port (b + 4 + 3 * k)) 15 8 : Nat)
    asr (asr (sine (p.toNat / 4096) * asr (q.envs.getD k {}).e 8) 15 * lv) 8
  let o3 := out 3 (if fb = 0 then 0 else asr (q.h1 + q.h2) (8 - fb))
  let o2 := out 2 (fmMod alg 2 0 0 o3)
  let o1 := out 1 (fmMod alg 1 0 o2 o3)
  let o0 := out 0 (fmMod alg 0 o1 o2 o3)
  ({ x with au := { x.au with fm := x.au.fm.set (v - 16) { q with phi := phi, h1 := o3, h2 := q.h1 } } },
    sat24 (fmCarriers alg o0 o1 o2 o3 * 256))

/-- One step of the noise register (R326): a register whose used bits are all 0 first has bit 0 set. -/
def noiseStep (nine : Bool) (r : Nat) : Nat :=
  let u := if nine then r % 512 else r % 2 ^ 17
  let u1 := if u = 0 then 1 else u
  let h := u1 / 2
  if u1 % 2 = 1 then (if nine then h ^^^ 0x110 else h ^^^ 0x12000) else h

/-- One instant of a square and noise voice v = 24 to 31 (R326). -/
def BSide.qVoice (x : BSide) (v : Nat) : BSide × Int :=
  let b := 0x920 + 4 * (v - 24)
  let q := x.au.qv.getD (v - 24) {}
  let mode := bitsOf (x.port b) 1 0
  let duty := if bitsOf (x.port b) 5 2 = 0 then 8 else bitsOf (x.port b) 5 2
  let ph := q.phase + x.port (b + 1)
  let wrap := decide (65536 ≤ ph)
  let noise := if wrap ∧ mode = 1 then noiseStep false q.noise else if wrap ∧ mode = 2 then noiseStep true q.noise else q.noise
  let hi := if mode = 0 then decide (ph % 65536 < duty * 4096) else bitOf noise 0
  let raw : Int := if mode = 3 then 0 else if hi then 8388352 else -8388352
  ({ x with au := { x.au with qv := x.au.qv.set (v - 24) { q with phase := ph % 65536, noise := noise } } },
    asr (raw * asr q.env.e 8) 15)

/-- The generators of voice v. -/
def Audio.gens (a : Audio) (v : Nat) : List EnvGen :=
  if v < 16 then [(a.sv.getD v {}).env]
  else if v < 24 then (a.fm.getD (v - 16) {}).envs
  else [(a.qv.getD (v - 24) {}).env]

/-- Voice v is active (R312). -/
def Audio.active (a : Audio) (v : Nat) : Bool := (a.gens v).any EnvGen.live

/-- Map the generators of voice v, each with its number. -/
def Audio.mapGens (a : Audio) (v : Nat) (f : Nat → EnvGen → EnvGen) : Audio :=
  if v < 16 then
    let q := a.sv.getD v {}
    { a with sv := a.sv.set v { q with env := f 0 q.env } }
  else if v < 24 then
    let q := a.fm.getD (v - 16) {}
    { a with fm := a.fm.set (v - 16) { q with envs := (List.range 4).map (fun k => f k (q.envs.getD k {})) } }
  else
    let q := a.qv.getD (v - 24) {}
    { a with qv := a.qv.set (v - 24) { q with env := f 0 q.env } }

/-- The ENVA port of generator k of voice v; ENVB is the port after it. -/
def envPort (v k : Nat) : Nat :=
  if v < 16 then 0x8A6 + 8 * v else if v < 24 then 0x945 + 16 * (v - 16) + 3 * k else 0x922 + 4 * (v - 24)

/-- A voice with an empty ring (R317). -/
def SVoice.emptied (q : SVoice) : SVoice := { q with rp := 0, fp := 0, buf := [], sub := 0, ready := false }

/-- Apply one queued act to its voice (R311, R317, R319, R320). -/
def BSide.applyKey (x : BSide) (k : AuAct) : BSide :=
  match k with
  | .key v on idx loop =>
    let a := x.au.mapGens v (fun _ g => g.key on)
    if on && decide (v < 16) then
      let q := a.sv.getD v {}
      let q1 := { q with frac := 0, pred := 0, idx := min 87 idx, ready := false }
      { x with au := { a with sv := a.sv.set v (if loop then q1.emptied else q1) } }
    else { x with au := a }
  | .ring v => { x with au := { x.au with sv := x.au.sv.set v (x.au.sv.getD v {}).emptied } }

/-- Step every generator once (R310). -/
def BSide.stepEnvs (x : BSide) : BSide :=
  { x with au := (List.range 32).foldl (fun a v =>
      a.mapGens v (fun k g => g.step (x.port (envPort v k)) (x.port (envPort v k + 1)))) x.au }

/-- The voice filter (R327) on value y of voice v. -/
def BSide.filter (x : BSide) (v : Nat) (y : Int) : BSide × Int :=
  let c := x.port (0x800 + 4 * v)
  let mode := bitsOf c 4 3
  if bitOf c 2 ∨ mode = 0 then (x, y)
  else
    let st := x.au.svf.getD v (0, 0)
    let f : Int := (x.port (0x802 + 4 * v) : Nat)
    let q : Int := (x.port (0x803 + 4 * v) : Nat)
    let lp := sat24 (st.1 + asr (f * st.2) 15)
    let hp := sat24 (y - lp - asr (q * st.2) 14)
    let bp := sat24 (st.2 + asr (f * hp) 15)
    ({ x with au := { x.au with svf := x.au.svf.set v (lp, bp) } },
      if mode = 1 then lp else if mode = 2 then bp else hp)

/-- The wide sums of the buses and of the three group meters (R328, R337). -/
structure Sums where
  ml : Int := 0
  mr : Int := 0
  dl : Int := 0
  dr : Int := 0
  fx : Int := 0
  groups : List (Int × Int) := [(0, 0), (0, 0), (0, 0)]
  deriving DecidableEq, Repr

/-- Process voice v: its value, its filter, and its place in the sums (R328). An inactive voice reads nothing and contributes nothing (R312), but its
phases, its noise register and its filter go on (R322, R324, R326, R327). -/
def State.voice (s : State) (x : Berth) (m : Sums) (v : Nat) : State × Berth × Sums :=
  let act := x.side.au.active v
  let r : State × Berth × Int :=
    if v < 16 then (if act then s.sampleVoice x v else (s, x, 0))
    else if v < 24 then (s, { x with side := (x.side.fmVoice v).1 }, (x.side.fmVoice v).2)
    else (s, { x with side := (x.side.qVoice v).1 }, (x.side.qVoice v).2)
  let fl := r.2.1.side.filter v r.2.2
  if !act then (r.1, { r.2.1 with side := fl.1 }, m)
  else
    let c := x.side.port (0x800 + 4 * v)
    let pan := x.side.port (0x801 + 4 * v)
    let l := asr (fl.2 * ((pan % 256 : Nat) : Int)) 7
    let rr := asr (fl.2 * ((pan / 256 : Nat) : Int)) 7
    let g := if v < 16 then 0 else if v < 24 then 1 else 2
    let old := m.groups.getD g (0, 0)
    let m1 := { m with groups := m.groups.set g (old.1 + l, old.2 + rr) }
    let m2 := if bitOf c 2 then { m1 with dl := m1.dl + l, dr := m1.dr + rr }
      else { m1 with ml := m1.ml + l, mr := m1.mr + rr, fx := m1.fx + asr (fl.2 * ((c / 256 : Nat) : Int)) 8 }
    (r.1, { r.2.1 with side := fl.1 }, m2)

/-- The shift of R329 for n active inputs. -/
def autoShift (n : Nat) : Nat := if n ≤ 1 then 0 else Nat.log2 (n - 1) + 1

/-- The shifts in force at an instant: those counted for the block, 0 for a bus whose AUTOSCALE is 0 (R329). -/
def BSide.setShifts (x : BSide) : BSide :=
  let ctl := x.port 0x9C0
  { x with au := { x.au with
      smain := if bitOf ctl 1 then x.au.nmain else 0
      sfx := if bitOf ctl 2 then x.au.nfx else 0
      sdir := if bitOf ctl 3 then x.au.ndir else 0 } }

/-- Count the active inputs of the buses at an instant whose index is a multiple of 16 (R329). -/
def BSide.countShifts (x : BSide) : BSide :=
  let act := (List.range 32).filter x.au.active
  let direct := fun v => bitOf (x.port (0x800 + 4 * v)) 2
  let wet := b2n (x.port 0x9CC != 0 || x.port 0x9CF != 0)
  let nm := (act.filter (fun v => !direct v)).length + wet
  let nf := (act.filter (fun v => !direct v && x.port (0x800 + 4 * v) / 256 != 0)).length
  let nd := (act.filter direct).length
  { x with au := { x.au with nmain := autoShift nm, nfx := autoShift nf, ndir := autoShift nd } }

/-- One read of the effects area (R333, R340): a denied access reads 0 and sets FXDENIED, a poisoned word reads 0 and sets FXPOISON.
logged says that this instant has already written its one record. -/
def State.fxRead (s : State) (x : Berth) (logged : Bool) (off : Nat) : State × Berth × Bool × Int :=
  let sel := bitsOf (x.side.port 0x9C4) 3 0
  let wa := x.side.gaddr sel (x.side.port 0x9C5 * 64 + off)
  let m : Master := { cls := 0, id := x.id }
  let den := { x with side := x.side.hwSet 0x9E6 1 }
  if !(x.side.descN sel).r then (s, den, logged, 0)
  else match s.ledgerCheck x.die x.die wa m .read with
    | some _ => (if logged then s else (s.cellRead x.die x.die wa m).2, den, true, 0)
    | none => match s.cellRead x.die x.die wa m with
      | (.ok v, t) => (t, x, logged, v.toInt)
      | (_, t) => (t, { x with side := x.side.hwSet 0x9E6 2 }, logged, 0)

/-- One write of the effects area (R333, R340), entered in the undo log. -/
def State.fxWrite (s : State) (x : Berth) (logged : Bool) (off : Nat) (v : Int) : State × Berth × Bool :=
  let sel := bitsOf (x.side.port 0x9C4) 3 0
  let d := x.side.descN sel
  let wa := x.side.gaddr sel (x.side.port 0x9C5 * 64 + off)
  let m : Master := { cls := 0, id := x.id }
  let den := { x with side := x.side.hwSet 0x9E6 1 }
  if !(d.r && d.w) then (s, den, logged)
  else match s.ledgerCheck x.die x.die wa m .write, s.ledgerCheck x.die x.die wa m .read with
    | none, none => match s.undoEntry x wa with
      | (true, t, y) => (t.bankWrite x.die wa (wInt v) m, y, logged)
      | (false, t, y) => (t, y, logged)
    | some _, _ => (if logged then s else (s.cellWrite x.die x.die wa (wInt v) m).2, den, true)
    | none, some _ => (if logged then s else (s.cellRead x.die x.die wa m).2, den, true)

/-- Comb line k of the reverb for bus value inp (R331): answers t. -/
def State.comb (s : State) (x : Berth) (logged : Bool) (inp : Int) (k : Nat) : State × Berth × Bool × Int :=
  let w := x.side.au.revW
  let dk := let d := x.side.port (0x9C8 + k) % 4096; if d = 0 then 1 else d
  let r := s.fxRead x logged (4096 * k + (w + 4096 - dk) % 4096)
  let t := r.2.2.2 * 256
  let y := r.2.1
  let d0 := y.side.au.damp.getD k 0
  let dn := sat24 (d0 + asr ((t - d0) * ((y.side.port 0x9C6 : Nat) : Int)) 15)
  let y1 := { y with side := { y.side with au := { y.side.au with damp := y.side.au.damp.set k dn } } }
  let v := sat16 (asr (sat24 (inp + asr (dn * ((y.side.port 0x9C7 : Nat) : Int)) 15)) 8)
  let wr := r.1.fxWrite y1 r.2.2.1 (4096 * k + w) v
  (wr.1, wr.2.1, wr.2.2, t)

/-- Comb lines k onward of the reverb, n of them, with the taps they answer (R331). -/
def State.combs (s : State) (x : Berth) (logged : Bool) (inp : Int) (taps : List Int) (k : Nat) : Nat → (State × Berth × Bool) × List Int
  | 0 => ((s, x, logged), taps)
  | n + 1 =>
    let c := s.comb x logged inp k
    c.1.combs c.2.1 c.2.2.1 inp (taps ++ [c.2.2.2]) (k + 1) n

/-- The delay line for bus value inp (R332, R333): its return, left and right. -/
def State.delayLine (s : State) (x : Berth) (logged : Bool) (inp : Int) : State × Berth × Int :=
  let w := x.side.au.dlyW
  let d := let d := x.side.port 0x9CD % 16384; if d = 0 then 1 else d
  let rd := s.fxRead x logged (16384 + (w + 16384 - d) % 16384)
  let t := rd.2.2.2 * 256
  let v := sat16 (asr (sat24 (inp + asr (t * ((x.side.port 0x9CE : Nat) : Int)) 15)) 8)
  let wr := rd.1.fxWrite rd.2.1 rd.2.2.1 (16384 + w) v
  (wr.1, wr.2.1, asr (t * ((x.side.port 0x9CF : Nat) : Int)) 15)

/-- The write positions of the effects move on by one (R331, R332). -/
def BSide.fxAdvance (x : BSide) : BSide :=
  { x with au := { x.au with revW := (x.au.revW + 1) % 4096, dlyW := (x.au.dlyW + 1) % 16384 } }

/-- The effects (R331 to R333): reverb and delay of FX bus value inp, the returns left and right. -/
def State.effects (s : State) (x : Berth) (inp : Int) : State × Berth × Int × Int :=
  if !bitOf (x.side.port 0x9C0) 0 then (s, x, 0, 0)
  else
    let c := s.combs x false inp [] 0 4
    let t := fun k => c.2.getD k 0
    let wet : Int := (x.side.port 0x9CC : Nat)
    let rl := asr (asr (t 0 - t 1 + t 2 - t 3) 1 * wet) 15
    let rr := asr (asr (t 0 + t 1 - t 2 - t 3) 1 * wet) 15
    let z := c.1.1.delayLine c.1.2.1 c.1.2.2 inp
    (z.1, { z.2.1 with side := z.2.1.side.fxAdvance }, rl + z.2.2, rr + z.2.2)

/-- One band of the equaliser on one channel (R334): the output before sat24 limits it decides CLIP. -/
def Biquad.run (q : Biquad) (b0 b1 b2 a1 a2 x : Int) : Biquad × Int × Bool :=
  let raw := asr (b0 * x + b1 * q.x1 + b2 * q.x2 - a1 * q.y1 - a2 * q.y2 + 8192) 14
  let y := sat24 raw
  ({ x1 := x, x2 := q.x1, y1 := y, y2 := q.y1 }, y, decide (raw ≠ y))

/-- The equaliser on one channel (R334): the bands whose EQEN bit is 1, in series. -/
def eqChain (x : BSide) (qs : List Biquad) (v : Int) : List Biquad × Int × Bool :=
  let en := bitsOf (x.port 0x9C0) 7 4
  (List.range 4).foldl (fun (acc : List Biquad × Int × Bool) b =>
    if bitOf en b then
      let co := fun i => (w16 (x.port (0x9D0 + 5 * b + i))).toInt
      let r := (acc.1.getD b {}).run (co 0) (co 1) (co 2) (co 3) (co 4) acc.2.1
      (acc.1.set b r.1, r.2.1, acc.2.2 || r.2.2)
    else acc) (qs, v, false)

/-- The absolute value a meter takes, with -8,388,608 taken as 8,388,607 (R337). -/
def meterAbs (v : Int) : Nat := if v = -8388608 then 8388607 else v.natAbs

/-- Feed a meter one instant's pair. -/
def Meter.feed (m : Meter) (p : Int × Int) : Meter := { m with run := max m.run (max (meterAbs p.1) (meterAbs p.2)) }

/-- A meter's update at the end of a block (R338). -/
def Meter.block (m : Meter) (hold decay : Nat) : Meter :=
  let p := m.run
  if m.held ≤ p then { run := 0, peak := p, held := p, hold := hold }
  else if 0 < m.hold then { run := 0, peak := p, held := m.held, hold := m.hold - 1 }
  else { run := 0, peak := p, held := max p (m.held - m.held / 2 ^ decay - 1), hold := 0 }

/-- The audio source of the BI (R341): some voice with STIE and one of STARVE, DENIED, POISON. -/
def BSide.audioLevel (x : BSide) : Bool :=
  (List.range 32).any (fun v => bitOf (x.port (0x800 + 4 * v)) 5 && bitsOf (x.port (0x880 + v)) 7 5 != 0)

/-- The keys queued, the generators and, where the instant's index is a multiple of 16, the shifts of a sample instant (R310, R311, R329). -/
def BSide.sampleStart (x : BSide) : BSide :=
  let x1 := x.au.keys.foldl BSide.applyKey x
  let x2 := { x1 with au := { x1.au with keys := [] } }.stepEnvs
  (if x.au.scount % 16 = 0 then x2.countShifts else x2).setShifts

/-- The voices of a sample instant in order, with their sums (R328). -/
def State.sampleVoices (s : State) (x : Berth) : State × Berth × Sums :=
  (List.range 32).foldl (fun (acc : State × Berth × Sums) v => acc.1.voice acc.2.1 acc.2.2 v) (s, { x with side := x.side.sampleStart }, {})

/-- The audio source of the BI becomes pending where it holds and did not before (R341). -/
def BSide.audioRaise (x : BSide) (lev0 : Bool) : BSide := if x.audioLevel && !lev0 then { x with bi := x.bi.set 11 } else x

/-- The end of sample instant n (R329, R330, R334 to R341): buses m under the shifts of a, the returns retL and retR, the equaliser, the outputs, the
meters and CLIP; lev0 says whether the audio source of the BI held before. -/
def BSide.sampleOut (x : BSide) (m : Sums) (a : Audio) (retL retR : Int) (n : Nat) (lev0 : Bool) : BSide × (Int × Int) :=
  let fx := sat24 (asr m.fx a.sfx)
  let ml := sat24 (asr m.ml a.smain)
  let mr := sat24 (asr m.mr a.smain)
  let dl := sat24 (asr m.dl a.sdir)
  let dr := sat24 (asr m.dr a.sdir)
  let ml2 := sat24 (ml + retL)
  let mr2 := sat24 (mr + retR)
  let el := eqChain x x.au.eqL ml2
  let er := eqChain x x.au.eqR mr2
  let master : Int := (x.port 0x9C3 : Nat)
  let de := x.au.lastE.getD 47 (0, 0)
  let dd := x.au.lastD.getD 1 (0, 0)
  let rawL := asr ((de.1 + dd.1) * master) 15
  let rawR := asr ((de.2 + dd.2) * master) 15
  let out := (sat24 rawL, sat24 rawR)
  let clipM := decide (ml ≠ asr m.ml a.smain ∨ mr ≠ asr m.mr a.smain ∨ ml2 ≠ ml + retL ∨ mr2 ≠ mr + retR) || el.2.2 || er.2.2
  let clip := b2n clipM + 2 * b2n (decide (fx ≠ asr m.fx a.sfx)) +
    4 * b2n (decide (dl ≠ asr m.dl a.sdir ∨ dr ≠ asr m.dr a.sdir)) + 8 * b2n (decide (out.1 ≠ rawL ∨ out.2 ≠ rawR))
  let feeds := [(el.2.1, er.2.1), (fx, fx), (dl, dr), out] ++ m.groups
  let mt := (x.au.meters.zip feeds).map (fun p => p.1.feed p.2)
  let cfg := x.port 0x9E5
  let mt2 := if n % 16 = 15 then mt.map (fun q => q.block (bitsOf cfg 7 0) (bitsOf cfg 11 8)) else mt
  let x1 := x.hwSome 0x9F4 clip
  let x2 := { x1 with au := { x1.au with
    scount := (n + 1) % 2 ^ 32, eqL := el.1, eqR := er.1, meters := mt2
    lastE := ((el.2.1, er.2.1) :: x1.au.lastE).take 48, lastD := ((dl, dr) :: x1.au.lastD).take 2 } }
  (x2.audioRaise lev0, out)

/-- The place of sample n in its block and packet (R296, R344): a full packet is made by the watch in progress. A packet begins on a block, and its length
is fixed then by the ABLKS latched at the last output frame start. Its FRAME and LINE are those of its last sample (DESIGN CHOICE, assumption log 137). -/
def Berth.samplePacket (y : Berth) (n : Nat) (out : Int × Int) : Berth :=
  let start := decide (y.side.au.packet = [])
  let len := if start then (if n % 16 = 0 then 16 * y.gen.ablks else 0) else y.side.au.packetLen
  let pkt := if len = 0 then [] else y.side.au.packet ++ [out]
  let full := decide (len ≠ 0 ∧ len ≤ pkt.length)
  let pbt := if start then y.side.bt - 1 else y.side.au.packetBt
  let blk : AudioBlock := ⟨(n + 1 + 2 ^ 32 - pkt.length) % 2 ^ 32, pbt, y.side.beam.l, y.side.beam.frame, pkt⟩
  { y with
    side := { y.side with au := { y.side.au with packet := if full then [] else pkt, packetBt := pbt, packetLen := if full then 0 else len } }
    cur := if full then { y.cur with audio := y.cur.audio ++ [blk] } else y.cur }

/-- The whole of one sample instant of a berth (R307 to R340): keys, generators, voices, buses, effects, equaliser, output, meters, and
the sample's place in its block and packet (R344). -/
def State.sampleInstant (s : State) (x : Berth) : State × Berth :=
  let n := x.side.au.scount
  let v := s.sampleVoices x
  let a := v.2.1.side.au
  let e := v.1.effects v.2.1 (sat24 (asr v.2.2.fx a.sfx))
  let o := e.2.1.side.sampleOut v.2.2 a e.2.2.1 e.2.2.2 n x.side.audioLevel
  (e.1, { e.2.1 with side := o.1 }.samplePacket n o.2)

end Sys2Proof.Machine
end

