-- ==== Sys2Proof/Machine/Berths.lean ====
section
/-! DEFINITION. Operations on a berth as the harbour sees it: slots and self-test slices, parking without rollback, lag and the
governor, and what a frame boundary fixes for the governor, the scan-out and the skip policy (R22 to R31, R91, R100 to R103, R272,
R273, R280, R508, R510, R516, R543). -/

namespace Sys2Proof.Machine

/-- The 16 DETAIL bytes from values with their widths in bytes, zero-padded (R461). -/
def detail (l : List (Nat × Nat)) : List Byte :=
  let b := l.foldl (fun acc p => acc ++ leBytes p.2 p.1) []
  (b ++ List.replicate 16 0).take 16

/-- Length of a slice in ns at DCLK 1.2 GHz (Table 14-8). -/
def sliceLen (kind : Nat) : Nat :=
  match kind with
  | 0 => 480000 | 1 => 860000 | 2 => 860000 | 3 => 120000 | 4 => 150000 | 5 => 640000 | _ => 270000

/-- The power domain code of the unit of a slice (R477, R526): none for a unit of the die's own logic. -/
def sliceDomain (kind unit : Nat) : Option Nat :=
  match kind with
  | 0 => some (unit / 32 % 16)
  | 1 | 3 | 4 => some (unit % 16)
  | 5 => some (0x18 + unit % 18 / 6)
  | 6 => some (0x10 + unit / 2048)
  | _ => none

/-- Queue a slice of a unit, at the head for a slot left by a fault (R508, R516); none for a unit in a domain that is not ON
(R526). -/
def State.queueSlice (s : State) (d kind unit : Nat) (head : Bool) : State :=
  let on := match sliceDomain kind unit with
    | some c => decide (s.domain d c = 0)
    | none => true
  if !on ∨ s.slices.any (fun z => z.die = d ∧ z.kind = kind ∧ z.unit = unit) then s
  else
    let z : Slice := ⟨d, kind, unit, sliceLen kind, false, 0, s.htime⟩
    if head then { s with slices := s.slices.filter (·.running) ++ [z] ++ s.slices.filter (fun q => !q.running) }
    else { s with slices := s.slices ++ [z] }

/-- A slot becomes TEST: its FAULTTEST bit as given, and its slice is queued (R508, R510, R511). -/
def State.slotToTest (s : State) (d k n : Nat) (fault : Bool) : State :=
  let t := (s.setSlot d k n 2).setFlag (dockAddr d k R.DK_FAULTTEST) n fault
  t.queueSlice d 0 (slotLoc d k n) fault

/-- The dock has nothing left to finish for a berth before it is parked or leaves (R259, R356): its composable lines are released, and no Ferry manifest
of it runs but in stream mode. -/
def Berth.dockDone (x : Berth) : Bool :=
  x.pipe.lines.isEmpty && x.fq.all (fun i => !i.started || bitOf (i.man.getD 0 0).toNat 2)

/-- The dock may let a berth be parked with a cause: composable lines travel unreleased for cause PIPE (R259). -/
def Berth.mayPark (x : Berth) (cause : Nat) : Bool :=
  ({ x with pipe := { x.pipe with lines := if cause = 2 then [] else x.pipe.lines } } : Berth).dockDone

/-- MC_VER of a bank of a dock's control store (R581). -/
def State.mcVer (s : State) (d k bank : Nat) : Nat :=
  s.reg (dockAddr d k (if s.fld (dockAddr d k R.MC_CTL) 0 0 = bank then R.MC_VER else R.MC_IDLEVER))

/-- MC_VER that the current checkpoint of a berth in a slot records (R582). -/
def State.ckptVer (s : State) (x : Berth) : Nat := s.mcVer x.die x.dock ((x.ckpt.map (fun c => c.side.bank)).getD x.side.bank)

/-- Park a berth where it stands, with no rollback (R510 steps 2 to 4): its slot becomes TEST, it holds no slot, its lag is discarded,
EV_BERTH_PARKED is posted. It stays frozen until its dock has done with it. -/
def State.parkHere (s : State) (x : Berth) (cause : Nat) : State :=
  if !x.mayPark cause then s.setBerth { x with parkReq := some cause }
  else
    let y := { x with
      parked := true, moving := false, reloc := 0, dest := none, closeReq := false, parkCause := cause, parkReq := none, gapCause := some 4, parkVer := s.ckptVer x
      freezes := x.freezes.filter (fun f => decide (f = .storeFull)) ++ [.parked] }
    let loc := slotLoc x.die x.dock x.slot
    ((s.setBerth y).slotToTest x.die x.dock x.slot false).post 0x02 (some x.id) x.die (detail [(loc, 2), (cause, 1)])

/-- Park the berth if a fault of its accesses asks for it (Table 2-6). -/
def State.settlePark (s : State) (b : Nat) : State :=
  match s.berth b with
  | some x => match x.parkReq with
    | some c => s.parkHere x c
    | none => s
  | none => s

/-- Berth time stands still (R91): some freeze holds, the berth is to be parked, or it is not running. -/
def Berth.frozen (x : Berth) : Bool := !x.started || x.parked || x.parkReq.isSome || !x.freezes.isEmpty

/-- Harbour time of grid point k, for every integer k (R100). -/
def gridPoint (phase num den : Nat) (k : Int) : Int := phase + k * num / den

/-- The number of the last grid point at or before harbour time t. -/
def gridBefore (phase num den : Nat) (t : Int) : Int := ((t - phase + 1) * den - 1) / num

/-- The number of the first grid point at or after harbour time t. -/
def gridAfter (phase num den : Nat) (t : Int) : Int := gridBefore phase num den (t - 1) + 1

/-- The governor's reference is harbour time (R100, R101). -/
def Gov.htime (g : Gov) : Bool := decide (g.mode = 1) && !g.lockerr

/-- Picoseconds of the reference per microcycle, a fraction (R89, R100): 480 microcycles per µs, or N_f microcycles over the reference length of the
frame. -/
def Gov.per (g : Gov) (geo : Geometry) : Int × Int :=
  if g.htime then
    ((gridPoint g.fpphase g.fpnum g.fpden (g.gridK + 1) - gridPoint g.fpphase g.fpnum g.fpden g.gridK) * 1000 * geo.inc,
      (geo.htotal * geo.vtotal * 2 ^ 30 : Nat))
  else (6250, 3)

/-- Reference time in ps at which microcycle refBt is due. -/
def Gov.base (g : Gov) : Int := if g.htime then gridPoint g.fpphase g.fpnum g.fpden g.gridK * 1000 + g.offset else g.refT

/-- Reference time in ps at which the reference counts microcycle bt (R89, R100): where the unlagged beam is (R271). -/
def Gov.due (g : Gov) (geo : Geometry) (bt : Nat) : Int := g.base + ((bt : Int) - g.refBt) * (g.per geo).1 / (g.per geo).2

/-- Microcycles the reference has counted by a reference time in ps. -/
def Gov.counted (g : Gov) (geo : Geometry) (t : Int) : Int := g.refBt + (t - g.base) * (g.per geo).2 / (g.per geo).1 + 1

/-- The BCLK cycle in which microcycle bt is granted (R89): the one in which the reference counts it, or the next one while the berth is behind. -/
def Gov.grant (g : Gov) (geo : Geometry) (bt : Nat) : Gov :=
  { g with clk := g.clk + 5 * max 1 ((g.due geo bt * 3 / 1000 - g.clk) / 5) }

/-- The reference from here on: microcycle bt is due at reference time t, in ps. -/
def Gov.anchor (g : Gov) (t : Int) (bt : Nat) : Gov := { g with refT := t, refBt := bt, clk := max g.clk (t * 3 / 1000) }

/-- The berth's reference is harbour time (R100, R101). -/
def Berth.htimeMode (x : Berth) : Bool := x.gov.htime

/-- Reference time in ps: harbour time, with the correction still to be applied (R36, R103). -/
def State.refNow (s : State) : Int := (s.htime : Int) * 1000 + s.corr / 5

/-- Harbour time of the last BCLK cycle granted to a berth. -/
def State.clkTime (s : State) (x : Berth) : Nat := ((x.gov.clk * 1000 / 3 - s.corr / 5) / 1000).toNat

/-- Lag in microcycles (R91): what the reference has counted beyond what the berth was granted, by its last cycle or, in a freeze, by now. A berth
held for alignment has none (Table 3-1). -/
def State.lag (s : State) (x : Berth) : Nat :=
  if x.parked || x.freezes.contains .align then 0
  else
    let t := if x.frozen then max (x.gov.clk * 1000 / 3) s.refNow else x.gov.clk * 1000 / 3
    (x.gov.counted x.side.beam.geo t - x.side.bt).toNat

/-- The governor of a berth whose watches have all committed is set: a rollback goes back to it. -/
def Berth.setReference (x : Berth) (g : Gov) : Berth := { x with gov := g, ckpt := x.ckpt.map (fun c => { c with gov := g }) }

/-- Start counting lag from here: what stood as lag is discarded (R100). -/
def State.dropLag (s : State) (x : Berth) : Berth := x.setReference (x.gov.anchor s.refNow x.side.bt)

/-- When no freeze holds any longer, grants go on from now (R91, R102). -/
def State.thaw (s : State) (x : Berth) : Berth :=
  if x.freezes.isEmpty then { x with gov := { x.gov with clk := max x.gov.clk (s.refNow * 3 / 1000) } } else x

/-- The pairing of R101 is valid: FPDEN nonzero and N_f within 0.456 P and 0.504 P. -/
def pairingValid (g : Geometry) (num den : Nat) : Bool :=
  den != 0 && g.inc != 0 && decide (456 * num * g.inc ≤ 1000 * den * (g.htotal * g.vtotal * 2 ^ 30) ∧
    1000 * den * (g.htotal * g.vtotal * 2 ^ 30) ≤ 504 * num * g.inc)

/-- Pixel time in picoseconds (R94). -/
def pixelPs (g : Geometry) : Nat := 2 ^ 30 * 1000000 / (480 * g.inc)

/-- The grid point nearest to reference time t (ps), and the offset of R103 from it in ps; half a period is removed by delay. -/
def gridOffset (phase num den : Nat) (t : Int) : Int × Int :=
  let k := gridBefore phase num den (t / 1000)
  let late := t - gridPoint phase num den k * 1000
  let early := gridPoint phase num den (k + 1) * 1000 - t
  if late < early then (k, late) else (k + 1, -early)

/-- The reference itself has changed, and the frame in progress began at t (ps) of it: an HTIME berth takes the change as an offset (R103). -/
def Gov.offsetFrom (g : Gov) (t : Int) : Gov :=
  if g.htime then
    let z := gridOffset g.fpphase g.fpnum g.fpden t
    { g with gridK := z.1, offset := z.2, frameT := t }
  else { g with frameT := t }

/-- The reference moves by d ps (R103): every berth's times move with it, and an HTIME berth takes the change as an offset. -/
def Gov.shift (g : Gov) (d : Int) : Gov :=
  { g with refT := g.refT + d, clk := g.clk + d * 3 / 1000 }.offsetFrom (g.frameT + d)

/-- What a generator keeps of the reference, after it has moved by d ps: FREE output takes the change as an offset from its grid (R275). -/
def Gen.shift (g : Gen) (d : Int) : Gen :=
  let t := (g.startT : Int) * 1000 + d
  { g with
    startT := (t / 1000).toNat, endT := ((g.endT : Int) + d / 1000).toNat
    foff := if g.free ∧ g.fnum ≠ 0 ∧ g.fden ≠ 0 then (gridOffset g.fphase g.fnum g.fden t).2 else 0 }

/-- What a frame keeps of the reference, after it has moved by d ps. -/
def FrameInfo.shift (i : FrameInfo) (d : Int) : FrameInfo :=
  { i with gov := i.gov.shift d, passClk := i.passClk.map (fun c => c + d * 3 / 1000) }

/-- A berth's governor and generator, and what its frames and checkpoints keep, after the reference has moved by d ps. -/
def Berth.shiftRef (x : Berth) (d : Int) : Berth :=
  { x with
    gov := x.gov.shift d, gen := x.gen.shift d, frames := x.frames.map (fun (i : FrameInfo) => i.shift d)
    ended := x.ended.map (fun r => { r with gov := r.gov.shift d }), ckpt := x.ckpt.map (fun c => { c with gov := c.gov.shift d }) }

/-- The correction of harbour time still to be applied becomes c fifths of a ps: the reference moves by the difference, at once, and every beam takes
it as an offset (R36, R103, R440, assumption log 134). -/
def State.setCorr (s : State) (c : Int) : State :=
  let d := c / 5 - s.corr / 5
  { s with corr := c, berths := s.berths.map (fun e => (e.1, e.2.shiftRef d)) }

/-- The value of a slot-block register that travels with the berth. -/
def Berth.reg (x : Berth) (off : Nat) : Nat :=
  let d := match rowAt .slot 0 off with
    | some r => r.reset
    | none => 0
  (tget x.regs off (w32 d)).toNat

/-- Set a slot-block register that travels with the berth. -/
def Berth.setReg (x : Berth) (off v : Nat) : Berth :=
  let d := match rowAt .slot 0 off with
    | some r => r.reset
    | none => 0
  { x with regs := tput x.regs off (w32 v) (w32 d) }

/-- WATCH of BM_WATCHCFG in µs (R489). -/
def Berth.watchUs (x : Berth) : Nat := bitsOf (x.reg R.BM_WATCHCFG) 5 0

/-- LEADMIN of R272 for a geometry and a watch length in µs. -/
def leadMin (g : Geometry) (watch : Nat) : Nat :=
  let cover := max 40 (2 * watch + 11)
  1 + (cover * 480 * g.inc + g.htotal * 2 ^ 30 - 1) / (g.htotal * 2 ^ 30)

/-- A scale k is valid for a frame (R280). -/
def scaleOk (x : Berth) (g : Geometry) (k : Nat) : Bool :=
  let free := bitOf (x.reg R.DP_OUTCFG) 2
  decide (k * g.hvis ≤ 7680 ∧ k * g.vvis ≤ 4320) &&
  (if free then
    decide (bitsOf (x.reg R.DP_OHORZ) 12 0 * bitsOf (x.reg R.DP_OVERT) 12 0 * bitsOf (x.reg R.DP_OFPDEN) 15 0 * 10 ≤
      12 * x.reg R.DP_OFPNUM)
  else decide (k * k * 480 * g.inc ≤ 1200 * 2 ^ 30))

/-- The largest valid scale that does not exceed n; 1 is always valid (R280). -/
def bestScale (x : Berth) (g : Geometry) : Nat → Nat
  | 0 => 1
  | 1 => 1
  | n + 1 => if scaleOk x g (n + 1) then n + 1 else bestScale x g n

/-- A berth skips while either ladder has reached its priority level (R540, R541, R543). -/
def State.skipWanted (s : State) (x : Berth) : Bool :=
  decide (x.prio < max (s.fld R.PW_LADDER 11 8) (s.fld (dieAddr x.die R.PW_TJ) 23 20))

/-- The governor's part of a frame boundary (R101, R103): settings written since take effect, LOCKERR is decided, and a change of the
reference becomes an offset; prev is the geometry of the frame that ends. -/
def Berth.govFrame (x : Berth) (prev : Geometry) : Berth :=
  let mode := bitsOf (x.reg R.BM_GOVCFG) 0 0
  let num := x.reg R.BM_FPNUM
  let den := bitsOf (x.reg R.BM_FPDEN) 15 0
  let ph := x.reg R.BM_FPPHASE
  let g := x.side.beam.geo
  let err := decide (mode = 1) && !pairingValid g num den
  let old := x.gov
  let bt := x.side.beam.frameBt
  let t := old.due prev bt
  let g1 := { old with mode := mode, fpnum := num, fpden := den, fpphase := ph, lockerr := err, frameT := t, refT := t, refBt := bt }
  let same := decide ((mode, num, den, ph) = (old.mode, old.fpnum, old.fpden, old.fpphase)) && !old.lockerr
  { x with gov :=
      if !g1.htime then { g1 with offset := 0 }
      else if same then
        { g1 with gridK := old.gridK + 1, frameT := gridPoint ph num den (old.gridK + 1) * 1000 + old.offset }
      else g1.offsetFrom t }

/-- A line's nominal time in ns in a frame of a geometry under a governor, at least 1. -/
def Gov.lineNs (g : Gov) (geo : Geometry) : Nat :=
  max 1 (((g.per geo).1 * (geo.htotal * 2 ^ 30 : Nat) / ((g.per geo).2 * geo.inc)) / 1000).toNat

/-- LEADEFF as DP_OSTAT shows it for a frame: its lead, raised by the delay of R274 in whole lines. -/
def FrameInfo.leadEff (i : FrameInfo) : Nat :=
  let tl := i.gov.lineNs i.geo
  i.lead + (i.delay + tl - 1) / tl

/-- EFFLEAD at a frame boundary (R272, R273), LEADMIN being lmin: against the frame before, it falls by at most that frame's vertical blanking. -/
def Berth.effLead (x : Berth) (lmin : Nat) : Nat :=
  let want := min (max (bitsOf (x.reg R.DP_OUTCFG) 27 16) lmin) (x.side.beam.geo.vtotal - 1)
  match x.frames.find? (fun i => decide (i.frame + 1 = x.side.beam.frame)) with
  | some i => max want (i.leadEff - (i.geo.vtotal - i.geo.vvis))
  | none => want

/-- The scale asked for: values 0 and 7 act as 1 (R280). -/
def Berth.wantScale (x : Berth) : Nat :=
  let asked := bitsOf (x.reg R.DP_OUTCFG) 6 4
  if asked = 0 ∨ asked = 7 then 1 else asked

/-- What is fixed for the frame that begins, with its lead, its scale and its skip mark (R97, R272). -/
def Beam.info (m : Beam) (lead scale : Nat) (skip : Bool) (gov : Gov) : FrameInfo :=
  { frame := m.frame, startBt := m.frameBt, pos := m.c * 2 ^ 30 + m.acc % 2 ^ 30, geo := m.geo, lead := lead, scale := scale, skip := skip, gov := gov }

/-- Frame f is still being composed, read or shown, or follows one that is. -/
def Berth.usesFrame (x : Berth) (f : Nat) : Bool :=
  let held := fun (o : Option (Nat × Nat)) => match o with
    | some e => decide (e.1 = f)
    | none => false
  decide (x.side.beam.frame ≤ f + 8) || held x.gen.hold0 || held x.gen.hold1 || decide (x.gen.shown = some f ∨ x.gen.frame = some f) ||
  x.pipe.lines.any (fun r => decide (r.frame = f))

/-- Keep what is fixed for the frame that begins, with the skip policy as it stands, beside the frames still in use (R280, R293, R543). -/
def Berth.fixFrame (x : Berth) (i : FrameInfo) (skipping : Bool) : Berth :=
  { x with
    scale := i.scale, skipping := skipping, frameSkip := i.skip
    frames := x.frames.filter (fun j => decide (j.frame < i.frame) && x.usesFrame j.frame) ++ [i] }

/-- Berth time at which line l of a frame begins, its geometry running on as it is (R96, R97). -/
def FrameInfo.lineBt (i : FrameInfo) (l : Nat) : Nat :=
  let target := l * i.geo.htotal * 2 ^ 30
  if target ≤ i.pos ∨ i.geo.inc = 0 then i.startBt else i.startBt + (target - i.pos + i.geo.inc - 1) / i.geo.inc

/-- The frame after a frame, counted under the same geometry and governor as though no commit changed them (R271). -/
def FrameInfo.next (i : FrameInfo) : FrameInfo :=
  let full := i.geo.htotal * i.geo.vtotal * 2 ^ 30
  let b := i.lineBt i.geo.vtotal
  let g := if i.gov.htime then { i.gov with gridK := i.gov.gridK + 1, refBt := b } else i.gov
  { i with frame := i.frame + 1, startBt := b, pos := i.pos + (b - i.startBt) * i.geo.inc - full, gov := g, delay := 0 }

/-- Harbour time in ns at which the unlagged beam reaches microcycle bt of a frame (R271). -/
def FrameInfo.time (i : FrameInfo) (bt : Nat) : Nat := (i.gov.due i.geo bt / 1000).toNat

/-- What is fixed for frame f of a berth; a frame whose boundary the beam has not reached is counted on from the latest one. -/
def Berth.frameInfo (x : Berth) (f : Nat) : FrameInfo :=
  match x.frames.find? (fun i => decide (i.frame = f)) with
  | some i => i
  | none =>
    let last := x.frames.getLast?.getD (x.side.beam.info 0 1 false x.gov)
    if last.frame < f then (List.range (min (f - last.frame) 16)).foldl (fun i _ => i.next) last else last

/-- The time at which the line n lines after (f, l) begins on the unlagged beam, counted across frame boundaries (R271). -/
def Berth.lineAfter (x : Berth) (i : FrameInfo) (l : Nat) : Nat → Nat
  | 0 => i.time (i.lineBt l)
  | n + 1 => if l + 1 < i.geo.vtotal then x.lineAfter i (l + 1) n else x.lineAfter (x.frameInfo (i.frame + 1)) 0 n

/-- Harbour time at which the generator begins to read source line l of beam frame f in LOCKED output (R271, R274). -/
def Berth.readTime (x : Berth) (f l : Nat) : Nat :=
  let i := x.frameInfo f
  x.lineAfter i l i.lead + i.delay

/-- The delay of the first frame of a LOCKED timeline that starts again: its reads begin no earlier than the end of the output frame in progress (R274). -/
def Berth.restartDelay (x : Berth) : Berth :=
  let f := x.side.beam.frame
  if x.gen.restart && !x.gen.free && decide (x.gen.nextF = f) then
    let d := x.gen.endT - x.readTime f 0
    let y := { x with
      gen := { x.gen with restart := false }
      frames := x.frames.map (fun (i : FrameInfo) => if i.frame = f then { i with delay := d } else i) }
    y.setReg R.DP_OSTAT (putBits (y.reg R.DP_OSTAT) 27 16 (y.frameInfo f).leadEff)
  else x

/-- The scan-out's and the skip policy's part of a frame boundary (R272 to R274, R280, R543). -/
def State.outFrame (s : State) (x : Berth) : Berth :=
  let g := x.side.beam.geo
  let lmin := leadMin g x.watchUs
  let eff := x.effLead lmin
  let k := bestScale x g x.wantScale
  let st1 := putBits (putBits (putBits (putBits (x.reg R.DP_OSTAT) 11 0 lmin) 12 12 (b2n (decide (g.vtotal - 1 < lmin)))) 14 14
    (b2n (decide (k < x.wantScale)))) 27 16 eff
  let skip := s.skipWanted x
  let m := x.side.beam
  let fs := skip && decide (m.frame % max 2 (s.fld R.PW_THPOL 28 24) ≠ 0)
  ((x.setReg R.DP_OSTAT st1).fixFrame (m.info eff k fs x.gov) skip).restartDelay

/-- The berth's own part of a frame boundary (R97, R113, R114): BM_FRAME counts, an armed commit copies the shadows and, when it is
valid, the geometry; stamps of the frame that ended are folded away. -/
def BSide.frameStep (x : BSide) (cls : Nat) : BSide :=
  let m := x.beam
  let live := x.carry
  let g := x.shadowGeo
  let ok := g.valid cls
  let m1 := { m with
    frame := m.frame + 1, arm := false, commit := if m.arm then some x.shadow else none,
    geo := if m.arm && ok then g else m.geo, geoerr := m.geoerr || (m.arm && !ok) }
  let y := { x with
    beam := m1, base := if m.arm then x.shadow else live,
    stamps := x.stamps.filter (fun t => decide (m.frame < t.frame)) }
  if m.arm && !ok then y.hwSet 0xBC3 0x20 else y

/-- The record of the line the beam has just left, when it is visible (R110, R205). -/
def Berth.lineRec (x : Berth) (m : Beam) : List LineRec :=
  if m.l < m.geo.vvis then
    [{ frame := m.frame, line := m.l, geo := m.geo, desc := x.side.desc, btime := m.lineBt, endBt := x.side.bt,
       commit := if m.l = 0 then m.commit else none, skip := x.frameSkip }]
  else []

/-- The core waits in WAIT, WAITL or WAITC (R156). -/
def CoreState.waiting : CoreState → Bool
  | .waitBI => true
  | .waitL _ => true
  | .waitC _ _ _ => true
  | _ => false

/-- The beam advances by one microcycle (R88, R89, R94 to R96, R159). m1 and adv are the beam's step. -/
def Berth.beamTick (x : Berth) (m1 : Beam) (adv : Advance) : Berth :=
  { x with
    gov := x.gov.grant x.side.beam.geo x.side.bt
    side := { x.side with
      bt := x.side.bt + 1, beam := m1, w1cNow := []
      bi := { x.side.bi with setNow := 0, lines := x.side.bi.lines + b2n adv.newLine }
      core := if adv.newLine then x.side.core.newLine else x.side.core }
    cur := { x.cur with lines := x.cur.lines ++ if adv.newLine then x.lineRec x.side.beam else [] } }

/-- A frame boundary of a berth (R97, R113, R114, R408); old is the geometry before it. -/
def State.frameTick (s : State) (x : Berth) (old : Geometry) : Berth :=
  let y := { x with side := x.side.frameStep s.prof.cls }.govFrame old
  s.outFrame { y with side := { y.side with bi := y.side.bi.set 14 } }

/-- The beam advances by one microcycle, with the frame boundary that falls in it. -/
def State.beamStep (s : State) (x : Berth) (m1 : Beam) (adv : Advance) : Berth :=
  if adv.boundary then s.frameTick (x.beamTick m1 adv) x.side.beam.geo else x.beamTick m1 adv

/-- The offset being slewed becomes o, in the governor and in what the frame in progress keeps of it (R103, R271). -/
def Berth.slewTo (x : Berth) (o : Int) : Berth :=
  if x.gov.offset = o then x
  else { x with
    gov := { x.gov with offset := o }
    frames := x.frames.map (fun (i : FrameInfo) => if i.frame = x.side.beam.frame then { i with gov := { i.gov with offset := o } } else i) }

/-- The beam passes the end of line VVIS - 1 of its frame now (R253). -/
def Berth.passVis (x : Berth) : Berth :=
  { x with frames := x.frames.map (fun (i : FrameInfo) => if i.frame = x.side.beam.frame then { i with passClk := some x.gov.clk } else i) }

/-- What a new line brings about: the line interrupts, the slew of the governor's offset, and the triggers that wait for the line (R103, R348,
R408). -/
def Berth.lineStep (x : Berth) : Berth :=
  let l := x.side.beam.l
  let i1 := if l = x.side.bi.lcmp then x.side.bi.set 13 else x.side.bi
  let i2 := if l = x.side.beam.geo.vvis then i1.set 15 else i1
  let y := { x with side := { x.side with bi := i2 } }
  let ps : Int := pixelPs y.side.beam.geo
  let o := y.gov.offset
  let o1 := if o < 0 then min 0 (o + ps) else max 0 (o - ps)
  let z := if l = x.side.beam.geo.vvis then (y.slewTo o1).passVis else y.slewTo o1
  (z.fireFerries (manLine l)).fireJobs (jobLine l)

/-- The timer write that falls on timer n. -/
def twFor (tw : Option (Fin 4 × TimerWrite)) (n : Fin 4) : Option TimerWrite :=
  match tw with
  | some (k, w) => if k = n then some w else none
  | none => none

/-- One step of timer n of a berth, with what its match brings about (R348, R385 to R389). -/
def Berth.timerHit (x : Berth) (adv : Advance) (smp : Bool) (tw : Option (Fin 4 × TimerWrite)) (n : Fin 4) : Berth :=
  let t := x.side.timers[n]
  let r := t.step (t.adv adv smp) (twFor tw n)
  let y1 := { x with side := { x.side with timers := x.side.timers.set n r.1 } }
  if r.2 then
    let y2 := { y1 with side := { (y1.side.markNow (0xA00 + 16 * n.val) 16) with bi := y1.side.bi.set n.val } }
    y2.fireFerries (fun mn => decide (manTrig mn = 2 ∧ bitsOf (mn.getD 0 0).toNat 6 5 = n.val))
  else y1

/-- The end of a microcycle: its charge against the pace budget, which comes before a port read in it (assumption log 142), and the moderation of the BI
after a change from oldPe (R159, R406). -/
def Berth.microEnd (x : Berth) (charged : Bool) (oldPe : Word32) : Berth :=
  let k := x.side.core
  { x with side := { x.side with
      core := if charged then { k with charges := k.charges + 1 } else k
      bi := x.side.bi.settle oldPe k.st.waiting false
      au := { x.side.au with sacc := (x.side.au.sacc + 1) % 10000 } } }

/-- Spend one microcycle on a berth (R88, R90): the beam advances; a boundary, a new line, a sample instant, timer matches, triggers
and the BI follow in it; charged says whether it counts against the pace budget (R159); tw is a timer value written in it (R389). -/
def State.micro (s : State) (b : Nat) (charged : Bool) (tw : Option (Fin 4 × TimerWrite) := none) : State :=
  match s.berth b with
  | none => s
  | some x =>
    let st := x.side.beam.step x.side.bt
    let x3 := (s.beamStep x st.1 st.2).deadlines
    let x4 := if st.2.newLine then x3.lineStep else x3
    let smp := decide (x4.side.au.sacc = 0)
    let z := if smp then s.sampleInstant x4 else (s, x4)
    let x7 := (List.finRange 4).foldl (fun (y : Berth) (n : Fin 4) => y.timerHit st.2 smp tw n) z.2
    z.1.setBerth (x7.microEnd charged (x.side.bi.pend &&& x.side.bi.en))

/-- Spend n microcycles. -/
def State.micros (s : State) (b : Nat) (charged : Bool) : Nat → State
  | 0 => s
  | n + 1 => (s.micro b charged).micros b charged n

end Sys2Proof.Machine
end

