-- ==== Sys2Proof/Machine/Pads.lean ====
section
/-! DEFINITION. The pads of the GPIO pins: what drives them, their levels, their events, and the edges of a switch of function (R588 to R601). -/

namespace Sys2Proof.Machine

/-- DCLK of a die in MHz (HB_CLKSTAT, R541). -/
def State.dclk (s : State) (d : Nat) : Nat := 1200 - 100 * s.fld (dieAddr d R.HB_CLKSTAT) 5 4

/-- A bit of a number set to a truth value. -/
def setBit (v n : Nat) (b : Bool) : Nat := putBits v n n (b2n b)

/-- An event of pin n of its EVT mode: the flag, and the HIC or the berth it is lent to (R595, R598). -/
def State.pinEvent (s : State) (n : Nat) (edge : Bool) : State :=
  let t := s.setFlag (R.GP_EVTLO + 4 * (n / 32)) (n % 32) true
  if t.flag (R.LG_PIN + 4 * n) 11 then
    t.modBerth (t.fld (R.LG_PIN + 4 * n) 10 0) (fun x =>
      let o : OutsideRec := { chg := .pinEvent n }
      if x.outside.contains o then x else { x with outside := x.outside ++ [o] })
  else if edge then t.hicSet 0 (448 + n)
  else t

/-- The pad of pin n takes a level, and two DCLK edges later its synchronised level does: events, tachometer edges and GENLOCK stamps follow
(R588, R594, R595). -/
def State.padChange (s : State) (n : Nat) (level : Bool) : State :=
  let old := s.syncBit n
  let t := s.withLevel 0 (448 + n) (fun u => { u with pads := setBit u.pads n level, sync := setBit u.sync n level })
  let new := t.syncBit n
  let rise := !old && new
  let fall := old && !new
  let hit := match bitsOf (t.pinCfg n) 11 9 with
    | 1 => rise
    | 2 => fall
    | 3 => rise || fall
    | _ => false
  let t1 := if hit then t.pinEvent n true else if t.pinHolds n then t.pinEvent n false else t
  let alt := decide (bitsOf (t.pinCfg n) 1 0 = 1)
  if alt && fall && decide (12 ≤ n ∧ n < 16) then
    { t1 with toggles := tput t1.toggles (n - 12) (tget t1.toggles (n - 12) 0 + 1) 0 }
  else if alt && rise && decide (n = 25) then
    ((t1.addFld R.GP_GLCNT 31 0 1).setReg R.GP_GLTSLO (t1.now % 2 ^ 32)).setReg R.GP_GLTSHI (t1.now / 2 ^ 32)
  else t1

/-- What the alternate function of pin n drives (Table 17-2): an input nothing, an open-drain output at most a low level. What a waveform or traffic
decides is free (assumption log 139). -/
def State.altDrive (s : State) (n : Nat) : Option Bool :=
  let low := Config.altLow n s.htime
  if n = 5 ∨ (12 ≤ n ∧ n < 16) ∨ n = 25 then none
  else if n = 4 then some (!low)
  else if 8 ≤ n ∧ n < 12 then
    match s.fld (R.GP_FAN + 4 * (n - 8)) 7 0 with
    | 0 => none
    | 255 => some false
    | _ => if low then some false else none
  else if n = 24 then (if s.flag R.GP_REFOUT 8 then some (!low) else some false)
  else if low then some false else none

/-- What the device drives on the pad of pin n (R587, R591, Tables 1-8 and 17-4): nothing while the package is not on, in a bank without a good supply, in
analogue mode, and from edge 2 to edge 3 of a switch. -/
def State.padDrive (s : State) (n : Nat) : Option Bool :=
  let bank := s.fld R.GP_BANKV (2 * (n / 8) + 1) (2 * (n / 8))
  let cfg := s.pinCfg n
  if s.keeper.phase ≠ .on ∨ bank = 0 ∨ bank = 3 ∨ (s.switchOf n).any (fun w => w.kept) then none
  else match cfg % 4 with
    | 0 =>
      let out := s.flag (R.GP_OUTLO + 4 * (n / 32)) (n % 32)
      if !s.flag (R.GP_OELO + 4 * (n / 32)) (n % 32) || (bitOf cfg 8 && out) then none else some out
    | 1 => s.altDrive n
    | _ => none

/-- The level of the pad of pin n while the device does not drive it: the board's, else its pull's; none where nothing but the pad's own last level or
nothing at all holds it. -/
def State.padRest (s : State) (n : Nat) : Option Bool :=
  match tfind s.outside n with
  | some v => some v
  | none =>
    if (s.switchOf n).any (fun w => w.kept) then none
    else match bitsOf (s.pinCfg n) 7 6 with
      | 1 => some false
      | 2 => some true
      | _ => none

/-- Bit n of GP_PADLVL: the live level at the pad, whatever drives it (R594); 0 in analogue mode (R590). -/
def State.padLevel (s : State) (n : Nat) : Bool :=
  !s.analogPin n && ((s.padDrive n).getD ((s.padRest n).getD (bitOf s.pads n)))

/-- Bit n of GP_SYNCIN as a read shows it (R594). -/
def State.syncView (s : State) (n : Nat) : Bool := if s.pinCfg n % 4 = 1 then s.padLevel n else s.syncBit n

/-- The pad of pin n has a level. -/
def State.toLevel (s : State) (n : Nat) (v : Bool) : State := if bitOf s.pads n = v then s else s.padChange n v

/-- The pad of pin n takes the level of what drives or holds it now (R591, Table 17-4): with nothing else the bus keeper holds it, from a switch out of
analogue mode at a low level, and a pad that nothing holds takes a free level (assumption log 139). -/
def State.settlePad (s : State) (n : Nat) : State :=
  match s.padDrive n, s.padRest n with
  | some v, _ => s.toLevel n v
  | none, some v => s.toLevel n v
  | none, none => match s.switchOf n with
    | some w => s.toLevel n (bitOf s.pads n && w.old % 4 != 2)
    | none => if bitsOf (s.pinCfg n) 7 6 = 3 then s else
      let (v, t) := s.draw
      t.toLevel n (v % 2 = 1)

/-- What decides the level of the pad of pin n. -/
def State.padBy (s : State) (n : Nat) : Option Bool × Option Bool := (s.padDrive n, s.padRest n)

/-- Run an update that can change what drives pads: the pads for which it does take their new levels (R591). -/
def State.withPads (s : State) (f : State → State) : State :=
  (List.range 48).foldl (fun (t : State) n => if s.padBy n = t.padBy n then t else t.settlePad n) (f s)

/-- The board gives the pad of pin n a level, which it shows while the device does not drive it (R591, R594). -/
def State.boardLevel (s : State) (n : Nat) (v : Bool) : State := { s with outside := tins s.outside n v }.settlePad n

/-- Store the switch of a pin. -/
def State.setSwitch (s : State) (w : Switch) : State :=
  { s with switches := s.switches.map (fun x => if x.pin = w.pin then w else x) }

/-- Run an update of the settings that act on pin n (R590, R595): a level mode that holds, or an edge mode when a pin leaves analogue mode with its pad high,
makes an event. -/
def State.newCfg (s : State) (n : Nat) (f : State → State) : State :=
  let t := s.withLevel 0 (448 + n) f
  let m := bitsOf (t.pinCfg n) 11 9
  if t.pinHolds n then t.pinEvent n false
  else if (m = 1 ∨ m = 3) ∧ s.syncBit n = false ∧ t.syncBit n = true then t.pinEvent n true
  else t

/-- DCLK edges of die 0 in n ns. -/
def State.dclkEdges (s : State) (n : Nat) : Nat := n * s.dclk 0 / 1000

/-- The edges of the switch of pin n that harbour time has reached (Table 17-4, R601): edge 2 of the first write, and edge 3 of the last, at which the new
function drives the pad. -/
def State.pinEdges (s : State) (n : Nat) : State :=
  match s.switchOf n with
  | none => s
  | some w =>
    let t := if !w.kept && decide (2 ≤ s.dclkEdges (s.htime - w.first)) then
        (s.newCfg n (fun u => u.setSwitch { w with kept := true })).settlePad n
      else s
    if 3 ≤ s.dclkEdges (s.htime - w.last) then
      { t with switches := t.switches.filter (fun x => decide (x.pin ≠ n)) }.settlePad n
    else t

/-- The edges that harbour time has reached of every switch in progress. -/
def State.pinTime (s : State) : State := s.switches.foldl (fun (t : State) w => t.pinEdges w.pin) s

end Sys2Proof.Machine
end

