-- ==== Sys2Proof/Machine/Ports.lean ====
section
/-! DEFINITION. The berth I/O space: what an IN returns and what an OUT does, port by port (R15, R105 to R116, R141 to R143, R309, R357 to R361,
R370, R371, R390, R409, R436, R596). -/

namespace Sys2Proof.Machine

/-- BM_STAT (port 0xBC3). -/
def BSide.bmStat (x : BSide) : Nat :=
  let m := x.beam
  let g := m.geo
  b2n (decide (g.hvis ≤ m.c)) + 2 * b2n (decide (g.vvis ≤ m.l)) +
  4 * b2n (decide (g.hsyncs ≤ m.c ∧ m.c < g.hsyncs + g.hsyncw)) +
  8 * b2n (decide (g.vsyncs ≤ m.l ∧ m.l < g.vsyncs + g.vsyncw)) + 16 * b2n m.arm + 32 * b2n m.geoerr

/-- A read of a berth timer's value port (R390): offset 1 to 6 of its block. LO latches HI. -/
def BTimer.read (t : BTimer) (o : Nat) : Nat × BTimer :=
  match o with
  | 1 => (t.cnt.toNat % 65536, { t with laCnt := w16 (t.cnt.toNat / 65536) })
  | 2 => (t.laCnt.toNat, t)
  | 3 => (t.cmp.toNat % 65536, { t with laCmp := w16 (t.cmp.toNat / 65536) })
  | 4 => (t.laCmp.toNat, t)
  | 5 => (t.int.toNat % 65536, { t with laInt := w16 (t.int.toNat / 65536) })
  | 6 => (t.laInt.toNat, t)
  | _ => (0, t)

/-- AU_VnSTAT (port 0x880 + v). -/
def BSide.voiceStat (x : BSide) (v : Nat) : Nat :=
  ((x.au.gens v).getD 0 {}).phase + 8 * b2n (x.au.active v) +
  16 * b2n (decide (v < 16) && (x.au.sv.getD v {}).starving) + (x.port (0x880 + v) &&& 0xE0)

/-- The computed audio ports; none for a port whose stored value an IN returns. -/
def BSide.audioPort (x : BSide) (p : Nat) : Option Nat :=
  if 0x880 ≤ p ∧ p < 0x8A0 then some (x.voiceStat (p - 0x880))
  else if 0x8A0 ≤ p ∧ p < 0x920 ∧ p % 8 = 3 then some (x.au.sv.getD ((p - 0x8A0) / 8) {}).rp
  else if p = 0x9C1 then some (x.au.scount % 65536)
  else if p = 0x9C2 then some (match x.au.latchHi with | some w => w.toNat | none => x.au.scount / 65536)
  else if p = 0x9E4 then some (x.au.smain + 16 * x.au.sfx + 256 * x.au.sdir)
  else if p = 0x9E6 then some ((x.port p &&& 3) + 4 * b2n x.au.inputVoice.isSome)
  else if 0x9E8 ≤ p ∧ p < 0x9F4 then
    let m := x.au.meters.getD ((p - 0x9E8) / 2) {}
    some (bitsOf (if p % 2 = 0 then m.peak else m.held) 23 8)
  else if p = 0x9F5 then some (bitsOf (x.au.meters.getD 6 {}).peak 23 8)
  else if p = 0x9F6 then some (bitsOf (x.au.meters.getD 6 {}).held 23 8)
  else none

/-- What an IN from port p returns in the current microcycle, and the latches it sets (R141, R142); reserved ports return 0 (R15). -/
def Berth.portRead (y : Berth) (p : Nat) : Nat × Berth :=
  let x := y.side
  let m := x.beam
  if p < 0x400 then ((match portRow p with | some _ => (x.liveAt p m.frame m.l m.c).toNat | none => 0), y)
  else if p < 0x800 then ((match portRow (p - 0x400) with | some _ => (x.shadowOf (p - 0x400)).toNat | none => 0), y)
  else match portRow p with
  | none => (0, y)
  | some row =>
    if p = 0x9C1 then
      (x.au.scount % 65536, { y with side := { x with au := { x.au with latchHi := some (w16 (x.au.scount / 65536)) } } })
    else if p < 0xA00 then ((x.audioPort p).getD (x.port p), y)
    else if p < 0xA40 then
      let n : Fin 4 := ⟨(p - 0xA00) / 16 % 4, Nat.mod_lt _ (by decide)⟩
      let t := x.timers[n]
      if p % 16 = 0 then (b2n t.en + 2 * b2n t.auto + 4 * t.src + 16 * b2n t.mat, y)
      else
        let r := t.read (p % 16)
        (r.1, { y with side := { x with timers := x.timers.set n r.2 } })
    else if p < 0xB00 then
      let n : Fin 4 := ⟨(p - 0xA80) / 16 % 4, Nat.mod_lt _ (by decide)⟩
      let c := x.fc[n]
      match p % 16 with
      | 8 => (0, y)
      | 9 => (c.state + 4 * b2n c.overrun + 16 * c.result, y)
      | 10 => (c.count % 65536, y)
      | 11 => (c.count / 65536 % 2, y)
      | 12 => (c.diff, y)
      | _ => (x.port p, y)
    else if p < 0xB80 then
      let q := x.lj
      if p = 0xB10 then (0, y)
      else if p = 0xB11 then
        (q.outst.length + 16 * q.nextTag + 256 * b2n q.fullErr + 512 * b2n q.badJob, y)
      else if p = 0xB13 then (q.done, y)
      else if p = 0xB14 then (q.wmark, y)
      else if p = 0xB15 then
        ((match q.outst with
          | [] => 0
          | t :: _ => ((q.rows.find? (fun (e : Nat × Nat) => e.1 = t)).map (·.2)).getD 0), y)
      else if 0xB18 ≤ p then (q.res.getD (p - 0xB18) 0, y)
      else (x.port p, y)
    else if p < 0xBC0 then
      let i := x.bi
      match p with
      | 0xB80 => (i.pend.toNat % 65536, y)
      | 0xB81 => (i.pend.toNat / 65536, y)
      | 0xB82 => (i.en.toNat % 65536, y)
      | 0xB83 => (i.en.toNat / 65536, y)
      | 0xB84 => ((match i.top with | some n => n + 0x8000 | none => 0), y)
      | 0xB86 => (i.count + 256 * i.time, y)
      | 0xB87 => (i.lcmp, y)
      | 0xB88 => (b2n i.request + 2 * b2n i.mod.released + 256 * i.mod.nheld, y)
      | _ => (0, y)
    else if p < 0xC00 then
      let k := x.core
      match p with
      | 0xBC0 => (m.l, y)
      | 0xBC1 => (m.c, y)
      | 0xBC2 => (m.frame % 65536, y)
      | 0xBC3 => (x.bmStat, y)
      | 0xBC4 => (b2n m.arm, y)
      | 0xBD4 => (k.cap, y)
      | 0xBD5 => (min 0xFFFF (k.charges + k.overrun), y)
      | 0xBD8 => (k.xcause.toNat, y)
      | 0xBD9 => (k.xoff.toNat, y)
      | 0xBDA => (k.xpc.toNat, y)
      | 0xBDB => (k.xsel.toNat, y)
      | 0xBDC => (y.id, y)
      | 0xBDE => (k.seg[0].toNat + 16 * k.seg[1].toNat + 256 * k.seg[2].toNat + 4096 * k.seg[3].toNat, y)
      | 0xBDF => (k.seg[4].toNat + 16 * k.seg[5].toNat + 256 * k.seg[6].toNat + 4096 * k.seg[7].toNat, y)
      | _ => (x.port p &&& row.mask [.rw, .sh, .ro], y)
    else if p < 0xC40 then
      match p with
      | 0xC00 => (x.pad.wp, y)
      | 0xC01 => (x.pad.rp, y)
      | 0xC04 => (x.pad.drops, y)
      | 0xC05 => (b2n x.pad.ovf, y)
      | _ => (x.port p, y)
    else ((tget x.pins (p - 0xC40) 0).toNat, y)

/-- Queue a stamp at (l, c) of the current frame for LV_ port p (R105, R106); a full queue stalls it, with berth
time frozen as R91 and R116 give (assumption log 141). -/
def Berth.stampAt (y : Berth) (p : Nat) (v : Word) (l c : Nat) : Berth :=
  match portRow p with
  | none => y
  | some row =>
    let e := y.side.beam.effective l c
    let t : Stamp := ⟨e.1, e.2.1, e.2.2, p, v &&& w16 (row.mask [.st])⟩
    if 512 ≤ y.cur.stamps.length then
      { y with
        side := { y.side with stalled := some t }
        freezes := y.freezes ++ [.queueFull], stalls := y.stalls + 1 }
    else
      { y with
        side := { y.side with stamps := y.side.stamps ++ [t] }
        cur := { y.cur with stamps := y.cur.stamps ++ [t] } }

/-- A manifest of Table 10-2 is valid (R361). -/
def manValid (m : List Word) : Bool :=
  let w := fun i => (m.getD i 0).toNat
  let op := bitsOf (w 0) 1 0
  let stream := bitOf (w 0) 2
  let sc := bitOf (w 0) 8
  let dc := bitOf (w 0) 9
  let sk := bitsOf (w 6) 4 0
  let dk := bitsOf (w 6) 12 8
  decide (bitsOf (w 0) 15 11 = 0 ∧ op ≠ 3 ∧ manTrig m ≠ 3) &&
  (if stream then decide (bitsOf (w 1) 15 2 = 0) else true) &&
  (if op = 1 then true
   else if stream then decide (bitsOf (w 2) 14 12 = 0)
   else decide (bitsOf (w 2) 7 6 = 0 ∧ bitsOf (w 2) 15 12 = 0)) &&
  decide (bitsOf (w 4) 7 6 = 0 ∧ bitsOf (w 4) 15 12 = 0 ∧ bitsOf (w 6) 7 5 = 0 ∧ bitsOf (w 6) 15 13 = 0 ∧ bitsOf (w 7) 15 12 = 0) &&
  (!sc || decide (4 ≤ sk ∧ sk ≤ 20)) && (!dc || decide (4 ≤ dk ∧ dk ≤ 20)) &&
  (!stream || decide (op = 0 ∧ sc = false ∧ (w 5 + 1) % 32 = 0))

/-- The manifest that FC_nM0 to FC_nM7 hold. -/
def BSide.manOf (x : BSide) (n : Nat) : List Word := (List.range 8).map (fun i => w16 (x.port (0xA80 + 16 * n + i)))

/-- ABORT on channel n (R359). -/
def Berth.ferryAbort (y : Berth) (n : Fin 4) : Berth :=
  let c := y.side.fc[n]
  if c.state = 1 then { y with side := { y.side with fc := y.side.fc.set n { c with state := 0 } } }
  else if c.state = 2 then { y with cur := { y.cur with starts := y.cur.starts ++ [.ferryAbort n.val] } }
  else y

/-- GO on channel n (R358, R361, and R348 for a trigger that fires in the write microcycle). -/
def Berth.ferryGo (y : Berth) (n : Fin 4) : Berth :=
  let c := y.side.fc[n]
  if c.state = 1 ∨ c.state = 2 then
    { y with side := { (y.side.markNow (0xA89 + 16 * n.val) 4) with fc := y.side.fc.set n { c with overrun := true } } }
  else
    let m := y.side.manOf n.val
    if !manValid m then
      { y with side := { y.side with fc := y.side.fc.set n { c with state := 3, result := 9, man := m } } }
    else
      let tl := bitsOf (m.getD 7 0).toNat 11 0
      let tm := bitsOf (m.getD 0 0).toNat 6 5
      let now := match manTrig m with
        | 0 => true
        | 1 => decide (tl = y.side.beam.l ∨ y.side.beam.geo.vtotal ≤ tl)
        | _ => bitOf (y.side.setBits (0xA00 + 16 * tm)) 4
      let c1 := { c with state := 1, result := 0, count := 0, diff := 0, man := m }
      let y1 := { y with side := { y.side with
        fc := y.side.fc.set n c1, deadlined := y.side.deadlined.filter (· ≠ n.val) } }
      if now then y1.fireFerry n else y1

/-- A job of Table 10-4 is valid (R371). -/
def jobValid (m : List Word) : Bool :=
  let w := fun i => (m.getD i 0).toNat
  let op := bitsOf (w 0) 1 0
  decide (bitsOf (w 0) 15 10 = 0 ∧ op ≠ 3) &&
  (decide (op = 1) || decide (bitsOf (w 2) 7 6 = 0 ∧ bitsOf (w 2) 15 12 = 0 ∧ bitsOf (w 0) 4 2 < 6)) &&
  decide (bitsOf (w 4) 7 6 = 0 ∧ bitsOf (w 4) 15 12 = 0 ∧ bitsOf (w 7) 15 12 = 0 ∧ bitsOf (w 8) 15 12 = 0 ∧
    bitsOf (w 11) 15 12 = 0 ∧ bitsOf (w 12) 15 13 = 0)

/-- PUSH of the job that LJ_J0 to LJ_J12 hold (R370). -/
def Berth.ljPush (y : Berth) : Berth :=
  let q := y.side.lj
  let m := (List.range 13).map (fun i => w16 (y.side.port (0xB00 + i)))
  let full := decide (8 ≤ q.outst.length)
  let bad := !jobValid m
  if full || bad then
    { y with side := { y.side with lj := { q with fullErr := q.fullErr || full, badJob := q.badJob || bad } } }
  else
    let t := q.nextTag
    let tl := bitsOf (m.getD 11 0).toNat 11 0
    let now := !bitOf (m.getD 0 0).toNat 7 || decide (tl = y.side.beam.l ∨ y.side.beam.geo.vtotal ≤ tl)
    let q1 := { q with
      pushes := q.pushes + 1, nextTag := (t + 1) % 8, outst := q.outst ++ [t], jobs := q.jobs ++ [⟨q.pushes, t, m, now⟩],
      done := putBits q.done t t 0, wmark := putBits q.wmark t t 0, res := q.res.set t 0,
      rows := q.rows.filter (fun (e : Nat × Nat) => e.1 ≠ t) }
    let y1 := { y with side := { y.side with lj := q1 } }
    if now then { y1 with cur := { y1.cur with starts := y1.cur.starts ++ [.lighter q.pushes t m (y.side.bt - 1)] } } else y1

/-- A BI write: the pending port keeps the bits hardware set in the microcycle (R401, R409); half 0 is LO, 1 is HI. -/
def BIC.writePend (i : BIC) (half v : Nat) : BIC :=
  let old := i.pend.toNat
  let p := if half = 0 then v + old / 65536 * 65536 else old % 65536 + v * 65536
  { i with pend := w32 p ||| (i.setNow &&& (if half = 0 then 0xFFFF else 0xFFFF0000)) }

/-- The value a timer HI port write carries (R390), for the microcycle that holds it; none for every other port. -/
def Berth.timerWrite (y : Berth) (p v : Nat) : Option (Fin 4 × TimerWrite) :=
  if 0xA00 ≤ p ∧ p < 0xA40 then
    let n : Fin 4 := ⟨(p - 0xA00) / 16 % 4, Nat.mod_lt _ (by decide)⟩
    let t := y.side.timers[n]
    match p % 16 with
    | 2 => some (n, ⟨0, w32 (t.stCnt.toNat + v * 65536)⟩)
    | 4 => some (n, ⟨1, w32 (t.stCmp.toNat + v * 65536)⟩)
    | 6 => some (n, ⟨2, w32 (t.stInt.toNat + v * 65536)⟩)
    | _ => none
  else none

/-- An OUT to an AU_ port (R307, R309, R311, R317, R321, R334). -/
def BSide.audioWrite (x : BSide) (row : PortRow) (p v : Nat) : BSide :=
  let keep := v &&& row.mask [.rw]
  if p < 0x880 then
    let n := (p - 0x800) / 4
    if p % 4 = 0 then
      let act := fun (on : Bool) => AuAct.key n on (bitsOf (x.port (0x8A5 + 8 * n)) 6 0) (decide (n < 16) && bitOf (x.port (0x8A0 + 8 * n)) 2)
      let k := (if bitOf v 0 then [act true] else []) ++ (if bitOf v 1 then [act false] else [])
      let w := if x.au.inputVoice = some n then keep ||| 4 else keep
      { x.setPort p w with au := { x.au with keys := x.au.keys ++ k } }
    else x.setPort p keep
  else if p < 0x8A0 then x.w1c p (v &&& 0xE0)
  else if p < 0x920 then
    let n := (p - 0x8A0) / 8
    let inp := decide (x.au.inputVoice = some n)
    let clr := { x.au with keys := x.au.keys ++ [.ring n] }
    match p % 8 with
    | 0 =>
      let w := if inp then putBits keep 2 2 0 else keep
      let chg := decide (bitsOf w 11 8 ≠ bitsOf (x.port p) 11 8 ∨ bitsOf w 2 2 ≠ bitsOf (x.port p) 2 2)
      if chg then { x.setPort p w with au := clr } else x.setPort p w
    | 1 => { x.setPort p keep with au := clr }
    | 2 => if inp then x else x.setPort p keep
    | 3 => x
    | _ => x.setPort p keep
  else if p = 0x9C0 then
    let rise := bitsOf v 7 4 &&& (15 ^^^ bitsOf (x.port p) 7 4)
    let f := fun (l : List Biquad) => (List.range 4).map (fun b => if bitOf rise b then {} else l.getD b {})
    { x.setPort p keep with au := { x.au with eqL := f x.au.eqL, eqR := f x.au.eqR } }
  else if p = 0x9E6 then x.w1c p (v &&& 3)
  else if p = 0x9F4 then x.w1c p (v &&& 15)
  else if row.mask [.rw] = 0 then x
  else x.setPort p keep

/-- What an OUT of v to port p does in its write microcycle, a timer HI write apart, which the microcycle itself holds (R142). -/
def Berth.portWrite (y : Berth) (p : Nat) (v : Word) : Berth :=
  let x := y.side
  let n := v.toNat
  if p < 0x400 then y.stampAt p v x.beam.l x.beam.c
  else if p < 0x800 then
    match portRow (p - 0x400) with
    | none => y
    | some row => { y with side := { x with
        shadow := tput x.shadow (p - 0x400) (v &&& w16 (row.mask [.st])) (w16 (portDefault (p - 0x400))) } }
  else match portRow p with
  | none => y
  | some row =>
    if p < 0xA00 then
      let z := x.audioWrite row p n
      { y with side := if z.audioLevel && !x.audioLevel then { z with bi := (z.bi.set 11).settle (x.bi.pend &&& x.bi.en) false false } else z }
    else if p < 0xA40 then
      let k : Fin 4 := ⟨(p - 0xA00) / 16 % 4, Nat.mod_lt _ (by decide)⟩
      let t := x.timers[k]
      let t1 := match p % 16 with
        | 0 => { t with
            en := bitOf n 0, auto := bitOf n 1, src := bitsOf n 3 2,
            mat := t.mat && (!bitOf n 4 || bitOf (x.setBits p) 4) }
        | 1 => { t with stCnt := v }
        | 3 => { t with stCmp := v }
        | 5 => { t with stInt := v }
        | _ => t
      { y with side := { x with timers := x.timers.set k t1 } }
    else if p < 0xB00 then
      let k : Fin 4 := ⟨(p - 0xA80) / 16 % 4, Nat.mod_lt _ (by decide)⟩
      if p % 16 < 8 then { y with side := x.setPort p n }
      else if p % 16 = 8 then
        if bitOf n 1 then y.ferryAbort k else if bitOf n 0 then y.ferryGo k else y
      else if p % 16 = 9 then
        if bitOf n 2 then { y with side := { x with fc := x.fc.set k { x.fc[k] with overrun := false } } } else y
      else y
    else if p < 0xB80 then
      let q := x.lj
      if p < 0xB0D then { y with side := x.setPort p n }
      else if p = 0xB10 then (if bitOf n 0 then y.ljPush else y)
      else if p = 0xB11 then
        { y with side := { x with lj := { q with
            fullErr := q.fullErr && !bitOf n 8, badJob := q.badJob && !bitOf n 9 } } }
      else if p = 0xB12 then
        { y with side := x.setPort p (n % 1024), cur := { y.cur with deadt := some (n % 1024) } }
      else if p = 0xB13 then { y with side := { x with lj := { q with done := q.done ^^^ (q.done &&& n) } } }
      else if p = 0xB14 then { y with side := { x with lj := { q with wmark := q.wmark ^^^ (q.wmark &&& n) } } }
      else y
    else if p < 0xBC0 then
      let i := x.bi
      let old := i.pend &&& i.en
      let i1 := match p with
        | 0xB80 => i.writePend 0 n
        | 0xB81 => i.writePend 1 n
        | 0xB82 => { i with en := w32 (n + i.en.toNat / 65536 * 65536) }
        | 0xB83 => { i with en := w32 (i.en.toNat % 65536 + n * 65536) }
        | 0xB85 =>
          if (n % 32 = 11 ∧ x.audioLevel) ∨ (n % 32 = 12 ∧ x.pad.wp ≠ x.pad.rp) then i.set (n % 32) else i
        | 0xB86 => { i with count := n % 256, time := n / 256 }
        | 0xB87 => { i with lcmp := n % 4096 }
        | _ => i
      { y with side := { x with bi := i1.settle old false (p = 0xB86) } }
    else if p < 0xC00 then
      match p with
      | 0xBC3 =>
        if bitOf n 5 && !bitOf (x.setBits 0xBC3) 5 then
          { y with side := { x with beam := { x.beam with geoerr := false } } } else y
      | 0xBC4 => if bitOf n 0 then { y with side := { x with beam := { x.beam with arm := true } } } else y
      | 0xBD4 =>
        { y with side := { x with core := { x.core with cap := n, overrun := if n = 0 then 0 else x.core.overrun } } }
      | _ => if row.mask [.sh] = 0 then y else { y with side := x.setPort p (n &&& row.mask [.sh]) }
    else if p < 0xC40 then
      match p with
      | 0xC01 => { y with side := { x with pad := { x.pad with rp := n } }, cur := { y.cur with padRp := some n } }
      | 0xC05 =>
        if bitOf n 0 then { y with side := { x with pad := { x.pad with ovf := false } } } else y
      | _ => y
    else
      let pin := p - 0xC40
      let old := (tget x.pins pin 0).toNat
      let w := (old &&& 1) + (if bitOf n 1 then 0 else old &&& 2) + (n &&& 0x300)
      { y with
        side := { x with pins := tput x.pins pin (w16 w) 0 }
        cur := { y.cur with pins := y.cur.pins ++ [(pin, w)] } }

/-- A berth may use the GP_ sync view port p: a pin that is lent to it (R83); ports 0xC70 to 0xC7F belong to no pin. -/
def State.pinLent (s : State) (y : Berth) (p : Nat) : Bool :=
  let a := R.LG_PIN + 4 * (p - 0xC40)
  decide (0xC70 ≤ p) || (s.flag a 11 && decide (s.fld a 10 0 = y.id))

end Sys2Proof.Machine
end

