-- ==== Sys2Proof/Machine/Ops.lean ====
section
/-! DEFINITION. What every B16 instruction shares: checked accesses and stack frames of the core, the issue of an instruction with its
microcycles, the end of an instruction, and exception entry (R131, R138, R140, R146 to R150, R160, R165, R169 to R172, R186, R190, R496). -/

namespace Sys2Proof.Machine

/-- Change the core of berth b. -/
def State.modCore (s : State) (b : Nat) (f : Core → Core) : State :=
  s.modBerth b (fun x => { x with side := { x.side with core := f x.side.core } })

/-- General register n of a core. -/
def Core.r (k : Core) (n : Reg) : Word := k.w[n]

/-- A core with general register n set. -/
def Core.setR (k : Core) (n : Reg) (v : Word) : Core := { k with w := k.w.set n v }

/-- Segment register n set to a selector. -/
def Core.setSeg (k : Core) (n : SegReg) (v : BitVec 4) : Core := { k with seg := k.seg.set n v }

/-- W15, the stack pointer. -/
def sp : Reg := 15

/-- S2, the stack segment (R125). -/
def stackSeg : SegReg := 2

/-- What an exception of an access records: vector, segment register, kind, stack mark and offset (BM_XCAUSE, BM_XOFF). -/
structure Cause where
  vec : Nat
  seg : Nat := 0
  kind : Nat := 3
  stack : Bool := false
  off : Nat := 0
  deriving DecidableEq, Repr

/-- How the work of an instruction ends: completed; an exception with the microcycles still to be charged; the berth is to be parked. -/
inductive Fate where
  | done
  | raise (c : Cause) (rest : Nat)
  | park
  deriving DecidableEq, Repr

/-- The master a berth core is (Table 2-3). -/
def coreMaster (x : Berth) : Master := { cls := 0, id := x.id }

/-- The descriptor that segment register n selects (R124). -/
def Berth.segDesc (x : Berth) (n : SegReg) : Desc := x.side.descN (x.side.core.seg[n]).toNat

/-- The die-local word address of an offset through segment register n (R124). -/
def Berth.segAddr (x : Berth) (n : SegReg) (off : Word) : Nat := ((x.segDesc n).base + off.toNat) % 2 ^ 29

/-- The right a kind of access needs (R131 step 2). -/
def Desc.right (d : Desc) : Kind → Bool
  | .read => d.r
  | .write => d.w
  | .exec => d.x

/-- Steps 1 and 2 of R131: vector 2 beyond LIMIT, vector 3 without the right. -/
def Desc.check (d : Desc) (off : Word) (k : Kind) : Option Nat :=
  if d.limit < off.toNat then some 2 else if d.right k then none else some 3

/-- R131 whole: limit, rights, ledger; a ledger denial is logged (R85). -/
def State.coreCheck (s : State) (x : Berth) (n : SegReg) (off : Word) (k : Kind) : Option Nat × State :=
  match (x.segDesc n).check off k with
  | some v => (some v, s)
  | none =>
    match s.ledgerCheck x.die x.die (x.segAddr n off) (coreMaster x) k with
    | some (t, r) => (some 4, s.logViol x.die (coreMaster x) k t r (pkgWord x.die (x.segAddr n off)))
    | none => (none, s)

/-- The vector of a stack access: a limit or rights failure is the stack fault (R140). -/
def stackVec (v : Nat) : Nat := if v = 2 ∨ v = 3 then 6 else v

/-- The answer to an access of the core. -/
inductive CoreRead where
  | ok (v : Word)
  | fault (c : Cause)
  | park
  deriving DecidableEq, Repr

/-- Mark a berth for parking with a cause (Table 2-6). -/
def State.askPark (s : State) (b cause : Nat) : State := s.modBerth b (fun x => { x with parkReq := some cause })

/-- Read the word at an offset from its bank; poisoned data parks the berth with cause CELLAR (Table 2-6). -/
def State.coreFetchWord (s : State) (x : Berth) (n : SegReg) (off : Word) : CoreRead × State :=
  match s.bankRead x.die (x.segAddr n off) (coreMaster x) with
  | (.ok v, t) => (.ok v, t)
  | (.poison, t) => (.park, t.askPark x.id 3)

/-- A checked read of one word through segment register n by LD or an instruction fetch (R131). -/
def State.coreRead (s : State) (x : Berth) (n : SegReg) (off : Word) (k : Kind) : CoreRead × State :=
  match s.coreCheck x n off k with
  | (some v, t) => (.fault { vec := v, seg := n.val, kind := k.code, off := off.toNat }, t)
  | (none, t) => t.coreFetchWord x n off

/-- The berth has visible lines whose end the beam has passed and that are not released (R206). -/
def Berth.linesWait (x : Berth) : Bool :=
  !x.pipe.lines.isEmpty || !x.cur.lines.isEmpty || x.ended.any (fun r => !r.acc.lines.isEmpty)

/-- Engine items of the berth are triggered or released and not complete (R351). -/
def Berth.itemsWait (x : Berth) : Bool :=
  !x.fq.isEmpty || !x.lq.isEmpty || !x.cur.starts.isEmpty || x.ended.any (fun r => !r.acc.starts.isEmpty)

/-- Keep the value old that a core store replaces at word a, with the store's microcycle, while a line composed later or an engine may still see it
(R206, R351). -/
def Berth.keepOld (x : Berth) (a : Nat) (old : Word) : Berth :=
  { x with stores := if x.linesWait || x.itemsWait then x.stores ++ [(x.side.bt - 1, a, old)] else [] }

/-- Store a word that has passed its checks: its undo entry first, then the word (R144, R496). false: the berth is to be parked. -/
def State.coreStore (s : State) (x : Berth) (n : SegReg) (off v : Word) : Bool × State :=
  let a := x.segAddr n off
  match s.undoEntry x a with
  | (true, t, y) => (true, (t.bankWrite x.die a v (coreMaster x)).setBerth (y.keepOld a (s.word (pkgWord x.die a))))
  | (false, t, y) => (false, t.setBerth y)

/-- The offsets of a frame in access order: down from the top for a write, up for a read (R187). -/
def frameOffs (lo len : Nat) (down : Bool) : List Word :=
  let up := (List.range len).map (fun i => w16 (lo + i))
  if down then up.reverse else up

/-- The check of a whole frame (R138, R186): the first failing word in access order decides; a frame that wraps fails at its first word. lo
may be negative. -/
def State.frameCheck (s : State) (x : Berth) (lo : Int) (len : Nat) (k : Kind) : Option Cause × State :=
  let down := decide (k = .write)
  let first := if down then lo + len - 1 else lo
  if lo < 0 ∨ 65536 < lo + len then
    (some { vec := 6, seg := 2, kind := k.code, stack := true, off := (wInt first).toNat }, s)
  else
    (frameOffs lo.toNat len down).foldl (fun (acc : Option Cause × State) off =>
      match acc.1 with
      | some c => (some c, acc.2)
      | none => match acc.2.coreCheck x stackSeg off k with
        | (some v, t) => (some { vec := stackVec v, seg := 2, kind := k.code, stack := true, off := off.toNat }, t)
        | (none, t) => (none, t)) (none, s)

/-- Write words into a checked frame, one per microcycle, from offset top downward (R169, R187). -/
def State.pushWords (s : State) (b : Nat) (top : Word) : List Word → Bool × State
  | [] => (true, s)
  | v :: r =>
    let t := s.micro b true
    match t.berth b with
    | none => (true, t)
    | some x => match t.coreStore x stackSeg top v with
      | (true, u) => u.pushWords b (top - 1) r
      | (false, u) => (false, u)

/-- Read n words of a checked frame, one per microcycle, from offset off upward (R169, R187); none where poisoned data parks the berth. -/
def State.popWords (s : State) (b : Nat) (off : Word) : Nat → Option (List Word) × State
  | 0 => (some [], s)
  | n + 1 =>
    let t := s.micro b true
    match t.berth b with
    | none => (some [], t)
    | some x => match t.coreFetchWord x stackSeg off with
      | (.ok v, u) =>
        let r := u.popWords b (off + 1) n
        (r.1.map (v :: ·), r.2)
      | (_, u) => (none, u)

/-- The end of the watch in progress is due (R489, R491): its length, the undo threshold, a requested close, or a stalled OUT. -/
def Berth.watchDue (x : Berth) : Bool :=
  decide (480 * x.watchUs ≤ x.side.bt - x.cur.start) || decide (4064 ≤ x.cur.undo.length) || x.closeReq ||
  x.side.stalled.isSome

/-- The pace budget lets the core begin in the next microcycle, which may be the first one of a line (R159, R160). -/
def Berth.paceNext (x : Berth) : Bool :=
  (if (x.side.beam.step x.side.bt).2.newLine then x.side.core.newLine else x.side.core).paceOk

/-- The core stands at a boundary from which it may begin an instruction or an entry (R91, R160, R489). -/
def Berth.mayBegin (x : Berth) : Bool := !x.frozen && !x.watchDue && x.paceNext

/-- An interrupt is to be taken at the next boundary (R151, R173). -/
def Berth.interruptDue (x : Berth) : Bool := x.side.core.fl.ie && !x.side.core.hold && x.side.bi.request

/-- The core begins an instruction now: it is in RUN, no entry is pending and no interrupt is to be taken (R202). -/
def Berth.issueReady (x : Berth) : Bool :=
  x.mayBegin && decide (x.side.core.st = .run) && x.side.core.pend.isNone && !x.interruptDue

/-- The core halts on a double fault (R149): BM_XCAUSE records the second fault, and the harbour records the halt. -/
def State.doubleFault (s : State) (b : Nat) (e : Exc) (c : Cause) : State :=
  let t := s.modCore b (fun k => { k with
    st := .halt, double := true, pend := none, pc := e.savedPc,
    xcause := w16 (c.vec + c.seg * 2 ^ 5 + c.kind * 2 ^ 8 + b2n c.stack * 2 ^ 10 + 2 ^ 11),
    xoff := w16 c.off, xpc := e.xpc, xsel := w16 e.xsel.toNat })
  match t.berth b with
  | none => t
  | some x => t.logFault 2 x.die (some b) (slotLoc x.die x.dock x.slot) x.dock [c.vec]

/-- Steps 3 to 5 of exception entry (R148): IE and TF clear, S0 is 0, PC is 2v, the exception ports record the cause. -/
def Core.entered (k : Core) (e : Exc) : Core :=
  { k with
    fl := { k.fl with ie := false, tf := false }, seg := k.seg.set (0 : Fin 8) 0, pc := w16 (2 * e.vec),
    w := k.w.set sp (k.r sp - 3), st := .run, pend := none, hold := false,
    xcause := w16 (e.vec + e.seg * 2 ^ 5 + e.kind * 2 ^ 8 + b2n e.stack * 2 ^ 10),
    xoff := w16 e.off, xpc := e.xpc, xsel := w16 e.xsel.toNat }

/-- FL as a word (FL register table). -/
def Flags.word (f : Flags) : Word :=
  w16 (b2n f.c + 2 * b2n f.z + 4 * b2n f.n + 8 * b2n f.v + 16 * b2n f.ie + 32 * b2n f.tf)

/-- FL from the bits [5:0] of a word. -/
def Flags.ofWord (w : Word) : Flags :=
  { c := bitOf w.toNat 0, z := bitOf w.toNat 1, n := bitOf w.toNat 2, v := bitOf w.toNat 3,
    ie := bitOf w.toNat 4, tf := bitOf w.toNat 5 }

/-- The fetch fault of R149: a fetch at an offset in 0x0000 to 0x003F while S0 = 0. -/
def Exc.fetchDouble (e : Exc) (k : Core) : Bool := decide (e.kind = 2 ∧ e.off < 64) && decide (k.seg[0] = 0)

/-- Exception entry (R148), 8 microcycles, all charged: frame check, frame, then the new state; a frame that fails is a double fault (R149), whose
length is open (assumption log 15). -/
def State.enter (s : State) (b : Nat) (e : Exc) : State :=
  match s.berth b with
  | none => s
  | some x =>
    let k := x.side.core
    if e.fetchDouble k then
      (s.micros b true (Config.doubleFaultLen false).val).doubleFault b e { vec := e.vec, seg := e.seg, kind := e.kind, off := e.off }
    else
      match s.frameCheck x ((k.r sp).toNat - 3 : Int) 3 .write with
      | (some c, t) => (t.micros b true (Config.doubleFaultLen true).val).doubleFault b e c
      | (none, t) =>
        match (t.micros b true 5).pushWords b (k.r sp - 1) [k.fl.word, w16 k.seg[0].toNat, e.savedPc] with
        | (false, u) => u
        | (true, u) => u.modCore b (fun q => q.entered e)

/-- What follows at an instruction boundary without a command: the berth is parked if an access asked for it, and a pending entry runs when
the core may begin it (R160, R202). -/
def State.settle (s : State) (b : Nat) : State :=
  match s.berth b with
  | none => s
  | some x =>
    if x.parkReq.isSome then s.settlePark b
    else match x.side.core.pend with
      | none => s
      | some e => if x.mayBegin then (s.enter b e).settlePark b else s

/-- Fetch the words of an instruction from offset pc, one per microcycle, through S0, and hold each against the word it must be (R126, R166, R169).
i counts the words fetched; none where the cellar holds another word there. -/
def State.fetchWords (s : State) (b : Nat) (pc : Word) (i : Nat) : List Word → Option Fate × State
  | [] => (some .done, s)
  | w :: r =>
    let t := s.micro b true
    match t.berth b with
    | none => (some .done, t)
    | some x => match t.coreRead x 0 pc .exec with
      | (.ok v, u) => if v = w then u.fetchWords b (pc + 1) (i + 1) r else (none, u)
      | (.fault c, u) => (some (.raise c i), u)
      | (.park, u) => (some .park, u)

/-- The exception of an instruction at pc with S0 selector sel. -/
def Cause.exc (c : Cause) (savedPc pc : Word) (sel : BitVec 4) : Exc :=
  { vec := c.vec, savedPc := savedPc, seg := c.seg, kind := c.kind, stack := c.stack, off := c.off, xpc := pc, xsel := sel }

/-- An instruction has completed (R150, R202): it is the last completed one, and the trace exception is pending when it began with TF = 1
and the core still runs. -/
def Core.retired (k : Core) (pc : Word) (sel : BitVec 4) : Core :=
  let k1 := { k with lastPc := pc, lastSel := sel }
  if k.tf0 && decide (k.st = .run) then
    { k1 with pend := some { vec := 7, savedPc := k.pc, xpc := pc, xsel := sel } }
  else k1

/-- The end of an instruction that began at pc with S0 selector sel: completed, or with an exception pending after its remaining
microcycles have been charged (R146, R171). -/
def State.conclude (s : State) (b : Nat) (pc : Word) (sel : BitVec 4) (f : Fate) : State :=
  match f with
  | .done => (s.modCore b (fun k => k.retired pc sel)).settle b
  | .park => s.settle b
  | .raise c rest =>
    ((s.micros b true rest).modCore b (fun k => { k with pend := some (c.exc pc pc sel) })).settle b

/-- The body of an instruction: what it does once its words are fetched and its first microcycles spent. -/
abbrev Body := State → Berth → Fate × State

/-- One instruction of berth b (R126, R147, R160, R165, R169, R202). ws are its words and n its microcycles (Table 5-1), pre the microcycles spent
before its operand accesses, tw a timer value written in microcycle n. Nothing happens unless the core begins an instruction here and these are
the words it fetches (assumption logs 5 and 12). -/
def State.issue (s : State) (b : Nat) (ws : List Word) (n pre : Nat) (body : Body) (tw : Option (Fin 4 × TimerWrite) := none) : State :=
  match s.berth b with
  | none => s
  | some x =>
    if !x.issueReady then s
    else
      let k := x.side.core
      let s1 := s.modCore b (fun q => { q with hold := false, tf0 := q.fl.tf })
      match s1.fetchWords b k.pc 0 ws with
      | (none, _) => s
      | (some .park, t) => t.conclude b k.pc k.seg[0] .park
      | (some (.raise c i), t) => t.conclude b k.pc k.seg[0] (.raise c ((if i = 0 then 2 else n) - (i + 1)))
      | (some .done, t) =>
        let u := if ws.length < pre then (t.micros b true (pre - ws.length - 1)).micro b true tw else t
        match u.berth b with
        | none => u
        | some y =>
          let r := body u y
          r.2.conclude b k.pc k.seg[0] r.1

/-- A body that only changes the core: the next PC is past the instruction's words. -/
def coreBody (words : Nat) (f : Core → Core) : Body := fun s x =>
  (.done, s.modCore x.id (fun k => f { k with pc := k.pc + w16 words }))

/-- An instruction without an operand access: all its microcycles, then its results (R172). -/
def State.issueCore (s : State) (b : Nat) (ws : List Word) (n : Nat) (f : Core → Core) : State :=
  s.issue b ws n n (coreBody ws.length f)

end Sys2Proof.Machine
end

