-- ==== Sys2Proof/Machine/Flags.lean ====
section
/-! DEFINITION. Every flag computation of the B16 reference: results with the flags they leave (Tables 5-2 and 5-3, R178, R191 to R193). -/

namespace Sys2Proof.Machine

/-- zn(r): Z and N from a result. -/
def Flags.zn (f : Flags) (r : Word) : Flags := { f with z := decide (r = 0), n := r.msb }

/-- ADD and ADC: a + b + cin, with carry and signed overflow. -/
def aluAdd (a b : Word) (cin : Bool) (f : Flags) : Word × Flags :=
  let t := a.toNat + b.toNat + b2n cin
  let r := w16 t
  (r, { f with c := decide (65536 ≤ t), v := ((a ^^^ r) &&& (b ^^^ r)).msb }.zn r)

/-- SUB, SBC and CMP: a - b - bin, with borrow and signed overflow. -/
def aluSub (a b : Word) (bin : Bool) (f : Flags) : Word × Flags :=
  let t : Int := (a.toNat : Int) - b.toNat - b2n bin
  let r := wInt t
  (r, { f with c := decide (t < 0), v := ((a ^^^ b) &&& (a ^^^ r)).msb }.zn r)

/-- AND, OR, XOR and TST: the result with C and V cleared. -/
def aluLogic (r : Word) (f : Flags) : Word × Flags := (r, { f with c := false, v := false }.zn r)

/-- MOV and NOT: the result with C and V unchanged. -/
def aluMove (r : Word) (f : Flags) : Word × Flags := (r, f.zn r)

/-- NEG: 0 - b. -/
def aluNeg (b : Word) (f : Flags) : Word × Flags :=
  let r := 0 - b
  (r, { f with c := decide (b ≠ 0), v := decide (b = 0x8000) }.zn r)

/-- The shifts and rotates of major opcode 0xC. -/
inductive ShiftOp where
  | shl | shr | sar | rol | ror | rcl | rcr
  deriving DecidableEq, Repr

/-- The 17-bit rotate through C: C above the word. -/
def rotC (left : Bool) (t : BitVec 17) (n : Nat) : BitVec 17 :=
  if left then t.rotateLeft n else t.rotateRight n

/-- A shift by n (R191): with n = 0 the word and C stay; Z and N come from the result and V is 0. -/
def shiftOp (op : ShiftOp) (a : Word) (n : Nat) (f : Flags) : Word × Flags :=
  let t : BitVec 17 := (BitVec.ofBool f.c) ++ a
  let r : Word := if n = 0 then a else match op with
    | .shl => a <<< n
    | .shr => a >>> n
    | .sar => a.sshiftRight n
    | .rol => a.rotateLeft n
    | .ror => a.rotateRight n
    | .rcl => (rotC true t n).setWidth 16
    | .rcr => (rotC false t n).setWidth 16
  let c : Bool := if n = 0 then f.c else match op with
    | .shl => a.getLsbD (16 - n)
    | .shr => a.getLsbD (n - 1)
    | .sar => a.getLsbD (n - 1)
    | .rol => r.getLsbD 0
    | .ror => r.msb
    | .rcl => (rotC true t n).msb
    | .rcr => (rotC false t n).msb
  (r, { f with c := c, v := false }.zn r)

/-- A product's two words and flags (R192): Z and N from the 32 bits, C and V when it does not fit the 16-bit form. -/
def mulResult (p : Int) (fits : Bool) (f : Flags) : Word × Word × Flags :=
  let q := BitVec.ofInt 32 p
  (wInt (p / 65536), wInt p, { f with c := !fits, v := !fits, z := decide (q = 0), n := q.msb })

/-- MULU: unsigned 16 by 16. -/
def mulU (lo b : Word) (f : Flags) : Word × Word × Flags :=
  let p := lo.toNat * b.toNat
  mulResult p (decide (p < 65536)) f

/-- MULS: signed 16 by 16. -/
def mulS (lo b : Word) (f : Flags) : Word × Word × Flags :=
  let p := lo.toInt * b.toInt
  mulResult p (decide (-32768 ≤ p ∧ p ≤ 32767)) f

/-- DIVU: quotient and remainder of the 32-bit pair; none raises vector 5 (R193). -/
def divU (hi lo b : Word) : Option (Word × Word) :=
  let n := hi.toNat * 65536 + lo.toNat
  if b = 0 ∨ 65535 < n / b.toNat then none else some (w16 (n / b.toNat), w16 (n % b.toNat))

/-- DIVS: quotient truncated towards zero, remainder with the sign of the dividend; none raises vector 5 (R193). -/
def divS (hi lo b : Word) : Option (Word × Word) :=
  let n := (hi ++ lo : BitVec 32).toInt
  let q := n.tdiv b.toInt
  if b = 0 ∨ q < -32768 ∨ 32767 < q then none else some (wInt q, wInt (n.tmod b.toInt))

/-- The flags a division leaves: Z and N from the quotient, C and V 0. -/
def divFlags (q : Word) (f : Flags) : Flags := { f with c := false, v := false }.zn q

/-- A branch condition on the flags (Table 5-3). -/
def condHolds (c : Cond) (f : Flags) : Bool :=
  match c with
  | .bra => true
  | .beq => f.z
  | .bne => !f.z
  | .blo => f.c
  | .bhs => !f.c
  | .bmi => f.n
  | .bpl => !f.n
  | .bvs => f.v
  | .bvc => !f.v
  | .bhi => !f.c && !f.z
  | .bls => f.c || f.z
  | .bge => decide (f.n = f.v)
  | .blt => decide (f.n ≠ f.v)
  | .bgt => !f.z && decide (f.n = f.v)
  | .ble => f.z || decide (f.n ≠ f.v)

end Sys2Proof.Machine
end

