-- ==== Sys2Proof/Machine/Operands.lean ====
section
/-! DEFINITION. The operand forms of the B16 instructions: memory addresses with their base updates, ports, wait operands, targets and immediates
(R141, R166 to R168, R179 to R182, R195, R196). -/

namespace Sys2Proof

open Sys2Proof.Machine

/-- Words of an LD or ST: an extension word for the displacement form. -/
def MemForm.words : MemForm → Nat
  | .disp _ _ _ => 2
  | _ => 1

/-- The segment register of a memory operand. -/
def MemForm.segReg : MemForm → SegReg
  | .base k _ => k
  | .disp k _ _ => k
  | .postInc k _ => k.castLE (by decide)
  | .preDec k _ => k.castLE (by decide)

/-- The offset of a memory operand; sums wrap (R122, R182). -/
def MemForm.offset (m : MemForm) (k : Core) : Word :=
  match m with
  | .base _ b => k.r b
  | .disp _ b e => k.r b + e
  | .postInc _ b => k.r b
  | .preDec _ b => k.r b - 1

/-- The base register's update by a 0x6 form; the other forms leave the core as it is. -/
def MemForm.update (m : MemForm) (k : Core) : Core :=
  match m with
  | .base _ _ => k
  | .disp _ _ _ => k
  | .postInc _ b => k.setR b (k.r b + 1)
  | .preDec _ b => k.setR b (k.r b - 1)

/-- Words of an IN or OUT. -/
def PortOp.words : PortOp → Nat
  | .reg _ => 1
  | .ext _ => 2

/-- The port a port operand names (R141): bits [11:0] of a register, or the extension word. -/
def PortOp.port (p : PortOp) (k : Core) : Nat :=
  match p with
  | .reg r => (k.r r).toNat % 4096
  | .ext w => w.toNat

/-- The extension word of a port operand holds an illegal value: bits [15:12] are not 0. -/
def PortOp.illegal : PortOp → Bool
  | .reg _ => false
  | .ext w => decide (4096 ≤ w.toNat)

/-- Words of a WAITL or WAITC. -/
def WaitOp.words : WaitOp → Nat
  | .reg _ => 1
  | .ext _ => 2

/-- The value of a wait operand of the given width in bits. -/
def WaitOp.value (o : WaitOp) (bits : Nat) (k : Core) : Nat :=
  match o with
  | .reg r => (k.r r).toNat % 2 ^ bits
  | .ext w => w.toNat

/-- The extension word of a wait operand holds an illegal value: its high field is not 0. -/
def WaitOp.illegal (o : WaitOp) (bits : Nat) : Bool :=
  match o with
  | .reg _ => false
  | .ext w => decide (2 ^ bits ≤ w.toNat)

/-- Extension words of a jump target. -/
def Target.words : Target → Nat
  | .ext _ => 1
  | .reg _ => 0

/-- The offset a target names, with registers as they stood at the start (R188). -/
def Target.offset (t : Target) (k : Core) : Word :=
  match t with
  | .ext w => w
  | .reg r => k.r r

/-- Words of a MOVI. -/
def MoviSrc.words : MoviSrc → Nat
  | .short _ => 1
  | .long _ => 2

/-- The value of a MOVI: the 7-bit immediate sign-extended, or the extension word (R179). -/
def MoviSrc.value : MoviSrc → Word
  | .short i => i.signExtend 16
  | .long w => w

/-- The selector of an LDSEG: the immediate, or bits [3:0] of a register. -/
def SegSrc.value (o : SegSrc) (k : Core) : BitVec 4 :=
  match o with
  | .imm n => n
  | .reg r => (k.r r).setWidth 4

/-- The high register of pair p (R121). -/
def pairHi (p : Fin 8) : Reg := ⟨2 * p.val, by omega⟩

/-- The low register of pair p. -/
def pairLo (p : Fin 8) : Reg := ⟨2 * p.val + 1, by omega⟩

/-- W0 to W3, the registers of ADDI, CMPI and ANDI. -/
def lowReg (d : Fin 4) : Reg := d.castLE (by decide)

/-- The registers a CALL or RET mask names, ascending; bit 15 counts as 0 (R136, R137). -/
def maskRegs (m : Word) : List Reg := (List.finRange 16).filter (fun n => decide (n.val < 15) && m.getLsbD n.val)

end Sys2Proof
end

