-- ==== Sys2Proof/Machine/B16Alu.lean ====
section
/-! DEFINITION. The register-to-register and immediate instructions, shifts and rotates, multiply and divide (R172, R178, R179, R191 to R194). -/

namespace Sys2Proof.Machine

/-- A core with a result in Wd and new flags. -/
def Core.put (k : Core) (d : Reg) (r : Word × Flags) : Core := { k.setR d r.1 with fl := r.2 }

/-- MOV Wd, Ws (Table 5-2). -/
def execMov (b : Nat) (d r : Reg) (s : State) : Answer :=
  .next (s.issueCore b (encAlu 0 d r) 2 (fun k => k.put d (aluMove (k.r r) k.fl)))

/-- ADD Wd, Ws (Table 5-2). -/
def execAdd (b : Nat) (d r : Reg) (s : State) : Answer :=
  .next (s.issueCore b (encAlu 1 d r) 2 (fun k => k.put d (aluAdd (k.r d) (k.r r) false k.fl)))

/-- ADC Wd, Ws (Table 5-2, R178). -/
def execAdc (b : Nat) (d r : Reg) (s : State) : Answer :=
  .next (s.issueCore b (encAlu 2 d r) 2 (fun k => k.put d (aluAdd (k.r d) (k.r r) k.fl.c k.fl)))

/-- SUB Wd, Ws (Table 5-2). -/
def execSub (b : Nat) (d r : Reg) (s : State) : Answer :=
  .next (s.issueCore b (encAlu 3 d r) 2 (fun k => k.put d (aluSub (k.r d) (k.r r) false k.fl)))

/-- SBC Wd, Ws (Table 5-2, R178). -/
def execSbc (b : Nat) (d r : Reg) (s : State) : Answer :=
  .next (s.issueCore b (encAlu 4 d r) 2 (fun k => k.put d (aluSub (k.r d) (k.r r) k.fl.c k.fl)))

/-- CMP Wd, Ws: flags only (Table 5-2). -/
def execCmp (b : Nat) (d r : Reg) (s : State) : Answer :=
  .next (s.issueCore b (encAlu 5 d r) 2 (fun k => { k with fl := (aluSub (k.r d) (k.r r) false k.fl).2 }))

/-- AND Wd, Ws (Table 5-2). -/
def execAnd (b : Nat) (d r : Reg) (s : State) : Answer :=
  .next (s.issueCore b (encAlu 6 d r) 2 (fun k => k.put d (aluLogic (k.r d &&& k.r r) k.fl)))

/-- OR Wd, Ws (Table 5-2). -/
def execOr (b : Nat) (d r : Reg) (s : State) : Answer :=
  .next (s.issueCore b (encAlu 7 d r) 2 (fun k => k.put d (aluLogic (k.r d ||| k.r r) k.fl)))

/-- XOR Wd, Ws (Table 5-2). -/
def execXor (b : Nat) (d r : Reg) (s : State) : Answer :=
  .next (s.issueCore b (encAlu 8 d r) 2 (fun k => k.put d (aluLogic (k.r d ^^^ k.r r) k.fl)))

/-- TST Wd, Ws: flags only (Table 5-2). -/
def execTst (b : Nat) (d r : Reg) (s : State) : Answer :=
  .next (s.issueCore b (encAlu 9 d r) 2 (fun k => { k with fl := (aluLogic (k.r d &&& k.r r) k.fl).2 }))

/-- NOT Wd, Ws (Table 5-2). -/
def execNot (b : Nat) (d r : Reg) (s : State) : Answer :=
  .next (s.issueCore b (encAlu 10 d r) 2 (fun k => k.put d (aluMove (~~~ k.r r) k.fl)))

/-- NEG Wd, Ws (Table 5-2). -/
def execNeg (b : Nat) (d r : Reg) (s : State) : Answer :=
  .next (s.issueCore b (encAlu 11 d r) 2 (fun k => k.put d (aluNeg (k.r r) k.fl)))

/-- MOVI Wd: 2 microcycles short, 3 with an extension word; no flag changes (R179). -/
def execMovi (b : Nat) (d : Reg) (v : MoviSrc) (s : State) : Answer :=
  .next (s.issueCore b (encMovi d v) (v.words + 1) (fun k => k.setR d v.value))

/-- ADDI Wd, #imm: a signed immediate, flags as ADD (R179). -/
def execAddi (b : Nat) (d : Fin 4) (imm : BitVec 8) (s : State) : Answer :=
  .next (s.issueCore b (encImm 0 d imm) 2 (fun k => k.put (lowReg d) (aluAdd (k.r (lowReg d)) (imm.signExtend 16) false k.fl)))

/-- CMPI Wd, #imm: a signed immediate, flags as CMP (R179). -/
def execCmpi (b : Nat) (d : Fin 4) (imm : BitVec 8) (s : State) : Answer :=
  .next (s.issueCore b (encImm 1 d imm) 2 (fun k => { k with fl := (aluSub (k.r (lowReg d)) (imm.signExtend 16) false k.fl).2 }))

/-- ANDI Wd, #imm: a zero-extended mask, flags as AND (R179). -/
def execAndi (b : Nat) (d : Fin 4) (imm : BitVec 8) (s : State) : Answer :=
  .next (s.issueCore b (encImm 2 d imm) 2 (fun k => k.put (lowReg d) (aluLogic (k.r (lowReg d) &&& imm.setWidth 16) k.fl)))

/-- SHL Wd, #n (R191). -/
def execShl (b : Nat) (d : Reg) (n : BitVec 4) (s : State) : Answer :=
  .next (s.issueCore b (encShift 0 d n) 2 (fun k => k.put d (shiftOp .shl (k.r d) n.toNat k.fl)))

/-- SHR Wd, #n (R191). -/
def execShr (b : Nat) (d : Reg) (n : BitVec 4) (s : State) : Answer :=
  .next (s.issueCore b (encShift 1 d n) 2 (fun k => k.put d (shiftOp .shr (k.r d) n.toNat k.fl)))

/-- SAR Wd, #n (R191). -/
def execSar (b : Nat) (d : Reg) (n : BitVec 4) (s : State) : Answer :=
  .next (s.issueCore b (encShift 2 d n) 2 (fun k => k.put d (shiftOp .sar (k.r d) n.toNat k.fl)))

/-- ROL Wd, #n (R191). -/
def execRol (b : Nat) (d : Reg) (n : BitVec 4) (s : State) : Answer :=
  .next (s.issueCore b (encShift 3 d n) 2 (fun k => k.put d (shiftOp .rol (k.r d) n.toNat k.fl)))

/-- ROR Wd, #n (R191). -/
def execRor (b : Nat) (d : Reg) (n : BitVec 4) (s : State) : Answer :=
  .next (s.issueCore b (encShift 4 d n) 2 (fun k => k.put d (shiftOp .ror (k.r d) n.toNat k.fl)))

/-- RCL Wd, #n: a 17-bit rotate through C (R191). -/
def execRcl (b : Nat) (d : Reg) (n : BitVec 4) (s : State) : Answer :=
  .next (s.issueCore b (encShift 5 d n) 2 (fun k => k.put d (shiftOp .rcl (k.r d) n.toNat k.fl)))

/-- RCR Wd, #n: a 17-bit rotate through C (R191). -/
def execRcr (b : Nat) (d : Reg) (n : BitVec 4) (s : State) : Answer :=
  .next (s.issueCore b (encShift 6 d n) 2 (fun k => k.put d (shiftOp .rcr (k.r d) n.toNat k.fl)))

/-- A core with a product in a pair (R192). -/
def Core.putMul (k : Core) (p : Fin 8) (r : Word × Word × Flags) : Core :=
  { (k.setR (pairHi p) r.1).setR (pairLo p) r.2.1 with fl := r.2.2 }

/-- MULU We, Ws: 9 microcycles (R192, R194). -/
def execMulu (b : Nat) (p : Fin 8) (r : Reg) (s : State) : Answer :=
  .next (s.issueCore b (encMul 0 p r) 9 (fun k => k.putMul p (mulU (k.r (pairLo p)) (k.r r) k.fl)))

/-- MULS We, Ws: 9 microcycles (R192, R194). -/
def execMuls (b : Nat) (p : Fin 8) (r : Reg) (s : State) : Answer :=
  .next (s.issueCore b (encMul 1 p r) 9 (fun k => k.putMul p (mulS (k.r (pairLo p)) (k.r r) k.fl)))

/-- The body of a division: the quotient to We+1, the remainder to We, or vector 5 (R193). -/
def divBody (p : Fin 8) (r : Reg) (op : Word → Word → Word → Option (Word × Word)) : Body := fun s x =>
  let k := x.side.core
  match op (k.r (pairHi p)) (k.r (pairLo p)) (k.r r) with
  | none => (.raise { vec := 5 } 0, s)
  | some (q, m) => coreBody 1 (fun k => { (k.setR (pairHi p) m).setR (pairLo p) q with fl := divFlags q k.fl }) s x

/-- DIVU We, Ws: 20 microcycles (R193, R194). -/
def execDivu (b : Nat) (p : Fin 8) (r : Reg) (s : State) : Answer := .next (s.issue b (encMul 2 p r) 20 20 (divBody p r divU))

/-- DIVS We, Ws: 20 microcycles (R193, R194). -/
def execDivs (b : Nat) (p : Fin 8) (r : Reg) (s : State) : Answer := .next (s.issue b (encMul 3 p r) 20 20 (divBody p r divS))

end Sys2Proof.Machine
end

