-- ==== Sys2Proof/Machine/B16Mem.lean ====
section
/-! DEFINITION. Loads, stores, the stack and control transfer of the B16 core (R135 to R140, R180 to R188). -/

namespace Sys2Proof.Machine

/-- The body of LD: a checked read, the base's update, then the loaded value (R180 to R182). -/
def loadBody (d : Reg) (m : MemForm) : Body := fun s x =>
  match s.coreRead x m.segReg (m.offset x.side.core) .read with
  | (.fault c, t) => (.raise c 0, t)
  | (.park, t) => (.park, t)
  | (.ok v, t) => coreBody m.words (fun k => (m.update k).setR d v) t x

/-- LD Wd through a segment, in its four forms (R180). -/
def execLd (b : Nat) (d : Reg) (m : MemForm) (s : State) : Answer :=
  .next (s.issue b (encMem 0 d m) (m.words + 2) (m.words + 2) (loadBody d m))

/-- The body of ST: a checked store of the value Ws held at the start, then the base's update (R180 to R182). -/
def storeBody (r : Reg) (m : MemForm) : Body := fun s x =>
  let k := x.side.core
  let off := m.offset k
  match s.coreCheck x m.segReg off .write with
  | (some v, t) => (.raise { vec := v, seg := m.segReg.val, kind := 1, off := off.toNat } 0, t)
  | (none, t) => match t.coreStore x m.segReg off (k.r r) with
    | (false, u) => (.park, u)
    | (true, u) => coreBody m.words m.update u x

/-- ST Ws through a segment, in its four forms (R180). -/
def execSt (b : Nat) (r : Reg) (m : MemForm) (s : State) : Answer :=
  .next (s.issue b (encMem 1 r m) (m.words + 2) (m.words + 2) (storeBody r m))

/-- The body of PUSH: a one-word frame below W15 (R183, R184). -/
def pushBody (r : Reg) : Body := fun s x =>
  let k := x.side.core
  match s.frameCheck x ((k.r sp).toNat - 1 : Int) 1 .write with
  | (some c, t) => (.raise c 0, t)
  | (none, t) => match t.coreStore x stackSeg (k.r sp - 1) (k.r r) with
    | (false, u) => (.park, u)
    | (true, u) => coreBody 1 (fun q => q.setR sp (q.r sp - 1)) u x

/-- PUSH Ws (R183). -/
def execPush (b : Nat) (r : Reg) (s : State) : Answer := .next (s.issue b [word4 7 0 0 r.val] 3 3 (pushBody r))

/-- The body of POP: a one-word frame at W15; POP W15 leaves the loaded word (R183, R184). -/
def popBody (d : Reg) : Body := fun s x =>
  let k := x.side.core
  match s.frameCheck x ((k.r sp).toNat : Int) 1 .read with
  | (some c, t) => (.raise c 0, t)
  | (none, t) => match t.coreFetchWord x stackSeg (k.r sp) with
    | (.ok v, u) => coreBody 1 (fun q => (q.setR sp (q.r sp + 1)).setR d v) u x
    | (_, u) => (.park, u)

/-- POP Wd (R183). -/
def execPop (b : Nat) (d : Reg) (s : State) : Answer := .next (s.issue b [word4 7 1 0 d.val] 3 3 (popBody d))

/-- Bcc: 3 microcycles taken or not; the displacement counts from the word after the branch (R185). -/
def execBcc (b : Nat) (c : Cond) (disp : BitVec 8) (s : State) : Answer :=
  .next (s.issueCore b [word4 8 c.num (disp.toNat / 16) (disp.toNat % 16)] 3 (fun k => if condHolds c k.fl then { k with pc := k.pc + disp.signExtend 16 } else k))

/-- JMP to an offset (R188). -/
def execJmp (b : Nat) (t : Target) (s : State) : Answer :=
  .next (s.issueCore b (encJmp t) 3 (fun k => { k with pc := t.offset k }))

/-- The words a CALL pushes, in access order (R136, R187). -/
def callWords (k : Core) (mask ret : Word) : List Word :=
  (maskRegs mask).map k.r ++ [ret, mask &&& 0x7FFF]

/-- The body of CALL: the frame is checked whole and written from W15 - 1 downward, then PC takes the target (R136, R138, R186, R188). -/
def callBody (t : Target) (mask : Word) : Body := fun s x =>
  let k := x.side.core
  let ret := k.pc + w16 (2 + t.words)
  let ws := callWords k mask ret
  match s.frameCheck x ((k.r sp).toNat - ws.length : Int) ws.length .write with
  | (some c, u) => (.raise c ws.length, u)
  | (none, u) => match u.pushWords x.id (k.r sp - 1) ws with
    | (false, z) => (.park, z)
    | (true, z) => (.done, z.modCore x.id (fun q => { q.setR sp (q.r sp - w16 ws.length) with pc := t.offset k }))

/-- CALL with a register mask (R136, R171). -/
def execCall (b : Nat) (t : Target) (mask : Word) (s : State) : Answer :=
  .next (s.issue b (encCall t mask) (4 + t.words) (2 + t.words) (callBody t mask))

/-- Restore registers from words read upward, highest register number first (R137). -/
def Core.restore (k : Core) (regs : List Reg) (vs : List Word) : Core :=
  (regs.zip vs).foldl (fun q (e : Reg × Word) => q.setR e.1 e.2) k

/-- The body of RET: the mask word first, then the rest of its frame, checked whole (R137, R186 to R188). -/
def retBody : Body := fun s x =>
  let k := x.side.core
  let w15 := k.r sp
  match s.frameCheck x (w15.toNat : Int) 1 .read with
  | (some c, t) => (.raise c 2, t)
  | (none, t) => match t.popWords x.id w15 1 with
    | (some [mask], u) =>
      let regs := (maskRegs mask).reverse
      let n := regs.length
      match u.frameCheck x (w15.toNat : Int) (n + 2) .read with
      | (some c, v) => (.raise c (n + 1), v)
      | (none, v) => match v.popWords x.id (w15 + 1) (n + 1) with
        | (some (ret :: vs), z) =>
          (.done, z.modCore x.id (fun q => { (q.restore regs vs).setR sp (w15 + w16 (n + 2)) with pc := ret }))
        | (_, z) => (.park, z)
    | (_, u) => (.park, u)

/-- RET (R137, R171). -/
def execRet (b : Nat) (s : State) : Answer := .next (s.issue b [word4 9 4 0 0] 5 3 retBody)

end Sys2Proof.Machine
end

