-- ==== Sys2Proof/Machine/B16System.lean ====
section
/-! DEFINITION. The system group of the B16 core, waiting and its end, and interrupt entry (R150 to R157, R169 to R177). -/

namespace Sys2Proof.Machine

/-- NOP (system group 0x0): 2 microcycles, no effect. -/
def execNop (b : Nat) (s : State) : Answer := .next (s.issueCore b [word4 0 0 0 0] 2 id)

/-- EI sets IE and holds off interrupts at the next boundary (R152, R173). -/
def execEi (b : Nat) (s : State) : Answer :=
  .next (s.issueCore b [word4 0 3 0 0] 2 (fun k => { k with fl := { k.fl with ie := true }, hold := true }))

/-- DI clears IE at once (R152). -/
def execDi (b : Nat) (s : State) : Answer :=
  .next (s.issueCore b [word4 0 4 0 0] 2 (fun k => { k with fl := { k.fl with ie := false } }))

/-- HALT enters the HALT state with PC after the HALT (R175). -/
def execHalt (b : Nat) (s : State) : Answer := .next (s.issueCore b [word4 0 2 0 0] 2 (fun k => { k with st := .halt }))

/-- LDSEG writes a selector into a segment register; it checks nothing (R134, R176). -/
def execLdseg (b : Nat) (n : SegReg) (src : SegSrc) (s : State) : Answer :=
  .next (s.issueCore b (encSeg n src) 2 (fun k => k.setSeg n (src.value k)))

/-- RDFL copies FL to Wd (system group 0x9). -/
def execRdfl (b : Nat) (d : Reg) (s : State) : Answer := .next (s.issueCore b [word4 0 9 0 d.val] 2 (fun k => k.setR d k.fl.word))

/-- WRFL replaces FL[5:0]; a change of IE from 0 to 1 holds off interrupts at the next boundary (R173). -/
def execWrfl (b : Nat) (r : Reg) (s : State) : Answer :=
  .next (s.issueCore b [word4 0 10 0 r.val] 2 (fun k =>
    let f := Flags.ofWord (k.r r)
    { k with fl := f, hold := !k.fl.ie && f.ie }))

/-- The body of TRAP n: vector 16 + n, the saved PC after the TRAP (R177). -/
def trapBody (n : BitVec 4) : Body := fun s x =>
  (.done, s.modCore x.id (fun k =>
    { k with
      pc := k.pc + 1, tf0 := false,
      pend := some { vec := 16 + n.toNat, savedPc := k.pc + 1, xpc := k.pc, xsel := k.seg[0] } }))

/-- TRAP n (R177). -/
def execTrap (b : Nat) (n : BitVec 4) (s : State) : Answer := .next (s.issue b [word4 0 6 0 n.toNat] 2 2 (trapBody n))

/-- The body of RETI: its frame is checked whole, then PC, S0 and FL are restored and W15 moves up by 3 (R139, R186, R187). -/
def retiBody : Body := fun s x =>
  let k := x.side.core
  match s.frameCheck x ((k.r sp).toNat : Int) 3 .read with
  | (some c, t) => (.raise c 3, t)
  | (none, t) => match t.popWords x.id (k.r sp) 3 with
    | (some [p, g, f], u) =>
      (.done, u.modCore x.id (fun q =>
        { q.setR sp (q.r sp + 3) with pc := p, seg := q.seg.set (0 : Fin 8) (g.setWidth 4), fl := Flags.ofWord f }))
    | (_, u) => (.park, u)

/-- RETI (R139). -/
def execReti (b : Nat) (s : State) : Answer := .next (s.issue b [word4 0 5 0 0] 6 3 retiBody)

/-- The condition a waiting core waits for (R153, R157, R195, R196). WAITC has passed its column when the beam has left the line the column lies on:
l0, or line 0 where only the geometry of a new frame, not the h0 columns it began under, holds the column. -/
def BSide.waitOver (x : BSide) : Bool :=
  match x.core.st with
  | .waitBI => (x.bi.pend &&& x.bi.en) != 0
  | .waitL tl => decide (x.beam.geo.vtotal ≤ tl ∨ x.beam.l = tl)
  | .waitC tc l0 h0 =>
    if x.beam.geo.htotal ≤ tc then decide (x.beam.l ≠ l0)
    else decide (tc ≤ x.beam.c ∨ (x.beam.l ≠ l0 ∧ (tc < h0 ∨ x.beam.l ≠ 0)))
  | _ => false

/-- The body of a waiting instruction: its condition is tested in microcycle n, and the core waits when it does not hold (R170). -/
def waitBody (words : Nat) (st : BSide → CoreState) : Body := fun s x =>
  let y := { x.side with core := { x.side.core with st := st x.side } }
  (.done, s.modCore x.id (fun k =>
    { k with pc := k.pc + w16 words, st := if y.waitOver then .run else st x.side }))

/-- The body of WAIT: a core in it is idle, so that moderation holds no source back from it (R156, R174, R407). -/
def waitBiBody : Body := fun s x =>
  let y := { x with side := { x.side with bi := x.side.bi.idle } }
  waitBody 1 (fun _ => .waitBI) (s.setBerth y) y

/-- WAIT (R153, R174). -/
def execWait (b : Nat) (s : State) : Answer := .next (s.issue b [word4 0 1 0 0] 2 2 waitBiBody)

/-- Pose the interrupt of vector 8 (R151, R153): the saved PC is the next instruction, or the WAITL or WAITC itself. -/
def Core.interrupted (k : Core) : Core :=
  let own := match k.st with
    | .waitL _ => true
    | .waitC _ _ _ => true
    | _ => false
  { k with pend := some { vec := 8, savedPc := if own then k.lastPc else k.pc, xpc := k.lastPc, xsel := k.lastSel } }

/-- A wait has ended with its condition (R150, R153, R174): its trace, or after a WAIT the interrupt, is taken at this boundary. -/
def State.endWait (s : State) (b : Nat) : State :=
  match s.berth b with
  | none => s
  | some x =>
    let wasBI := decide (x.side.core.st = .waitBI)
    let t := s.modCore b (fun k => ({ k with st := .run }).retired k.lastPc k.lastSel)
    match t.berth b with
    | none => t
    | some y =>
      if wasBI && y.side.core.pend.isNone && y.interruptDue && y.paceNext then
        (t.modCore b Core.interrupted).settle b
      else t.settle b

/-- The core spends idle microcycles: it waits, has halted, or stalls for its pace (R90, R155, R156, R160). -/
def Berth.mayIdle (x : Berth) : Bool :=
  !x.frozen && !x.watchDue &&
  (match x.side.core.st with
    | .stopped => false
    | .run => !x.paceNext
    | .halt => true
    | .waitBI => true
    | _ => (x.side.core.pend.isNone && !x.interruptDue) || !x.paceNext)

/-- One idle microcycle, not charged (R159), with the end of a wait in it. -/
def State.idleStep (s : State) (b : Nat) : State :=
  let t := s.micro b false
  match t.berth b with
  | none => t
  | some x => if x.side.core.pend.isNone && x.side.waitOver then t.endWait b else t.settle b

/-- Up to k idle microcycles, ending with the first that brings the event ev about. -/
def State.idleUntil (s : State) (b : Nat) (ev : Berth → Berth → Bool) : Nat → State
  | 0 => s
  | k + 1 =>
    match s.berth b with
    | none => s
    | some x =>
      if !x.mayIdle then s
      else
        let t := s.idleStep b
        match t.berth b with
        | none => t
        | some y => if ev x y then t else t.idleUntil b ev k

/-- The core was in a wait of a kind and is no longer. -/
def leftWait (p : CoreState → Bool) (x y : Berth) : Bool := p x.side.core.st && !p y.side.core.st

/-- WAIT_END: a waiting WAIT is given up to k microcycles, and ends when an enabled source is pending (R153). -/
def execWaitEnd (b k : Nat) (s : State) : Answer :=
  .next (match s.berth b with
    | some x => if x.side.core.st = .waitBI then s.idleUntil b (leftWait (fun c => decide (c = .waitBI))) k else s
    | none => s)

/-- The core is in WAITL. -/
def CoreState.inL : CoreState → Bool
  | .waitL _ => true
  | _ => false

/-- The core is in WAITC. -/
def CoreState.inC : CoreState → Bool
  | .waitC _ _ _ => true
  | _ => false

/-- WAITL_END: a waiting WAITL is given up to k microcycles, and ends as R195 gives. -/
def execWaitlEnd (b k : Nat) (s : State) : Answer :=
  .next (match s.berth b with
    | some x => if x.side.core.st.inL then s.idleUntil b (leftWait CoreState.inL) k else s
    | none => s)

/-- WAITC_END: a waiting WAITC is given up to k microcycles, and ends as R196 gives. -/
def execWaitcEnd (b k : Nat) (s : State) : Answer :=
  .next (match s.berth b with
    | some x => if x.side.core.st.inC then s.idleUntil b (leftWait CoreState.inC) k else s
    | none => s)

/-- INTERRUPT_ENTRY: at a boundary with IE 1 and a request present the core takes vector 8, also out of a WAITL or WAITC (R151, R153, R202). -/
def execInterruptEntry (b : Nat) (s : State) : Answer :=
  .next (match s.berth b with
    | some x =>
      let k := x.side.core
      let at_ := decide (k.st = .run) || k.st.inL || k.st.inC
      if x.mayBegin && at_ && k.pend.isNone && x.interruptDue then (s.modCore b Core.interrupted).settle b else s
    | none => s)

end Sys2Proof.Machine
end

