-- ==== Sys2Proof/Machine/B16Port.lean ====
section
/-! DEFINITION. Ports, the beam instructions, illegal encodings, and the OUT rows of the command table (R83, R105, R141, R142, R167, R171,
R189, R190, R195 to R200). -/

namespace Sys2Proof.Machine

/-- A denied access to a GP_ sync view port: logged on die 0, vector 4 with KIND as given (R83, R190, R617). -/
def State.pinDenied (s : State) (x : Berth) (p : Nat) (k : Kind) : Fate × State :=
  (.raise { vec := 4, kind := k.code, off := p } 0,
   s.logViol 0 (coreMaster x) k 3 (if x.die = 0 then 0 else 2) (p - 0xC40))

/-- A port access that the pin ledger denies (R83). -/
def State.portBarred (s : State) (x : Berth) (p : Nat) : Bool := decide (0xC40 ≤ p ∧ p < 0xC80) && !s.pinLent x p

/-- The body of IN: the port is read in microcycle n (R189, R190). -/
def inBody (d : Reg) (o : PortOp) : Body := fun s x =>
  let p := o.port x.side.core
  if o.illegal then (.raise { vec := 1 } 0, s)
  else if s.portBarred x p then s.pinDenied x p .read
  else
    let r := x.portRead p
    coreBody o.words (fun k => k.setR d (w16 r.1)) (s.setBerth r.2) r.2

/-- IN Wd from a port (R189). -/
def execIn (b : Nat) (d : Reg) (o : PortOp) (s : State) : Answer :=
  .next (s.issue b (encPort 10 d o) (o.words + 2) (o.words + 2) (inBody d o))

/-- The body of OUT: the port is written in microcycle n (R105, R142, R189, R190). -/
def outBody (o : PortOp) (r : Reg) : Body := fun s x =>
  let p := o.port x.side.core
  if o.illegal then (.raise { vec := 1 } 0, s)
  else if s.portBarred x p then s.pinDenied x p .write
  else coreBody o.words id (s.setBerth (x.portWrite p (x.side.core.r r))) x

/-- One OUT of berth b; a timer HI port's value is written in the step of microcycle n itself (R389, R390). -/
def State.issueOut (s : State) (b : Nat) (o : PortOp) (r : Reg) : State :=
  let tw := match s.berth b with
    | some x => if o.illegal then none else x.timerWrite (o.port x.side.core) (x.side.core.r r).toNat
    | none => none
  s.issue b (encPort 11 r o) (o.words + 2) (o.words + 2) (outBody o r) tw

/-- OUT Ws to a port (R189). -/
def execOut (b : Nat) (o : PortOp) (r : Reg) (s : State) : Answer := .next (s.issueOut b o r)

/-- An OUT whose port lies in a class of ports; a command whose port does not changes nothing (assumption log 13). -/
def State.outIn (s : State) (b : Nat) (o : PortOp) (r : Reg) (cls : Nat → Bool) : State :=
  match s.berth b with
  | some x => if !o.illegal && cls (o.port x.side.core) then s.issueOut b o r else s
  | none => s

/-- LV_PORT_WRITE: an OUT to an LV_ port captures a stamp (R105). -/
def execLvPortWrite (b : Nat) (o : PortOp) (r : Reg) (s : State) : Answer :=
  .next (s.outIn b o r (fun p => decide (p < 0x400)))

/-- SH_PORT_WRITE: an OUT to an SH_ port writes the shadow at once (R111); the geometry shadows of BM_ are shadows too (R114). -/
def execShPortWrite (b : Nat) (o : PortOp) (r : Reg) (s : State) : Answer :=
  .next (s.outIn b o r (fun p => decide ((0x400 ≤ p ∧ p < 0x800) ∨ (0xBC8 ≤ p ∧ p ≤ 0xBD1))))

/-- COMMIT_ARM: an OUT to BM_COMMIT with ARM 1 arms a commit for the next frame boundary (R112). -/
def execCommitArm (b : Nat) (o : PortOp) (r : Reg) (s : State) : Answer :=
  .next (s.outIn b o r (fun p => decide (p = 0xBC4)))

/-- PACE_SET: an OUT to BM_PACE sets CAP, from the next microcycle (R161). -/
def execPaceSet (b : Nat) (o : PortOp) (r : Reg) (s : State) : Answer :=
  .next (s.outIn b o r (fun p => decide (p = 0xBD4)))

/-- BT_VALUE_WRITE: an OUT to a berth timer HI port writes the 32-bit value with the LO stage (R390). -/
def execBtValueWrite (b : Nat) (o : PortOp) (r : Reg) (s : State) : Answer :=
  .next (s.outIn b o r (fun p => decide (0xA00 ≤ p ∧ p < 0xA40) && (p % 16 == 2 || p % 16 == 4 || p % 16 == 6)))

/-- BI_PEND_WRITE: an OUT to a BI pending port replaces the pending bits (R401, R409). -/
def execBiPendWrite (b : Nat) (o : PortOp) (r : Reg) (s : State) : Answer :=
  .next (s.outIn b o r (fun p => p == 0xB80 || p == 0xB81))

/-- BI_EOI: an OUT to the EOI port re-samples a level source (R409). -/
def execBiEoi (b : Nat) (o : PortOp) (r : Reg) (s : State) : Answer :=
  .next (s.outIn b o r (fun p => p == 0xB85))

/-- An FC_nCTL port, and the written value asks for ABORT (true) or GO (false). -/
def State.outFc (s : State) (b : Nat) (o : PortOp) (r : Reg) (abort : Bool) : State :=
  match s.berth b with
  | some x =>
    let v := (x.side.core.r r).toNat
    let ok := if abort then bitOf v 1 else bitOf v 0 && !bitOf v 1
    s.outIn b o r (fun p => decide (0xA80 ≤ p ∧ p < 0xAC0) && p % 16 == 8 && ok)
  | none => s

/-- FERRY_GO: GO in FC_nCTL latches and checks the manifest (R358). -/
def execFerryGo (b : Nat) (o : PortOp) (r : Reg) (s : State) : Answer := .next (s.outFc b o r false)

/-- FERRY_ABORT: ABORT in FC_nCTL idles an ARMED channel or queues the abort of a BUSY one (R359). -/
def execFerryAbort (b : Nat) (o : PortOp) (r : Reg) (s : State) : Answer := .next (s.outFc b o r true)

/-- LIGHTER_PUSH: an OUT to LJ_CTL (R370). -/
def execLighterPush (b : Nat) (o : PortOp) (r : Reg) (s : State) : Answer :=
  .next (s.outIn b o r (fun p => p == 0xB10))

/-- LJ_DEADT_WRITE: an OUT to LJ_DEADT, effective at the watch commit (R355). -/
def execLjDeadtWrite (b : Nat) (o : PortOp) (r : Reg) (s : State) : Answer :=
  .next (s.outIn b o r (fun p => p == 0xB12))

/-- An AU_VnCTL port, and the written value holds bit n of KEYON or KEYOFF. -/
def State.outKey (s : State) (b : Nat) (o : PortOp) (r : Reg) (bit : Nat) : State :=
  match s.berth b with
  | some x => s.outIn b o r (fun p => decide (0x800 ≤ p ∧ p < 0x880) && p % 4 == 0 && bitOf (x.side.core.r r).toNat bit)
  | none => s

/-- VOICE_KEYON: KEYON in AU_VnCTL (R311). -/
def execVoiceKeyon (b : Nat) (o : PortOp) (r : Reg) (s : State) : Answer := .next (s.outKey b o r 0)

/-- VOICE_KEYOFF: KEYOFF in AU_VnCTL (R311). -/
def execVoiceKeyoff (b : Nat) (o : PortOp) (r : Reg) (s : State) : Answer := .next (s.outKey b o r 1)

/-- SAMPLE_RING_CONFIG: a write of a sample voice's SCTL or SBASE port (R317). -/
def execSampleRingConfig (b : Nat) (o : PortOp) (r : Reg) (s : State) : Answer :=
  .next (s.outIn b o r (fun p => decide (0x8A0 ≤ p ∧ p < 0x920) && (p % 8 == 0 || p % 8 == 1)))

/-- PAD_RP_WRITE: an OUT to PD_RP, its space returned at the watch commit (R436). -/
def execPadRpWrite (b : Nat) (o : PortOp) (r : Reg) (s : State) : Answer :=
  .next (s.outIn b o r (fun p => p == 0xC01))

/-- LENT_PIN_WRITE: an OUT to a GP_ sync view port (R599). -/
def execLentPinWrite (b : Nat) (o : PortOp) (r : Reg) (s : State) : Answer :=
  .next (s.outIn b o r (fun p => decide (0xC40 ≤ p ∧ p < 0xC70)))

/-- The body of WAITL and WAITC: an illegal extension word, else the wait (R167, R170). -/
def beamWaitBody (o : WaitOp) (bits : Nat) (st : Nat → BSide → CoreState) : Body := fun s x =>
  if o.illegal bits then (.raise { vec := 1 } 0, s)
  else waitBody o.words (st (o.value bits x.side.core)) s x

/-- WAITL (R157, R195). -/
def execWaitl (b : Nat) (o : WaitOp) (s : State) : Answer :=
  .next (s.issue b (encWait 0 o) (o.words + 1) (o.words + 1) (beamWaitBody o 12 (fun tl _ => .waitL tl)))

/-- WAITC: the line of microcycle n is the one it compares against (R157, R196). -/
def execWaitc (b : Nat) (o : WaitOp) (s : State) : Answer :=
  .next (s.issue b (encWait 4 o) (o.words + 1) (o.words + 1) (beamWaitBody o 13 (fun tc x => .waitC tc x.beam.l x.beam.geo.htotal)))

/-- RDBEAM We: line and column of microcycle n together (R198). -/
def rdbeamBody (p : Fin 8) : Body := fun s x =>
  let m := x.side.beam
  coreBody 1 (fun k => (k.setR (pairHi p) (w16 m.l)).setR (pairLo p) (w16 m.c)) s x

/-- RDBEAM (R198). -/
def execRdbeam (b : Nat) (p : Fin 8) (s : State) : Answer := .next (s.issue b [word4 14 8 0 (2 * p.val)] 2 2 (rdbeamBody p))

/-- The column of a STAMP (R199): at most HTOTAL - 1, and not before the beam. -/
def stampCol (m : Beam) (col : Nat) : Nat := max (min col (m.geo.htotal - 1)) m.c

/-- The body of STAMP #port, Ws, Wc (R199, R200). -/
def stampBody (port : Word) (r c : Reg) : Body := fun s x =>
  let k := x.side.core
  let m := x.side.beam
  if 1024 ≤ port.toNat then (.raise { vec := 1 } 0, s)
  else coreBody 2 id (s.setBerth (x.stampAt port.toNat (k.r r) m.l (stampCol m (k.r c).toNat))) x

/-- STAMP (R199). -/
def execStamp (b : Nat) (port : Word) (r c : Reg) (s : State) : Answer := .next (s.issue b [word4 14 12 c.val r.val, port] 4 4 (stampBody port r c))

/-- The body of an illegal instruction word: vector 1 after its fetch (R167). -/
def illegalBody : Body := fun s _ => (.raise { vec := 1 } 0, s)

/-- ILLEGAL_ENCODING: a word that Table 5-1 does not define raises vector 1 and is charged 2 (R167, R171). -/
def execIllegalEncoding (b : Nat) (w : Word) (s : State) : Answer :=
  .next (if illegalWord w then s.issue b [w] 2 2 illegalBody else s)

end Sys2Proof.Machine
end

