-- ==== Sys2Proof/Machine/Time.lean ====
section
/-! DEFINITION. Harbour time passing: harbour timers and their armed release, fabric links and routes (R18, R20, R36, R384 to R398), and the
moderation of HIC groups over time (R406, R407). -/

namespace Sys2Proof.Machine

/-- Answer a if die d exists on the part, else the fault of an event without a unit. -/
def State.onDie (s : State) (d : Nat) (a : Answer) : Answer := if s.hasDie d then a else .fault (.noSuchUnit "die")

/-- Answer a if dock k of die d exists. -/
def State.onDock (s : State) (d k : Nat) (a : Answer) : Answer :=
  if s.hasDie d ∧ k < 16 then a else .fault (.noSuchUnit "dock")

/-- Answer a if quay q exists. -/
def State.onQuay (s : State) (q : Nat) (a : Answer) : Answer := if s.hasQuay q then a else .fault (.noSuchUnit "quay")

/-- Answer a if endpoint e exists. -/
def State.onEp (s : State) (e : Nat) (a : Answer) : Answer :=
  if e < s.part.endpoints then a else .fault (.noSuchUnit "endpoint")

/-- Columns of the die mesh (Table 1-2). -/
def Part.cols : Part → Nat
  | .sx8 => 4
  | _ => 2

/-- The die next to d through fabric port 0 (-x), 1 (+x), 2 (-y), 3 (+y); none where there is none (R18). -/
def Part.neighbour (p : Part) (d port : Nat) : Option Nat :=
  let x := d % p.cols
  match port with
  | 0 => if x = 0 then none else some (d - 1)
  | 1 => if x + 1 < p.cols then some (d + 1) else none
  | 2 => if d < p.cols then none else some (d - p.cols)
  | 3 => if d + p.cols < p.dies then some (d + p.cols) else none
  | _ => none

/-- The port of the neighbour that faces a port. -/
def facing (port : Nat) : Nat := port / 2 * 2 + (1 - port % 2)

/-- The link at a port of die d is up. -/
def State.linkUp (s : State) (d port : Nat) : Bool :=
  (s.part.neighbour d port).isSome && s.flag (dieAddr d R.HB_FABSTAT) port

/-- Walk n hops from die d through one port direction: the die reached, none over a link that is down. -/
def State.hops (s : State) (d port : Nat) : Nat → Option Nat
  | 0 => some d
  | n + 1 => if s.linkUp d port then
      match s.part.neighbour d port with
      | some e => s.hops e port n
      | none => none
    else none

/-- The port and the number of hops along x from die a to the column of die b. -/
def Part.dx (p : Part) (a b : Nat) : Nat × Nat :=
  let xa := a % p.cols
  let xb := b % p.cols
  if xa ≤ xb then (1, xb - xa) else (0, xa - xb)

/-- The port and the number of hops along y from die a to the row of die b. -/
def Part.dy (p : Part) (a b : Nat) : Nat × Nat :=
  let ya := a / p.cols
  let yb := b / p.cols
  if ya ≤ yb then (3, yb - ya) else (2, ya - yb)

/-- The route first along x and then along y is whole (R20). -/
def State.routeXY (s : State) (a b : Nat) : Bool :=
  match s.hops a (s.part.dx a b).1 (s.part.dx a b).2 with
  | some m => (s.hops m (s.part.dy m b).1 (s.part.dy m b).2).isSome
  | none => false

/-- The route first along y and then along x is whole (R20). -/
def State.routeYX (s : State) (a b : Nat) : Bool :=
  match s.hops a (s.part.dy a b).1 (s.part.dy a b).2 with
  | some m => (s.hops m (s.part.dx m b).1 (s.part.dx m b).2).isSome
  | none => false

/-- The fabric can carry a transfer from die a to die b (R20). -/
def State.reaches (s : State) (a b : Nat) : Bool := s.routeXY a b || s.routeYX a b

/-- A transfer from die a to die b fails, both routes being broken: the fault log names the port where the route starts (R20). -/
def State.fabricLost (s : State) (a b : Nat) : State :=
  s.logFault 7 a none 0 (if (s.part.dx a b).2 = 0 then (s.part.dy a b).1 else (s.part.dx a b).1) [b]

/-- DETOUR of every die: at least one route starting on it uses the y-then-x order (HB_FABSTAT). -/
def State.setDetours (s : State) : State :=
  (List.range s.part.dies).foldl (fun t a =>
    t.setFlag (dieAddr a R.HB_FABSTAT) 8
      ((List.range s.part.dies).any (fun b => !s.routeXY a b && s.routeYX a b))) s

/-- Enter the counter, compare, control and follow-on mark of harbour timer register block a after a step. -/
def State.putTimer (s : State) (a : Nat) (r : Word32 × Word32 × Word32 × Bool × Bool) : State :=
  let t := ((s.setReg (a + 4) r.1.toNat).setReg (a + 8) r.2.1.toNat).setReg (a + 12) r.2.2.1.toNat
  let f := t.follow.filter (· ≠ a)
  let t1 := { t with follow := if r.2.2.2.1 then f ++ [a] else f }
  if r.2.2.2.2 then
    (t1.setFlag a 2 true).hicSet (a / 0x800000) ((a % 0x800000 - 0x30100) / 16)
  else t1

/-- One step of the harbour timer whose registers start at address a (R384 to R389, R392): adv counts, and a value written in the step. -/
def State.timerAt (s : State) (a adv : Nat) (wr : Option TimerWrite) : State :=
  s.putTimer a (timerStep (s.flag a 0) (s.flag a 1) (w32 (s.reg (a + 4))) (w32 (s.reg (a + 8))) (w32 (s.reg (a + 12)))
    (s.follow.contains a) adv wr)

/-- The register blocks of the harbour timers whose EN is 1. -/
def State.liveTimers (s : State) : List Nat :=
  (s.regs.filter (fun e => 0x30100 ≤ e.1 % 0x800000 ∧ e.1 % 0x800000 < 0x30500 ∧ e.1 % 16 = 0 ∧ bitOf e.2.toNat 0)).map (·.1)

/-- Enable the armed timers of die d and clear their ARM bits (R396). -/
def State.releaseDie (s : State) (d : Nat) : State :=
  let t := (List.range 64).foldl (fun t n =>
    if s.flag (dieAddr d (R.HT_ARMLO + 4 * (n / 32))) (n % 32) then t.setFlag (dieAddr d (0x30100 + 16 * n)) 0 true else t) s
  (t.setReg (dieAddr d R.HT_ARMLO) 0).setReg (dieAddr d R.HT_ARMHI) 0

/-- The release of HT_GO (R396, R397): every die that a fabric route reaches from die 0. -/
def State.htRelease (s : State) (t : Nat) : State :=
  let ok := (List.range s.part.dies).filter (fun d => s.reaches 0 d)
  let s1 := ok.foldl (fun u d => u.releaseDie d) s
  let s2 := if ok.length < s.part.dies then s1.setFlag R.HT_GO 4 true else s1
  { s2.setReg R.HT_LASTGO t with htT := none }

/-- What is left of a correction after n ns of harbour time, 200 ppm of which each ns takes up: a fifth of a ps (R36, R440). -/
def correctBy (c : Int) (n : Nat) : Int := if c < 0 then min 0 (c + n) else max 0 (c - n)

/-- What the passing of harbour time brings: the release of moderated groups and of vectors that waited, and the edges of pins' switches (R406, R454,
R600). -/
def State.timeUp (s : State) : State := ((s.moderTime.dueVecs 0).dueVecs 1).pinTime

/-- One count of harbour time: the release due at it, and every enabled timer's step, with a value written to one of them in it (R389,
R392, R396). -/
def State.tickWith (s : State) (wr : Option (Nat × TimerWrite)) : State :=
  let n := s.htime + 1
  let live := match wr with
    | some w => if s.liveTimers.contains w.1 then s.liveTimers else w.1 :: s.liveTimers
    | none => s.liveTimers
  let s1 := { s with htime := n, cyc := {}, corr := correctBy s.corr 1 }
  let s2 := live.foldl (fun t a => t.timerAt a (b2n (decide (n % 2 ^ s.fld a 7 4 = 0))) (match wr with
    | some w => if w.1 = a then some w.2 else none
    | none => none)) s1
  (if s.htT = some (n % 2 ^ 64) then s2.htRelease (n % 2 ^ 64) else s2).timeUp

/-- One count of harbour time. -/
def State.tick (s : State) : State := s.tickWith none

/-- Harbour time counts n times. -/
def State.advance (s : State) : Nat → State
  | 0 => s
  | n + 1 => if s.liveTimers.isEmpty && s.htT.isNone then
    { s with htime := s.htime + (n + 1), cyc := {}, corr := correctBy s.corr (n + 1) }.timeUp
    else s.tick.advance n

/-- Harbour time reaches t; an event timed in the past happens now. -/
def State.at (s : State) (t : Nat) : State := s.advance (t - s.htime)

/-- Count harbour time at most n times, stopping when p holds of a count. -/
def State.advanceUntil (s : State) (p : State → State → Bool) : Nat → State
  | 0 => s
  | n + 1 => let t := s.tick; if p s t then t else t.advanceUntil p n

/-- HT_MATCH: harbour time counts until timer n of die d matches, at most k times (R386, R387, R392). -/
def execHtMatch (d n k : Nat) (s : State) : Answer :=
  s.onDie d (.next (
    let a := dieAddr d (0x30100 + 16 * (n % 64))
    let f := fun (x : State) => x.flag a 2
    s.advanceUntil (fun x y => !f x && f y) k))

/-- HT_RELEASE: harbour time counts to T and the armed timers start, at most k counts on (R396, R397). -/
def execHtRelease (k : Nat) (s : State) : Answer :=
  .next (match s.htT with
    | none => s
    | some t => if t ≤ s.now + k then s.advance (t - s.now) else s.advance k)

/-- An idle target core releases group g of die d (R407): with no source pending and enabled it stops being released again (R406). -/
def State.hicIdle (s : State) (d g : Nat) : State :=
  let m := s.moder d g
  if m.released then s else s.setModer d g (if s.hicWants d g then { m with released := true } else { released := false })

/-- HIC_MODERATION_RELEASE: harbour time reaches t, at which a group's time limit or count releases it (R406); with idle, the core that group g
targets is idle at t and every group that targets it is released (R407). -/
def execHicModerationRelease (d g t : Nat) (idle : Bool) (s : State) : Answer :=
  s.onDie d (.next (
    let u := s.at t
    let tgt := u.hicTarget d (g % 32)
    if idle then (List.range 32).foldl (fun v k => if v.hicTarget d k = tgt then v.hicIdle d k else v) u else u))

/-- FABRIC_LINK_DOWN: a fabric link drops: LINKUP clears and LINKERR sets at both ends, and routes detour (R18, R20, HB_FABSTAT). -/
def execFabricLinkDown (d port t : Nat) (s : State) : Answer :=
  match (if s.hasDie d then s.part.neighbour d port else none) with
  | none => .fault (.noSuchUnit "fabric port")
  | some e =>
    let u := s.at t
    let drop := fun (v : State) (x p : Nat) =>
      (v.setFlag (dieAddr x R.HB_FABSTAT) p false).withLevel x 424 (fun w => w.setFlag (dieAddr x R.HB_FABSTAT) (4 + p) true)
    .next (drop (drop u d port) e (facing port)).setDetours

/-- FABRIC_LINK_UP: a fabric link trains and carries traffic: LINKUP sets at both ends (R20, HB_FABSTAT). -/
def execFabricLinkUp (d port t : Nat) (s : State) : Answer :=
  match (if s.hasDie d then s.part.neighbour d port else none) with
  | none => .fault (.noSuchUnit "fabric port")
  | some e =>
    let u := s.at t
    .next ((u.setFlag (dieAddr d R.HB_FABSTAT) port true).setFlag (dieAddr e R.HB_FABSTAT) (facing port) true).setDetours

end Sys2Proof.Machine
end

