-- ==== Sys2Proof/Machine/Compose.lean ====
section
/-! DEFINITION. Composition of a line by the dock pipe: tile planes, bitmap plane, palettes, overrides, sprites, windows, priority, blending and
coverage (R203 to R251, R619). Colours are 30-bit values, B in [9:0], G in [19:10], R in [29:20] (Table 6-5). -/

namespace Sys2Proof.Machine

/-- What a line's composition carries: the state, the berth's identity and descriptors, the words read in the current span, the palette
entries read in this line, what core stores after the line's end replaced, the layers whose denial has been logged, and whether the current layer read anything or met a failed read. -/
structure Comp where
  s : State
  die : Nat
  id : Nat
  desc : Vector Desc 16
  words : List (Nat × Option Word) := []
  pal : List (Nat × Option Nat) := []
  stores : List (Nat × Nat × Word) := []
  logged : List Nat := []
  issued : Bool := false
  failed : Bool := false

/-- Descriptor n of the line's berth. -/
def Comp.descN (m : Comp) (n : Nat) : Desc := m.desc.toList.getD (n % 16) {}

/-- The identity of the pipe's reads for a berth (Table 2-3). -/
def Comp.master (m : Comp) : Master := { cls := 3, id := m.id }

/-- The value a composition read of word wa sees where the cellar holds v: that, or one that a core store after the end of the line has replaced since, drawn
anew for each read (R206). -/
def Comp.seen (m : Comp) (wa : Nat) (v : Word) : Word × Comp :=
  let olds := m.stores.filter (fun e => decide (e.2.1 = wa))
  if olds.isEmpty then (v, m)
  else
    let (d, s1) := m.s.draw
    ((v :: olds.map (fun e => e.2.2)).getD (d % (olds.length + 1)) v, { m with s := s1 })

/-- One composition read of the word at graphics offset g through descriptor sel, for layer (R203, R204): a denial is logged once per berth,
layer and line (R85); poisoned data counts as a denial (Table 2-6). -/
def Comp.rdg (m : Comp) (layer sel g : Nat) : Option Word × Comp :=
  let wa := ((m.descN sel).base + g % 2 ^ 22) % 2 ^ 29
  match m.words.find? (fun e => e.1 = wa) with
  | some e => (e.2, { m with issued := true, failed := m.failed || e.2.isNone })
  | none =>
    match m.s.ledgerCheck m.die m.die wa m.master .read with
    | some (t, r) =>
      let s1 := if m.logged.contains layer then m.s else m.s.logViol m.die m.master .read t r (pkgWord m.die wa)
      (none, { m with s := s1, logged := layer :: m.logged, words := (wa, none) :: m.words, issued := true, failed := true })
    | none => match m.s.bankRead m.die wa m.master with
      | (.ok v, s1) =>
        let r := { m with s := s1 }.seen wa v
        (some r.1, { r.2 with words := (wa, some r.1) :: m.words, issued := true })
      | (.poison, s1) => (none, { m with s := s1, words := (wa, none) :: m.words, issued := true, failed := true })

/-- The live values in effect along a line: from each column, a table of values; columns ascending (R211). -/
abbrev LineVals := List (Nat × Tbl Word)

/-- The value of LV_ port p at a column. -/
def LineVals.at (v : LineVals) (c p : Nat) : Nat :=
  match v.reverse.find? (fun e => e.1 ≤ c) with
  | some e => (tget e.2 p (w16 (portDefault p))).toNat
  | none => portDefault p

/-- Stamps ordered by effective position, program order within one position (R107). -/
def insertStamp (t : Stamp) : List Stamp → List Stamp
  | [] => [t]
  | u :: r => if posLe u.frame (u.line * 8192 + u.col) t.frame (t.line * 8192 + t.col) then u :: insertStamp t r else t :: u :: r

/-- Apply stamps in order to live values. -/
def applyStamps (live : Tbl Word) (l : List Stamp) : Tbl Word :=
  l.foldl (fun b t => tput b t.port t.value (w16 (portDefault t.port))) live

/-- The stamps of a store whose effective position lies on or before line l of frame f. -/
def stampsUpTo (store : List Stamp) (f l : Nat) : List Stamp :=
  (store.filter (fun t => posLe t.frame t.line f l)).foldl (fun acc t => insertStamp t acc) []

/-- The values along a line: the pipe's live values, an armed commit at (0, 0), then the stamps in order (R107, R113). -/
def lineVals (p : PipeSide) (r : LineRec) : LineVals :=
  let base := match r.commit with
    | some sh => sh
    | none => p.live
  let all := stampsUpTo p.store r.frame r.line
  let early := all.filter (fun t => !decide (t.frame = r.frame ∧ t.line = r.line ∧ 0 < t.col))
  let late := all.filter (fun t => decide (t.frame = r.frame ∧ t.line = r.line ∧ 0 < t.col))
  late.foldl (fun (acc : LineVals) t =>
    let cur := match acc.getLast? with
      | some e => e
      | none => (0, [])
    let nv := tput cur.2 t.port t.value (w16 (portDefault t.port))
    if cur.1 = t.col then acc.dropLast ++ [(t.col, nv)] else acc ++ [(t.col, nv)]) [(0, applyStamps base early)]

/-- A colour index with its priority bit, before the palette. -/
structure IndexPix where
  index : Nat
  prio : Bool
  deriving DecidableEq, Repr

/-- Map coordinate of T0 in affine mode (R220); none outside the map. -/
def affineAt (v : LineVals) (c l w h : Nat) (wrap : Bool) : Option (Nat × Nat) :=
  let p := v.at c
  let s := fun n => (w16 (p n)).toInt
  let o := fun lo => (w32 (p lo + 65536 * p (lo + 1))).toInt
  let dx : Int := (c : Int) - (p 0x88 : Nat)
  let dy : Int := (l : Int) - (p 0x89 : Nat)
  let mx := asr (o 0x84 + s 0x80 * dx + s 0x81 * dy) 8
  let my := asr (o 0x86 + s 0x82 * dx + s 0x83 * dy) 8
  if wrap then some ((mx % (w : Int)).toNat, (my % (h : Int)).toNat)
  else if mx < 0 ∨ (w : Int) ≤ mx ∨ my < 0 ∨ (h : Int) ≤ my then none
  else some (mx.toNat, my.toNat)

/-- Pattern value of pixel x in a packed word (R213). -/
def packed (wd : Word) (x b : Nat) : Nat := wd.toNat / 2 ^ ((x * b) % 16) % 2 ^ b

/-- The pixel at position (px, py) of tile plane n's map: the map entry, then the pattern word (R213, R214, R216, R217). The map is
read where only the pattern's descriptor lacks R too (DESIGN CHOICE, assumption log 143). -/
def Comp.tileAt (m : Comp) (v : LineVals) (n c ts b mw px py : Nat) : Option IndexPix × Comp :=
  let p := fun k => v.at c (0x20 * n + k)
  let tsel := bitsOf (p 1) 3 0
  let r := m.rdg n (bitsOf (p 1) 7 4) (p 3 * 64 + py / ts * mw + px / ts)
  match r.1 with
  | none => (none, r.2)
  | some e =>
    let fx := if e.getLsbD 10 then ts - 1 - px % ts else px % ts
    let fy := if e.getLsbD 11 then ts - 1 - py % ts else py % ts
    if !(m.descN tsel).r then (none, r.2)
    else
      let w := r.2.rdg n tsel (p 2 * 64 + bitsOf e.toNat 9 0 * (ts * ts * b / 16) + fy * (ts * b / 16) + fx * b / 16)
      match w.1 with
      | none => (none, w.2)
      | some wd =>
        let x := packed wd fx b
        if x = 0 then (none, w.2)
        else (some ⟨(p 4 % 256 * 16 + bitsOf e.toNat 14 12 * 2 ^ b + x) % 4096, e.getLsbD 15⟩, w.2)

/-- The pixel of tile plane n at column c of line l (R215 to R221). -/
def Comp.tile (m : Comp) (v : LineVals) (n c l : Nat) : Option IndexPix × Comp :=
  let p := fun k => v.at c (0x20 * n + k)
  let ctl := p 0
  let bpp := bitsOf ctl 2 1
  let msel := bitsOf (p 1) 7 4
  if !bitOf ctl 0 || bpp == 3 || !(m.descN msel).r then (none, m)
  else
    let ts := if bitOf ctl 3 then 16 else 8
    let b := 2 * 2 ^ bpp
    let mw := 32 * 2 ^ bitsOf ctl 5 4
    let mh := 32 * 2 ^ bitsOf ctl 7 6
    let wrap := bitOf ctl 8
    let aff := decide (n = 0) && bitOf ctl 11
    let (cs, m1) := if !aff && bitOf ctl 9 then m.rdg n msel (p 7 * 64 + c / (if bitOf ctl 10 then 16 else 8)) else (some 0, m)
    match cs with
    | none => (none, m1)
    | some cv =>
      let pos : Option (Nat × Nat) :=
        if aff then affineAt v c l (mw * ts) (mh * ts) wrap
        else
          let px := (c + p 5) % 65536
          let py := (l + p 6 + cv.toNat) % 65536
          if wrap then some (px % (mw * ts), py % (mh * ts))
          else if mw * ts ≤ px ∨ mh * ts ≤ py then none else some (px, py)
      match pos with
      | none => (none, m1)
      | some q => m1.tileAt v n c ts b mw q.1 q.2

/-- A resolved pixel that a layer offers: rank, layer, class, SEMI and colour (R227, R244). -/
structure Pix where
  rank : Nat
  layer : Nat
  cls : Nat
  semi : Bool
  colour : Nat
  deriving DecidableEq, Repr

/-- Read one palette entry of the line, once per entry; one that is denied or poisoned stays so for this composition (R226, R619). -/
def Comp.palette (m : Comp) (v : LineVals) (layer c i : Nat) : Option Nat × Comp :=
  let sel := bitsOf (v.at c 0xB0) 3 0
  let g := (v.at c 0xB1 * 64 + 2 * i) % 2 ^ 22
  if !(m.descN sel).r then (none, m)
  else
    let wa := ((m.descN sel).base + g) % 2 ^ 29
    match m.pal.find? (fun e => e.1 = wa) with
    | some e => (e.2, m)
    | none =>
      let f := m.failed
      let k := m.words
      let (lo, m1) := { m with words := [] }.rdg layer sel g
      let (hi, m2) := m1.rdg layer sel (g + 1)
      let m3 := { m2 with failed := f, words := k }
      match lo, hi with
      | some a, some b => (some (a.toNat + 65536 * b.toNat), { m3 with pal := (wa, some (a.toNat + 65536 * b.toNat)) :: m3.pal })
      | _, _ => (none, { m3 with pal := (wa, none) :: m3.pal })

/-- The 32-bit entry of colour index i at a column: the lowest-numbered override in use, else the palette (R229). -/
def Comp.entry (m : Comp) (v : LineVals) (layer c i : Nat) : Option Nat × Comp :=
  match (List.range 16).find? (fun n =>
    let x := v.at c (0xC0 + 3 * n)
    bitOf x 15 && decide (bitsOf x 11 0 = i)) with
  | some n => (some (v.at c (0xC1 + 3 * n) + 65536 * v.at c (0xC2 + 3 * n)), m)
  | none => m.palette v layer c i

/-- An opaque pixel from a 32-bit entry; class CLEAR is transparent (R228). -/
def pixOf (e : Option Nat) (rank layer : Nat) (semi : Bool) : Option Pix :=
  match e with
  | none => none
  | some x => if bitsOf x 31 30 = 3 then none else some ⟨rank, layer, bitsOf x 31 30, semi, bitsOf x 29 0⟩

/-- Expand a 5:6:5 pixel to 10:10:10 (R224). -/
def expand565 (w : Nat) : Nat :=
  let r := bitsOf w 15 11
  let g := bitsOf w 10 5
  let b := bitsOf w 4 0
  (b * 32 + b) + (g * 16 + g / 4) * 2 ^ 10 + (r * 32 + r) * 2 ^ 20

/-- The pixel of the bitmap plane at column c of line l (R222 to R225), with rank rk. -/
def Comp.bitmap (m : Comp) (v : LineVals) (c l rk : Nat) : Option Pix × Comp :=
  let p := v.at c
  let ctl := p 0xA0
  let fmt := bitsOf ctl 2 1
  let sel := bitsOf (p 0xA1) 3 0
  if !bitOf ctl 0 || !(m.descN sel).r then (none, m)
  else
    let b := match fmt with
      | 0 => 4 | 1 => 8 | 2 => 16 | _ => 32
    let x := (c + p 0xA6) % 65536
    let y := (l + p 0xA7) % 65536
    let w := p 0xA4 + 1
    let h := p 0xA5 + 1
    let wrap := bitOf ctl 3
    if !wrap ∧ (w ≤ x ∨ h ≤ y) then (none, m)
    else
      let x1 := if wrap then x % w else x
      let y1 := if wrap then y % h else y
      let g := p 0xA2 * 64 + y1 * p 0xA3 + x1 * b / 16
      let (lo, m1) := m.rdg 4 sel g
      match lo with
      | none => (none, m1)
      | some a =>
        if fmt = 3 then
          let (hi, m2) := m1.rdg 4 sel (g + 1)
          match hi with
          | none => (none, m2)
          | some q => (pixOf (some (a.toNat + 65536 * q.toNat)) rk 4 false, m2)
        else if fmt = 2 then
          if bitOf ctl 4 ∧ a.toNat = p 0xA9 then (none, m1)
          else (pixOf (some (expand565 a.toNat + bitsOf ctl 6 5 * 2 ^ 30)) rk 4 false, m1)
        else
          let i := packed a x1 b
          if i = 0 then (none, m1)
          else
            let r := m1.entry v 4 c ((p 0xA8 % 256 * 16 + i) % 4096)
            (pixOf r.1 rk 4 false, r.2)

/-- A sprite accepted on a line (R233, R235): its fields. -/
structure Sprite where
  x : Nat
  y : Nat
  w : Nat
  h : Nat
  hflip : Bool
  vflip : Bool
  pat : Nat
  bank : Nat
  bpp : Nat
  pri : Nat
  prio : Bool
  semi : Bool
  swin : Bool
  deriving DecidableEq, Repr

/-- A sprite table entry of four words that takes part on line l (R233, R234). -/
def spriteOf (e : List Word) (l : Nat) : Option Sprite :=
  let w := fun i => (e.getD i 0).toNat
  let h := 8 * 2 ^ bitsOf (w 0) 13 12
  let y := bitsOf (w 0) 11 0
  if !bitOf (w 3) 15 ∨ bitsOf (w 2) 15 14 = 3 ∨ h ≤ (l + 4096 - y) % 4096 then none
  else some {
    x := bitsOf (w 1) 12 0, y := y, w := 8 * 2 ^ bitsOf (w 0) 15 14, h := h
    hflip := bitOf (w 1) 13, vflip := bitOf (w 1) 14
    pat := bitsOf (w 2) 10 0, bank := bitsOf (w 2) 13 11, bpp := bitsOf (w 2) 15 14
    pri := bitsOf (w 3) 1 0, prio := bitOf (w 3) 2, semi := bitOf (w 3) 3, swin := bitOf (w 3) 4 }

/-- Read n words from a graphics offset; none where one of them is denied or poisoned. -/
def Comp.rdRun (m : Comp) (layer sel g : Nat) : Nat → Option (List Word) × Comp
  | 0 => (some [], m)
  | n + 1 =>
    match m.rdg layer sel g with
    | (none, t) => (none, t)
    | (some v, t) =>
      let r := t.rdRun layer sel (g + 1) n
      (r.1.map (v :: ·), r.2)

/-- Evaluation of the sprite table of a line (R235 to R237): accepted sprites in order, the number dropped, and the width taken. -/
structure SpriteEval where
  acc : List Sprite := []
  width : Nat := 0
  dropped : Nat := 0
  m : Comp

/-- Evaluate entry i. -/
def SpriteEval.entry (e : SpriteEval) (sel base l i : Nat) : SpriteEval :=
  match { e.m with words := [] }.rdRun 5 sel (base * 64 + 4 * i) 4 with
  | (none, t) => { e with m := t }
  | (some ws, t) => match spriteOf ws l with
    | none => { e with m := t }
    | some sp =>
      if 0 < e.dropped ∨ 64 ≤ e.acc.length ∨ 1024 < e.width + sp.w then { e with m := t, dropped := e.dropped + 1 }
      else { e with m := t, acc := e.acc ++ [sp], width := e.width + sp.w }

/-- The sprites of line l, from the values in effect at (l, 0) (R235 to R237). -/
def Comp.sprites (m : Comp) (v : LineVals) (l : Nat) : SpriteEval :=
  let ctl := v.at 0 0x100
  let sel := bitsOf (v.at 0 0x101) 3 0
  if !bitOf ctl 0 ∨ !(m.descN sel).r then { m := m }
  else (List.range (bitsOf ctl 15 8 + 1)).foldl (fun e i => e.entry sel (v.at 0 0x102) l i) { m := m }

/-- One accepted sprite's pattern values over the line (R236 to R238), its patterns through the SPTSEL of (L, 0): at each column 0 to n - 1 its nonzero value; a failed pattern read makes it
transparent from that column on. -/
def Comp.spriteRow (m : Comp) (v : LineVals) (sp : Sprite) (l n : Nat) : List Nat × Comp :=
  let b := 2 * 2 ^ sp.bpp
  let sy0 := (l + 4096 - sp.y) % 4096
  let sy := if sp.vflip then sp.h - 1 - sy0 else sy0
  let sel := bitsOf (v.at 0 0x101) 7 4
  let r := (List.range n).foldl (fun (acc : List Nat × Comp × Bool) c =>
    let sx0 := (c + 8192 - sp.x) % 8192
    if acc.2.2 ∨ sp.w ≤ sx0 ∨ !(m.descN sel).r then (acc.1 ++ [0], acc.2.1, acc.2.2)
    else
      let sx := if sp.hflip then sp.w - 1 - sx0 else sx0
      let q := acc.2.1.rdg 5 sel (v.at c 0x103 * 64 + sp.pat * 16 + sy * (sp.w * b / 16) + sx * b / 16)
      match q.1 with
      | none => (acc.1 ++ [0], q.2, true)
      | some w => (acc.1 ++ [packed w sx b], q.2, false)) ([], { m with words := [] }, false)
  (r.1, r.2.1)

/-- The layer mask of a pixel (R241 to R243). -/
def layerMask (v : LineVals) (c l : Nat) (swin : Bool) : Nat :=
  let p := v.at c
  let ctl := p 0x120
  let box := fun k => decide (p k ≤ c ∧ c < p (k + 1) ∧ p (k + 2) ≤ l ∧ l < p (k + 3))
  let i := b2n (bitOf ctl 0 && box 0x121) + 2 * b2n (bitOf ctl 1 && box 0x125) + 4 * b2n (bitOf ctl 2 && swin)
  if ctl % 8 = 0 then 0x7F
  else bitsOf (p (0x129 + i / 2)) (8 * (i % 2) + 6) (8 * (i % 2))

/-- The sprite plane's pixel at a column: the first accepted sprite whose pixel is opaque (R239). -/
def Comp.spritePix (m : Comp) (v : LineVals) (c : Nat) : List (Sprite × Nat) → Option Pix × Comp
  | [] => (none, m)
  | (sp, x) :: r =>
    if x = 0 ∨ sp.swin then m.spritePix v c r
    else
      let i := (v.at c 0x104 % 256 * 16 + sp.bank * 2 ^ (2 * 2 ^ sp.bpp) + x) % 4096
      let q := m.entry v 5 c i
      match pixOf q.1 ((sp.pri * 2 + b2n sp.prio) * 8 + 5) 5 sp.semi with
      | some px => (some px, q.2)
      | none => q.2.spritePix v c r

/-- The blend mode in force: 0 OFF, 1 ADD, 2 SUB, 3 AVG, 4 COEF; an invalid COEF is OFF (R246, R247). -/
def blendMode (v : LineVals) (c : Nat) : Nat :=
  let md := bitsOf (v.at c 0x130) 2 0
  let co := v.at c 0x132
  if md = 0 ∨ 4 < md then 0
  else if md = 4 ∧ (16 < bitsOf co 4 0 ∨ (!bitOf co 15 ∧ 16 < bitsOf co 12 8)) then 0
  else md

/-- Blend two channels (R246). -/
def blendChan (md ea eb a b : Nat) : Nat :=
  match md with
  | 1 => min (a + b) 1023
  | 2 => a - b
  | 3 => (a + b + 1) / 2
  | _ => min ((ea * a + eb * b + 8) / 16) 1023

/-- Blend two colours (R246, R247). -/
def blend (v : LineVals) (c md a b : Nat) : Nat :=
  let co := v.at c 0x132
  let ea := bitsOf co 4 0
  let eb := if bitOf co 15 then 16 - ea else bitsOf co 12 8
  let f := fun lo => blendChan md ea eb (bitsOf a (lo + 9) lo) (bitsOf b (lo + 9) lo)
  f 0 + f 10 * 2 ^ 10 + f 20 * 2 ^ 20

/-- The class a pixel blends with: SEMI turns LAYER into BLEND on a sprite (R245). -/
def Pix.eff (p : Pix) : Nat := if p.layer = 5 ∧ p.semi ∧ p.cls = 0 then 1 else p.cls

/-- The pixel can blend (R245, R249). -/
def Pix.canBlend (p : Pix) (v : LineVals) (c mask : Nat) : Bool :=
  bitOf mask 6 && decide (p.eff ≠ 2) && (decide (p.eff = 1) || (decide (blendMode v c ≠ 0) && bitOf (v.at c 0x130) (4 + p.layer)))

/-- The resolved pixels of a column, highest rank first. -/
def insertPix (p : Pix) : List Pix → List Pix
  | [] => [p]
  | q :: r => if p.rank ≤ q.rank then q :: insertPix p r else p :: q :: r

/-- The colour of a column from its resolved pixels, highest rank first, with the flag of R268 in bits [31:30] (R244 to R247). -/
def composed (v : LineVals) (c mask : Nat) (ps : List Pix) : Nat :=
  let bk := v.at c 0xB2 + v.at c 0xB3 % 2 ^ 14 * 65536
  match ps with
  | [] => bk + 2 * 2 ^ 30
  | top :: r =>
    if !top.canBlend v c mask then top.colour
    else
      let under := match r with
        | u :: _ => (u.layer, u.colour)
        | [] => (6, bk)
      let md := blendMode v c
      if top.eff = 1 then blend v c (if md = 0 then 3 else md) top.colour under.2 + 2 ^ 30
      else if bitOf (v.at c 0x131) under.1 then blend v c md top.colour under.2 + 2 ^ 30
      else top.colour

/-- Level of a plane in LV_PRIO: n 0 to 3 for T0 to T3, 4 for BP. -/
def planeLevel (v : LineVals) (c n : Nat) : Nat := bitsOf (v.at c 0x110) (2 * n + 1) (2 * n)

/-- The maximum rank of plane n over the columns of a span (R248). -/
def maxRank (v : LineVals) (cols : List Nat) (n : Nat) : Nat :=
  cols.foldl (fun a c => max a (if n = 4 then planeLevel v c 4 * 16 + 4 else (planeLevel v c n * 2 + 1) * 8 + n)) 0

/-- Plane n is disabled at a column: EN 0, BPP 3, or a named descriptor without R (DP_SKIPPED). -/
def Comp.planeOff (m : Comp) (v : LineVals) (c n : Nat) : Bool :=
  if n = 4 then !bitOf (v.at c 0xA0) 0 || !(m.descN (bitsOf (v.at c 0xA1) 3 0)).r
  else
    let ctl := v.at c (0x20 * n)
    let seg := v.at c (0x20 * n + 1)
    !bitOf ctl 0 || decide (bitsOf ctl 2 1 = 3) || !(m.descN (bitsOf seg 3 0)).r || !(m.descN (bitsOf seg 7 4)).r

/-- A span under composition: its columns with mask and resolved pixels, and the layers fetched and skipped so far. -/
structure Span where
  cols : List (Nat × Nat × List Pix)
  fetched : Nat := 0
  skipped : Nat := 0
  m : Comp

/-- Plane n may be skipped at a column (R249). -/
def skipAt (v : LineVals) (n top : Nat) (col : Nat × Nat × List Pix) : Bool :=
  !bitOf col.2.1 n ||
  (match col.2.2 with
    | [] => false
    | f :: _ =>
      let need := if f.canBlend v col.1 col.2.1 then 2 else 1
      decide (need ≤ (col.2.2.filter (fun p => decide (top < p.rank))).length))

/-- The pixel of plane n at a column, with its rank (R244). -/
def Comp.planePix (m : Comp) (v : LineVals) (n c l : Nat) : Option Pix × Comp :=
  if n = 4 then m.bitmap v c l (planeLevel v c 4 * 16 + 4)
  else
    let r := m.tile v n c l
    match r.1 with
    | none => (none, r.2)
    | some i =>
      let e := r.2.entry v n c i.index
      (pixOf e.1 ((planeLevel v c n * 2 + b2n i.prio) * 8 + n) n false, e.2)

/-- Compose plane n into a span (R215, R241, R249, R250); a failed layer read makes the plane transparent in the span (Table 2-6), also in a
span that a stamp divides (DESIGN CHOICE, assumption log 144). -/
def Span.plane (z : Span) (v : LineVals) (l n : Nat) : Span :=
  let top := maxRank v (z.cols.map (·.1)) n
  if z.cols.all (fun c => z.m.planeOff v c.1 n) then z
  else if z.cols.all (skipAt v n top) then { z with skipped := z.skipped + 1 }
  else
    let r := z.cols.foldl (fun (acc : List (Option Pix) × Comp) col =>
      if !bitOf col.2.1 n then (acc.1 ++ [none], acc.2)
      else
        let q := acc.2.planePix v n col.1 l
        (acc.1 ++ [q.1], q.2)) ([], { z.m with words := [], issued := false, failed := false })
    let px := if r.2.failed then r.1.map (fun _ => none) else r.1
    let cols := (z.cols.zip px).map (fun e => match e.2 with
      | some p => (e.1.1, e.1.2.1, insertPix p e.1.2.2)
      | none => e.1)
    { z with cols := cols, fetched := z.fetched + b2n r.2.issued, m := r.2 }

/-- The planes of a span in descending order of maximum rank (R248). -/
def planeOrder (v : LineVals) (cols : List Nat) : List Nat :=
  (List.range 5).foldl (fun (acc : List Nat) n =>
    acc.filter (fun k => decide (maxRank v cols n < maxRank v cols k)) ++ [n] ++
    acc.filter (fun k => !decide (maxRank v cols n < maxRank v cols k))) []

/-- What the spans of a line have come to: pixels, layer-spans fetched and skipped, and cycles (R251). -/
structure SpanSum where
  pixels : List Nat := []
  fetched : Nat := 0
  skipped : Nat := 0
  cost : Nat := 0
  m : Comp

/-- The columns of a span with their layer masks and their sprite pixels (R239, R241 to R243). -/
def Comp.spanCols (m : Comp) (v : LineVals) (rows : List (Sprite × List Nat)) (l : Nat) (cs : List Nat) :
    List (Nat × Nat × List Pix) × Comp :=
  let inSwin := fun c => rows.any (fun e => e.1.swin && decide (e.2.getD c 0 ≠ 0))
  cs.foldl (fun (a : List (Nat × Nat × List Pix) × Comp) c =>
    let mask := layerMask v c l (inSwin c)
    if bitOf mask 5 then
      let q := a.2.spritePix v c (rows.map (fun e => (e.1, e.2.getD c 0)))
      (a.1 ++ [(c, mask, q.1.toList)], q.2)
    else (a.1 ++ [(c, mask, [])], a.2)) ([], m)

/-- Compose span j of a line, eight columns (R248 to R251). -/
def SpanSum.span (acc : SpanSum) (v : LineVals) (rows : List (Sprite × List Nat)) (l n j : Nat) : SpanSum :=
  let cs := (List.range 8).map (fun i => 8 * j + i) |>.filter (fun c => decide (c < n))
  let start := acc.m.spanCols v rows l cs
  let z := (planeOrder v cs).foldl (fun (z : Span) p => z.plane v l p) { cols := start.1, m := start.2 }
  let d := (cs.filter (fun c => decide (c ≠ 8 * j) && v.any (fun e => decide (e.1 = c)))).length
  { pixels := acc.pixels ++ z.cols.map (fun e => composed v e.1 e.2.1 e.2.2), fetched := acc.fetched + z.fetched
    skipped := acc.skipped + z.skipped, cost := acc.cost + max 4 (z.fetched + d), m := z.m }

/-- Compose one line of a berth (R85, R206, R211, R235 to R251), a second time too after a pipe has failed: the pixels, the sprites dropped, the cost, and the spans fetched and skipped. -/
def State.composeLine (s : State) (x : Berth) (r : LineRec) (now : Nat) : Composed × State :=
  let v := lineVals x.pipe r
  let n := r.geo.hvis
  let m0 : Comp := {
    s := s, die := x.die, id := x.id, desc := r.desc, stores := x.stores.filter (fun e => decide (r.endBt ≤ e.1))
    logged := if x.pipe.logged.1 = r.frame ∧ x.pipe.logged.2.1 = r.line then x.pipe.logged.2.2 else [] }
  let ev := m0.sprites v r.line
  let rows := ev.acc.foldl (fun (acc : List (Sprite × List Nat) × Comp) sp =>
    let q := acc.2.spriteRow v sp r.line n
    (acc.1 ++ [(sp, q.1)], q.2)) ([], ev.m)
  let res := (List.range ((n + 7) / 8)).foldl (fun (acc : SpanSum) j => acc.span v rows.1 r.line n j) { m := rows.2 }
  let ctl := v.at 0 0x100
  let cspr := if bitOf ctl 0 then (bitsOf ctl 15 8 + 1 + 3) / 4 + (ev.acc.map (fun sp => sp.w / 8)).foldl (· + ·) 0 else 0
  ({ berth := x.id, line := r, pixels := res.pixels, dropped := ev.dropped, cost := 8 + max res.cost cspr
     fetched := res.fetched, skipped := res.skipped, startAt := now },
    res.m.s.modBerth x.id (fun y => { y with pipe := { y.pipe with logged := (r.frame, r.line, res.m.logged) } }))

end Sys2Proof.Machine
end

