-- ==== Sys2Proof/Machine/Streams.lean ====
section
/-! DEFINITION. A berth's stream in its dock: pixel formats, packets, gap records, the transmit queue and its drops (R267, R268, R285 to R302,
R424 to R427, R430, R431). -/

namespace Sys2Proof.Machine

/-- Dither value d of Table 8-2 at line y, column x. -/
def ditherAt (y x : Nat) : Nat :=
  ([0, 8, 2, 10, 12, 4, 14, 6, 3, 11, 1, 9, 15, 7, 13, 5] : List Nat).getD (y % 4 * 4 + x % 4) 0

/-- A 30-bit colour with its flag as the FB16 word at line y, column x (R267). -/
def pix16 (dither : Bool) (y x v : Nat) : Nat :=
  let d := if dither then ditherAt y x else 8
  let r := min ((bitsOf v 29 20 + 2 * d) / 32) 31
  let g := min ((bitsOf v 19 10 + d) / 16) 63
  let b := min ((bitsOf v 9 0 + 2 * d) / 32) 31
  r * 2048 + g * 32 + b

/-- The words of a pixel in the berth's frame buffer format (R267, R268). -/
def Berth.pixWords (x : Berth) (y c v : Nat) : List Word :=
  let cfg := x.reg R.DP_FBCFG
  if bitOf cfg 0 then [w16 v, w16 (v / 65536)] else [w16 (pix16 (bitOf cfg 1) y c v)]

/-- The words of a pixel of the FILL colour, flag 0b10 (DP_FILL). -/
def Berth.fillWords (x : Berth) (y c : Nat) : List Word :=
  x.pixWords y c (bitsOf (x.reg R.DP_FILL) 29 0 + 2 * 2 ^ 30)

/-- Words per pixel of the frame buffer format: P of R266. -/
def Berth.pixLen (x : Berth) : Nat := if bitOf (x.reg R.DP_FBCFG) 0 then 2 else 1

/-- The bytes of a pixel's words as a VIDEO payload sends them (R291, R295). -/
def pixBytes (w : List Word) : List Byte :=
  match w with
  | [a] => beBytes 2 a.toNat
  | [a, b] => beBytes 4 (a.toNat + 65536 * b.toNat)
  | _ => []

/-- Losses of a stream that is bound: lines, frames and audio blocks not sent, with the reason of the cause (R301). -/
def Berth.addLoss (x : Berth) (lines frames audio reason : Nat) : Berth :=
  if !x.stream.bound then x
  else
    let q := x.stream
    { x with stream := { q with
        lostLines := q.lostLines + lines, lostFrames := q.lostFrames + frames, lostAudio := q.lostAudio + audio,
        reason := reason, report := true } }

/-- The gap record of R298. -/
def Stream.gapRecord (q : Stream) : List Byte :=
  [BitVec.ofNat 8 q.reason, 0] ++ beBytes 2 (min 65535 q.lostLines) ++ beBytes 2 (min 65535 q.lostFrames) ++
    beBytes 2 (min 65535 q.lostAudio)

/-- Queue a packet at the end of the stream's queue: a VIDEO packet, a GAP packet and the first packet after a rebinding carry the
record of the losses not yet reported, and REBOUND marks the first packet after a rebinding (R294, R298, R300, R301, R429). -/
def Berth.queuePacket (x : Berth) (p : Packet) : Berth :=
  let q := x.stream
  if !q.bound ∨ q.held then x
  else
    let rcd := decide (p.typ = 5) || (q.report && (decide (p.typ = 1) || q.rebound))
    let p1 := { p with
      flags := p.flags ||| b2n rcd ||| (if q.rebound then 64 else 0)
      payload := if rcd then q.gapRecord ++ p.payload else p.payload
      lost := if rcd then (q.lostLines, q.lostFrames, q.lostAudio) else (0, 0, 0) }
    let q1 := if rcd then { q with lostLines := 0, lostFrames := 0, lostAudio := 0, report := false } else q
    let q2 := { q1 with
      queue := q1.queue ++ [p1], rebound := false
      lastFrame := if p.typ = 1 then p.frame else q1.lastFrame }
    { x with stream := q2 }

/-- The places for packets other than video lines are full (R424, R426). -/
def Stream.othersFull (q : Stream) : Bool := decide (16 ≤ (q.queue.filter (·.other)).length)

/-- Queue an AUDIO packet (R296, R344, R426). -/
def Berth.queueAudio (x : Berth) (a : AudioBlock) : Berth :=
  let q := x.stream
  if q.held ∨ q.othersFull then x.addLoss 0 0 1 (if q.held then 6 else 1)
  else
    let smp := a.samples.foldl (fun l p => l ++ beBytes 3 (p.1 % 16777216).toNat ++ beBytes 3 (p.2 % 16777216).toNat) []
    x.queuePacket {
      typ := 2, flags := 0, frame := a.frame % 65536, line := a.line, btime := a.btime, other := true
      payload := beBytes 4 a.sample ++ beBytes 2 a.samples.length ++ [2, 24] ++ smp }

/-- Queue a GAP packet with a reason (R298, R300); one that finds no place is discarded (R426). -/
def Berth.queueGap (x : Berth) (reason : Nat) : Berth :=
  let q := x.stream
  if q.held ∨ q.othersFull then x
  else
    { x with stream := { q with reason := reason } }.queuePacket {
      typ := 5, flags := 0, frame := q.lastFrame % 65536, btime := x.side.bt, payload := [], other := true }

/-- The CONTROL packet of a frame arises and is held until the frame's first VIDEO packet is queued; one still held then has sent no line of
its frame, which counts as lost (R297, R426). -/
def Berth.newControl (x : Berth) (p : Packet) : Berth :=
  let y := if x.stream.control.isSome then x.addLoss 0 1 0 (if x.stream.held then 6 else 1) else x
  if y.stream.bound then { y with stream := { y.stream with control := some p } } else y

/-- Segment 0 of a video line arises: the line is queued while fewer than LEADQ lines are, else dropped and counted (R425, R431). -/
def Berth.openLine (x : Berth) (leadq : Nat) : Berth :=
  let q := x.stream
  if !q.bound then x
  else if q.held then { x.addLoss 1 0 0 6 with stream := { (x.addLoss 1 0 0 6).stream with cur := none } }
  else if q.opened.length < leadq then
    { x with stream := { q with opened := q.opened ++ [q.ser], cur := some q.ser, ser := q.ser + 1 } }
  else { x.addLoss 1 0 0 1 with qLines := x.qLines + 1, stream := { (x.addLoss 1 0 0 1).stream with cur := none } }

/-- Queue a segment of the line being queued, its frame's CONTROL packet directly before the first (R289, R426). -/
def Berth.queueSegment (x : Berth) (p : Packet) : Berth :=
  match x.stream.cur with
  | none => x
  | some n =>
    let y := match x.stream.control with
      | some c => { x with stream := { x.stream with control := none } }.queuePacket c
      | none => x
    y.queuePacket { p with ser := some n }

/-- The losses that the records of discarded packets carried: they are still to be reported (R301, R430). -/
def unsent (l : List Packet) : Nat × Nat × Nat :=
  l.foldl (fun a p => (a.1 + p.lost.1, a.2.1 + p.lost.2.1, a.2.2 + p.lost.2.2)) (0, 0, 0)

/-- Discard the stream's queued packets; counted with reason REBIND where count holds (R429, R430), each line that has not wholly left once, and what
their records were to report with them. -/
def Berth.discardQueue (x : Berth) (count : Bool) : Berth :=
  let q := x.stream
  let audio := (q.queue.filter (fun p => decide (p.typ = 2))).length
  let back := unsent q.queue
  let y := if count then x.addLoss (q.opened.length + back.1) back.2.1 (audio + back.2.2) 6 else x
  { y with stream := { y.stream with queue := [], opened := [], cur := none } }

/-- The CONTROL packet of a frame (R297): width, height, scale, mode, harbour and berth time of its line 0, and period. -/
def Berth.controlPacket (x : Berth) (frame w h scale mode htime btime period : Nat) (rep : Bool) : Packet :=
  let cfg := x.reg R.DP_FBCFG
  { typ := 4, flags := if rep then 32 else 0, frame := frame % 65536, btime := btime
    payload := beBytes 2 w ++ beBytes 2 h ++ [BitVec.ofNat 8 (cfg % 2), BitVec.ofNat 8 scale, BitVec.ofNat 8 mode,
      BitVec.ofNat 8 (bitsOf cfg 1 1)] ++ beBytes 8 htime ++ beBytes 4 btime ++ beBytes 4 period ++
      beBytes 4 x.stream.oframes ++ beBytes 2 x.gen.segBytes ++ [0, 0] }

/-- One more output frame of a bound stream (OFRAME of R297). -/
def Berth.countFrame (x : Berth) : Berth := { x with stream := { x.stream with oframes := (x.stream.oframes + 1) % 2 ^ 32 } }

/-- Nominal frame period of a geometry in ns under the berth's reference (R297). -/
def Berth.framePeriod (x : Berth) (g : Geometry) : Nat :=
  if x.gov.htime then x.gov.fpnum / x.gov.fpden else g.htotal * g.vtotal * 2 ^ 30 * 1000 / (480 * g.inc)

/-- Word i of entry e of quay q's stream table (Table 12-3). -/
def State.entryWord (s : State) (q e i : Nat) : Nat := ((tget (tget s.quays q {}).table e []).getD i 0)

/-- LEADQ of a berth's transmit entry, 1 to 64 in six bits: 0 is 64 (Table 12-3). -/
def State.leadQ (s : State) (x : Berth) : Nat :=
  let n := bitsOf (s.entryWord x.stream.quay x.stream.entry 11) 5 0
  if n = 0 then 64 else n

/-- The segments of a line's bytes: their indices and contents (R288). -/
def segments (seg : Nat) (l : List Byte) : List (Nat × List Byte) :=
  let n := if seg = 0 then 0 else (l.length + seg - 1) / seg
  (List.range n).map (fun i => (i, (l.drop (i * seg)).take seg))

/-- Queue a whole line of DIRECT video at its release (R286); words are its pixels in the frame buffer format. -/
def State.directLine (s : State) (x : Berth) (r : LineRec) (words : List (List Word)) (late : Bool) : Berth :=
  let cfg := x.reg R.DP_FBCFG
  let i := x.frameInfo r.frame
  let x1 := if r.line = 0 then
      (x.newControl (x.controlPacket r.frame r.geo.hvis r.geo.vvis 1 0 (i.time i.startBt) r.btime (x.framePeriod r.geo) false)).countFrame
    else x
  let x2 := x1.openLine (s.leadQ x)
  let segs := segments x.gen.segBytes (words.foldl (fun a p => a ++ pixBytes p) [])
  segs.foldl (fun y e =>
    let last := decide (e.1 + 1 = segs.length)
    y.queueSegment {
      typ := 1, seg := e.1, frame := r.frame % 65536, pf := cfg % 2, line := r.line, btime := r.btime, payload := e.2
      flags := (if last then 2 else 0) + (if last ∧ r.line + 1 = r.geo.vvis then 4 else 0) + (if late then 8 else 0)
      last := last }) x2

end Sys2Proof.Machine
end

