-- ==== Sys2Proof/Machine/Frames.lean ====
section
/-! DEFINITION. Ethernet framing of a quay: Table 12-2, checksums, MACsec, PFC and PTP frames (R412, R413, R417 to R420, R423, R438, R439). -/

namespace Sys2Proof.Machine

/-- The one's complement sum of the 16-bit words of a list of bytes, an odd last byte padded with 0. -/
def onesSum : List Byte → Nat
  | [] => 0
  | [a] => a.toNat * 256
  | a :: b :: r =>
    let v := onesSum r + a.toNat * 256 + b.toNat
    v % 65536 + v / 65536

/-- The internet checksum of a list of bytes. -/
def inetSum (l : List Byte) : Nat := 65535 - onesSum l

/-- A quay's record. -/
def State.quay (s : State) (q : Nat) : Quay := tget s.quays q {}

/-- Change a quay's record. -/
def State.modQuay (s : State) (q : Nat) (f : Quay → Quay) : State := { s with quays := tput s.quays q (f (s.quay q)) {} }

/-- The station MAC address of a quay, first octet first. -/
def State.macOf (s : State) (q : Nat) : List Byte :=
  beBytes 6 (s.reg (quayAddr q R.QY_MACLO) + bitsOf (s.reg (quayAddr q R.QY_MACHI)) 15 0 * 2 ^ 32)

/-- The IPv6 address of a quay. -/
def State.ip6Of (s : State) (q : Nat) : List Byte :=
  ([3, 2, 1, 0] : List Nat).flatMap (fun i => beBytes 4 (s.reg (quayAddr q (R.QY_IP6W + 4 * i))))

/-- The IPv4 address of a quay. -/
def State.ip4Of (s : State) (q : Nat) : List Byte := beBytes 4 (s.reg (quayAddr q R.QY_IP4))

/-- The 16 bytes of the IPv6 address in words 5 to 8 of an entry. -/
def entryIp6 (w : Nat → Nat) : List Byte := ([8, 7, 6, 5] : List Nat).flatMap (fun i => beBytes 4 (w i))

/-- The UDP datagram of Table 12-2 under a pseudo header; the checksum is computed where sum holds, else 0 (R418). -/
def udpBytes (pseudo : List Byte) (sport dport : Nat) (sum : Bool) (data : List Byte) : List Byte :=
  let len := beBytes 2 (8 + data.length)
  let head := beBytes 2 sport ++ beBytes 2 dport ++ len
  let c := inetSum (pseudo ++ head ++ [0, 0] ++ data)
  head ++ beBytes 2 (if sum then (if c = 0 then 65535 else c) else 0) ++ data

/-- The IP packet of Table 12-2 for a transmit entry w of quay q. -/
def State.ipBytes (s : State) (q : Nat) (w : Nat → Nat) (data : List Byte) : List Byte :=
  let six := bitOf (w 0) 17
  let dscp := bitsOf (w 0) 25 20
  let hops := if bitsOf (w 1) 19 12 = 0 then 64 else bitsOf (w 1) 19 12
  let sport := bitsOf (w 3) 31 16
  let dport := bitsOf (w 4) 15 0
  let ulen := 8 + data.length
  if six then
    let src := s.ip6Of q
    let dst := entryIp6 w
    beBytes 4 (6 * 2 ^ 28 + dscp * 4 * 2 ^ 20 + bitsOf (w 9) 19 0) ++ beBytes 2 ulen ++ [17, BitVec.ofNat 8 hops] ++ src ++ dst ++
      udpBytes (src ++ dst ++ beBytes 4 ulen ++ [0, 0, 0, 17]) sport dport true data
  else
    let src := s.ip4Of q
    let dst := beBytes 4 (w 5)
    let h0 := [0x45, BitVec.ofNat 8 (dscp * 4)] ++ beBytes 2 (20 + ulen) ++ [0, 0, 0x40, 0, BitVec.ofNat 8 hops, 17]
    h0 ++ beBytes 2 (inetSum (h0 ++ [0, 0] ++ src ++ dst)) ++ src ++ dst ++
      udpBytes (src ++ dst ++ [0, 17] ++ beBytes 2 ulen) sport dport (bitOf (w 0) 18) data

/-- What follows the addresses of an unprotected frame: tag, EtherType and IP packet (Table 12-2). -/
def State.frameTail (s : State) (q : Nat) (w : Nat → Nat) (data : List Byte) : List Byte :=
  (if bitOf (w 0) 16 then [0x81, 0x00] ++ beBytes 2 (bitsOf (w 0) 15 13 * 8192 + bitsOf (w 1) 11 0) else []) ++
  (if bitOf (w 0) 17 then [0x86, 0xDD] else [0x08, 0x00]) ++ s.ipBytes q w data

/-- The destination address of an entry. -/
def entryMac (w : Nat → Nat) : List Byte := beBytes 6 (w 2 + bitsOf (w 3) 15 0 * 2 ^ 32)

/-- Padding to a frame of 64 bytes, FCS and extra trailer included (R419). -/
def padTo (l : List Byte) (extra : Nat) : List Byte := l ++ List.replicate (60 - extra - l.length) 0

/-- The initial vector of GCM-AES-XPN: SSCI and packet number, with the salt (IEEE 802.1AE). -/
def Sa.iv (a : Sa) (pn : Nat) : List Byte := ((beBytes 4 a.ssci ++ beBytes 8 pn).zip a.salt).map (fun p => p.1 ^^^ p.2)

/-- Encipher or decipher bytes under an SA (R413). -/
def Sa.cipher (a : Sa) (pn : Nat) (l : List Byte) : List Byte :=
  (List.range l.length).map (fun i => l.getD i 0 ^^^ Config.gcmStream a.key (a.iv pn) i)

/-- The ICV of a protected frame. -/
def Sa.icv (a : Sa) (pn : Nat) (aad ct : List Byte) : List Byte :=
  (List.range 16).map (fun i => Config.gcmTag a.key (a.iv pn) aad ct i)

/-- The SecTAG of a frame: SCI sent, confidentiality on, short length when the data is under 48 bytes (R413, IEEE 802.1AE). -/
def Sa.tag (a : Sa) (pn len : Nat) : List Byte :=
  [0x88, 0xE5, BitVec.ofNat 8 (0x2C + a.an % 4), BitVec.ofNat 8 (if len < 48 then len else 0)] ++ beBytes 4 pn ++ a.sci

/-- The transmit SA in use on a quay. -/
def Quay.txSa (k : Quay) : Option Sa := k.sas.find? (fun a => a.tx && a.active)

/-- The transmit SA's next packet number. -/
def Quay.bumpPn (k : Quay) : Quay := { k with sas := k.sas.map (fun a => if a.tx && a.active then { a with pn := a.pn + 1 } else a) }

/-- The offset of the UDP payload in a frame of an entry. -/
def payloadAt (w : Nat → Nat) : Nat :=
  12 + (if bitOf (w 0) 19 then 16 else 0) + (if bitOf (w 0) 16 then 4 else 0) + 2 + (if bitOf (w 0) 17 then 40 else 20) + 8

/-- Build the frame of a packet's UDP payload for entry w of quay q (R417 to R419), protected by sa where the entry's SEC is 1. -/
def State.buildFrame (s : State) (q : Nat) (w : Nat → Nat) (sa : Option Sa) (data : List Byte) : List Byte :=
  let da := entryMac w
  let src := s.macOf q
  match (if bitOf (w 0) 19 then sa else none) with
  | none => padTo (da ++ src ++ s.frameTail q w data) 0
  | some a =>
    let tail := s.frameTail q w data
    let pl := (padTo (da ++ src ++ List.replicate 16 0 ++ tail) 16).drop 28
    let tag := a.tag a.pn pl.length
    let ct := a.cipher a.pn pl
    da ++ src ++ tag ++ ct ++ a.icv a.pn (da ++ src ++ tag) ct

/-- Invert bit n of byte i of a list. -/
def flipBit (l : List Byte) (i n : Nat) : List Byte := l.set i (l.getD i 0 ^^^ BitVec.ofNat 8 (2 ^ n))

/-- The EtherType and the rest of a frame after its addresses and at most one 802.1Q tag. -/
def untag (l : List Byte) : Nat × List Byte :=
  let t := l.drop 12
  let e := ofBe (t.take 2)
  if e = 0x8100 then (ofBe ((t.drop 4).take 2), t.drop 6) else (e, t.drop 2)

/-- The PTP message of a frame over UDP port 319 or 320 or EtherType 0x88F7 (Table 12-1). -/
def ptpOf (l : List Byte) : Option (List Byte) :=
  let (e, r) := untag l
  if e = 0x88F7 then some r
  else if e = 0x0800 ∧ r.getD 9 0 = 17 ∧ (ofBe ((r.drop 22).take 2) = 319 ∨ ofBe ((r.drop 22).take 2) = 320) then some (r.drop 28)
  else if e = 0x86DD ∧ r.getD 6 0 = 17 ∧ (ofBe ((r.drop 42).take 2) = 319 ∨ ofBe ((r.drop 42).take 2) = 320) then some (r.drop 48)
  else none

/-- The sequence ID and message type of a PTP event message (R439). -/
def ptpEvent (l : List Byte) : Option (Nat × Nat) :=
  match ptpOf l with
  | some m => if m.length < 32 ∨ 4 ≤ (m.getD 0 0).toNat % 16 then none
      else some (ofBe ((m.drop 30).take 2), (m.getD 0 0).toNat % 16)
  | none => none

/-- A PFC frame of a quay with the same time for every class of a mask (R423, R438, IEEE 802.1Qbb). -/
def State.pfcFrame (s : State) (q mask time : Nat) : List Byte :=
  padTo ([0x01, 0x80, 0xC2, 0, 0, 0x01] ++ s.macOf q ++ [0x88, 0x08, 0x01, 0x01] ++ beBytes 2 mask ++
    (List.range 8).flatMap (fun c => beBytes 2 (if bitOf mask c then time else 0))) 0

/-- Set bits of QY_EVENT, with the level source 402 + q of the quay's die. -/
def State.quayEvent (s : State) (q m : Nat) : State :=
  s.withLevel (q / 18) (402 + q % 18) (fun t => t.setBits (quayAddr q R.QY_EVENT) m)

/-- Put a time stamp into a FIFO of 16: lost with OVF when full, the event when it was empty (R439). -/
def State.pushStamp (s : State) (q : Nat) (tx : Bool) (e : Nat × Nat) : State :=
  let k := s.quay q
  let l := if tx then k.txts else k.rxts
  if 16 ≤ l.length then s.setFlag (quayAddr q (if tx then R.QY_TXTSINFO else R.QY_RXTSINFO)) 30 true
  else
    let n := l ++ [⟨s.now, e.1, e.2⟩]
    let t := s.modQuay q (fun k => if tx then { k with txts := n } else { k with rxts := n })
    if l.isEmpty then t.quayEvent q (if tx then 1 else 2) else t

/-- A frame leaves on the wire: it is counted, and stamped where it is a PTP event message (R439). -/
def State.sendFrame (s : State) (q : Nat) (bytes : List Byte) (fcs : Bool) : State :=
  let t := (s.modQuay q (fun k => { k with sent := k.sent ++ [⟨bytes, fcs, s.htime⟩] })).addFld (quayAddr q R.QY_TXPKTS) 31 0 1
  if t.flag (quayAddr q R.QY_CFG) 5 then
    match ptpEvent bytes with
    | some e => t.pushStamp q true e
    | none => t
  else t

/-- A line was dropped from a stream's queue (R425): the quay counts it. -/
def State.noteDrop (s : State) (x y : Berth) : State :=
  if y.stream.bound ∧ !y.stream.held ∧ x.stream.lostLines < y.stream.lostLines then
    (s.addFld (quayAddr y.stream.quay R.QY_QDROPLINES) 31 0 1).quayEvent y.stream.quay 8
  else s

end Sys2Proof.Machine
end

