-- ==== Sys2Proof/Machine/Slices.lean ====
section
/-! DEFINITION. Self-test records, abandoned slices and what a slot's slice decides, which recovery, the pipe and the commands share
(R508, R517, R519 to R521). -/

namespace Sys2Proof.Machine

/-- End a slice with a record (R521, Table 13-12): HIC source 428, and EV_SELFTEST_FAIL for RESULT 1 and 3. -/
def State.recordTest (s : State) (d kind unit result bit repairs addr : Nat) : State :=
  let seq := s.reg (dieAddr d R.ST_SEQ)
  let r : TestRec := ⟨seq, d, kind, unit, result, bit, repairs, addr, s.now⟩
  let mine := (s.testLog.filter (fun t => decide (t.die = d))).length
  let old := if 1024 ≤ mine then
      match s.testLog.findIdx? (fun t => decide (t.die = d)) with
      | some i => s.testLog.eraseIdx i
      | none => s.testLog
    else s.testLog
  let t := ({ s with testLog := old ++ [r] }.addFld (dieAddr d R.ST_SEQ) 31 0 1).hicSet d 428
  if result = 1 ∨ result = 3 then
    t.post 0x08 none d (detail [(kind, 1), (result, 1), (unit, 2), (addr, 4), (bit, 1), (0, 3), (seq, 4)])
  else t

/-- The deputy of die d has halted (R515). -/
def State.deputyHalted (s : State) (d : Nat) : Bool := s.flag (dieAddr d R.ST_VOTE) 4

/-- Take the slice of a unit out of the queue. -/
def State.dropSlice (s : State) (d kind unit : Nat) : State :=
  { s with slices := s.slices.filter (fun z => !decide (z.die = d ∧ z.kind = kind ∧ z.unit = unit)) }

/-- Abandon the slice of a unit, if it has one, with RESULT 4 (R520). -/
def State.abandonSlice (s : State) (d kind unit : Nat) : State :=
  if s.slices.any (fun z => decide (z.die = d ∧ z.kind = kind ∧ z.unit = unit)) then
    ((s.dropSlice d kind unit).setFlag (dieAddr d R.ST_STAT) 17 true).recordTest d kind unit 4 255 0 0
  else s

/-- A slot's slice has passed: the slot is SPARE, its DK_FAULTTEST bit clear (R508, R510, R519); the return of a slot that a mismatch left is
kept for R508's 10 s. -/
def State.slotPassed (s : State) (d k n : Nat) : State :=
  let hurt := s.flag (dockAddr d k R.DK_FAULTTEST) n
  let t := (s.setSlot d k n 0).setFlag (dockAddr d k R.DK_FAULTTEST) n false
  if hurt then { t with spareAt := tins t.spareAt (slotKey d k n) s.htime } else t

/-- A slot is RETIRED (R508). -/
def State.slotRetired (s : State) (d k n : Nat) : State :=
  (s.setSlot d k n 3).setFlag (dockAddr d k R.DK_FAULTTEST) n false

/-- The dock that the spare pipe of die d serves. -/
def State.spareDock (s : State) (d : Nat) : Option Nat :=
  (List.range 16).find? (fun k => s.flag (dockAddr d k R.DK_PIPE) 0)

/-- Key of dock k's pipe state; the spare pipe of a die stands under k = 16 of the next key range. -/
def pipeKey (d k : Nat) : Nat := d * 16 + k

/-- Key of the spare pipe of die d. -/
def spareKey (d : Nat) : Nat := 4096 + d

/-- The pipe state of dock k. -/
def State.pipeOf (s : State) (d k : Nat) : DockPipe := tget s.pipes (pipeKey d k) {}

/-- Store the pipe state of dock k. -/
def State.setPipe (s : State) (d k : Nat) (p : DockPipe) : State := { s with pipes := tput s.pipes (pipeKey d k) p {} }

/-- The spare pipe of die d has failed. -/
def State.spareFailed (s : State) (d : Nat) : Bool := (tget s.pipes (spareKey d) {}).failed

/-- Mark the spare pipe of die d failed or sound. -/
def State.setSpareFailed (s : State) (d : Nat) (x : Bool) : State :=
  { s with pipes := tput s.pipes (spareKey d) { tget s.pipes (spareKey d) {} with failed := x } {} }

/-- The berths that hold a slot of dock k of die d. -/
def State.dockBerths (s : State) (d k : Nat) : List Berth :=
  (s.berths.filter (fun e => decide (e.2.die = d ∧ e.2.dock = k) && !e.2.parked)).map (·.2)

end Sys2Proof.Machine
end

