-- ==== Sys2Proof/Machine/Engines.lean ====
section
/-! DEFINITION. The Ferry and the Lighter: release of items, manifests, stream units, job rows, completions and engine faults (R345 to R381,
R618). -/

namespace Sys2Proof.Machine

/-- The identity of a Ferry access (Table 2-3). -/
def ferryMaster (b : Nat) : Master := { cls := 1, id := b }

/-- The identity of a Lighter access (Table 2-3). -/
def lighterMaster (b : Nat) : Master := { cls := 2, id := b }

/-- Word i of a manifest or a job. -/
def itemWord (m : List Word) (i : Nat) : Nat := (m.getD i 0).toNat

/-- Descriptor n of those an item keeps (R347). -/
def keptDesc (d : Vector Desc 16) (n : Nat) : Desc := d.toList.getD (n % 16) {}

/-- The die-local word address of graphics offset g through an item's descriptor (R203, R345). -/
def keptAddr (d : Vector Desc 16) (n g : Nat) : Nat := ((keptDesc d n).base + g % 2 ^ 22) % 2 ^ 29

/-- The offset of word i of an operand, circular in its aligned block of 2^k words or linear (R362). -/
def opoff (off : Nat) (circ : Bool) (k i : Nat) : Nat :=
  if circ then (off % 2 ^ 22) / 2 ^ k * 2 ^ k + (off + i) % 2 ^ k else (off + i) % 2 ^ 22

/-- LEN of a manifest (M5). -/
def manLen (m : List Word) : Nat := itemWord m 5 + 1

/-- OP of a manifest. -/
def manOp (m : List Word) : Nat := bitsOf (itemWord m 0) 1 0

/-- STREAM of a manifest. -/
def manStream (m : List Word) : Bool := bitOf (itemWord m 0) 2

/-- Graphics offset of source word i. -/
def manSrc (m : List Word) (i : Nat) : Nat :=
  opoff (itemWord m 1 + bitsOf (itemWord m 2) 5 0 * 65536) (bitOf (itemWord m 0) 8) (bitsOf (itemWord m 6) 4 0) i

/-- Graphics offset of destination word i. -/
def manDst (m : List Word) (i : Nat) : Nat :=
  opoff (itemWord m 3 + bitsOf (itemWord m 4) 5 0 * 65536) (bitOf (itemWord m 0) 9) (bitsOf (itemWord m 6) 12 8) i

/-- Source and destination selectors of a manifest or a job. -/
def itemSel (m : List Word) : Nat × Nat := (bitsOf (itemWord m 2) 11 8, bitsOf (itemWord m 4) 11 8)

/-- Die-local word address of source word i of a Ferry item. -/
def FItem.src (f : FItem) (i : Nat) : Nat := keptAddr f.desc (itemSel f.man).1 (manSrc f.man i)

/-- Die-local word address of destination word i of a Ferry item. -/
def FItem.dst (f : FItem) (i : Nat) : Nat := keptAddr f.desc (itemSel f.man).2 (manDst f.man i)

/-- BARRIER of a manifest; COMPARE ignores it (R365). -/
def manBarrier (m : List Word) : Bool := bitOf (itemWord m 0) 7 && decide (manOp m ≠ 2)

/-- The rights a manifest needs are in its descriptors (R345, R362): the barrier's read-back is a read of the destination. -/
def FItem.rightsOk (f : FItem) : Bool :=
  let s := keptDesc f.desc (itemSel f.man).1
  let d := keptDesc f.desc (itemSel f.man).2
  match manOp f.man with
  | 0 => (manStream f.man || s.r) && d.w && (!manBarrier f.man || d.r)
  | 1 => d.w && (!manBarrier f.man || d.r)
  | _ => s.r && d.r

/-- The overlap whose result is that of a word-by-word copy: linear operands through one descriptor, the destination at or below the source
(R363). -/
def FItem.plainCopy (f : FItem) : Bool :=
  !bitOf (itemWord f.man 0) 8 && !bitOf (itemWord f.man 0) 9 && decide ((itemSel f.man).1 = (itemSel f.man).2) &&
    decide (manDst f.man 0 ≤ manSrc f.man 0)

/-- Source and destination words of a COPY overlap. -/
def FItem.overlaps (f : FItem) : Bool :=
  decide (manOp f.man = 0) && !manStream f.man &&
    (let n := manLen f.man
     let lo := fun (g : Nat → Nat) => (List.range n).foldl (fun a i => min a (g i)) (2 ^ 29)
     let hi := fun (g : Nat → Nat) => (List.range n).foldl (fun a i => max a (g i)) 0
     decide (lo f.src ≤ hi f.dst ∧ lo f.dst ≤ hi f.src))

/-- The 64-byte line of the cellar that holds a word (R618). -/
def lineOf (wa : Nat) : Nat := wa / 32

/-- A line access of the manifest ends before word i: one of its operands goes on to another line there, or the manifest is at its end. -/
def FItem.lineEnd (f : FItem) (i : Nat) : Bool :=
  decide (manLen f.man ≤ i ∨ lineOf (f.dst i) ≠ lineOf (f.dst (i - 1))) ||
    (decide (manOp f.man ≠ 1) && decide (lineOf (f.src i) ≠ lineOf (f.src (i - 1))))

/-- The words an aborted manifest moves when the abort reaches it after n of them: the line access in progress ends first (R359). -/
def FItem.stopAt (f : FItem) (n : Nat) : Nat :=
  if n = 0 then 0 else ((List.range (manLen f.man + 1 - n)).find? (fun k => f.lineEnd (n + k))).elim (manLen f.man) (n + ·)

/-- A run of the Ferry over a manifest: the state, the words done, the result and DIFF, the original values of the words written, and the values
settled for words of an overlapping copy. -/
structure FRun where
  s : State
  count : Nat := 0
  result : Option Nat := none
  diff : Nat := 0
  orig : Tbl Word := []
  plan : Tbl Word := []

/-- The values a core store later than the trigger has replaced in word wa: an engine's read may still see them (R351). -/
def State.unseen (s : State) (b trig wa : Nat) : List Word :=
  match s.berth b with
  | none => []
  | some x => (x.stores.filter (fun e => decide (trig < e.1 ∧ e.2.1 = wa))).map (fun e => e.2.2)

/-- The value an engine's read of word wa sees where the cellar holds v (R351): drawn anew for each read from v and what later core stores have
replaced. -/
def State.seenBy (s : State) (b trig wa : Nat) (v : Word) : Word × State :=
  let olds := s.unseen b trig wa
  if olds.isEmpty then (v, s)
  else
    let c := s.draw
    ((v :: olds).getD (c.1 % (olds.length + 1)) v, c.2)

/-- A read by an engine for an item of berth b: the word, and result 6 where the access fails or 7 where the word is poisoned (R351, R364, R373). -/
def State.engineRead (s : State) (b trig d wa : Nat) (m : Master) : (Word × Option Nat) × State :=
  match s.cellRead d d wa m with
  | (.ok v, t) => let r := t.seenBy b trig wa v; ((r.1, none), r.2)
  | (.denied, t) => ((0, some 6), t)
  | (.poison, t) => ((0, some 7), t)

/-- A write by an engine: result 6 where it fails (R364, R373). -/
def State.engineWrite (s : State) (d wa : Nat) (v : Word) (m : Master) : Option Nat × State :=
  match s.cellWrite d d wa v m with
  | (true, t) => (none, t)
  | (false, t) => (some 6, t)

/-- A read issued ahead and discarded: one that the ledger denies is logged once for its line (R618). -/
def State.readAhead (s : State) (d wa : Nat) (m : Master) (fresh : Bool) : State :=
  if !fresh ∧ (s.ledgerCheck d d wa m .read).isSome then s else (s.cellRead d d wa m).2

/-- The reads of one operand issued ahead of word i: of its line, and of lines more of them, among at most n words (R618). -/
def State.readsAhead (s : State) (d : Nat) (m : Master) (adr : Nat → Nat) (i lines : Nat) : Nat → State
  | 0 => s
  | n + 1 =>
    let fresh := decide (lineOf (adr (i + 1)) ≠ lineOf (adr i))
    if fresh ∧ lines = 0 then s
    else (s.readAhead d (adr (i + 1)) m fresh).readsAhead d m adr (i + 1) (if fresh then lines - 1 else lines) n

/-- After a failing word or a DIFF at word i the reads issued ahead of it are discarded: how many lines of each operand, up to 64, is open
(R618, assumption log 56). A COMPARE whose source read failed may have read the destination word already. -/
def FRun.ahead (r : FRun) (f : FItem) (d b : Nat) : FRun :=
  let i := r.count
  let n := manLen f.man - 1 - i
  match r.result, manOp f.man with
  | none, _ => r
  | _, 1 => r
  | some e, op =>
    let c := r.s.draw
    let s1 := c.2.readsAhead d (ferryMaster b) f.src i (c.1 % 65) n
    if op = 0 then { r with s := s1 }
    else
      let q := s1.draw
      let own := decide (e ≠ 3 ∧ q.1 / 65 % 2 = 1)
      let s2 := if own then q.2.readAhead d (f.dst i) (ferryMaster b) true else q.2
      { r with s := if own ∨ e = 3 then s2.readsAhead d (ferryMaster b) f.dst i (q.1 % 65) n else s2 }

/-- What stood in a word before the manifest wrote it. -/
def FRun.original (r : FRun) (d wa : Nat) : Word := (tfind r.orig wa).getD (r.s.word (pkgWord d wa))

/-- The words of a manifest that write source word i. -/
def FItem.writers (f : FItem) (i : Nat) : List Nat := (List.range (manLen f.man)).filter (fun j => decide (j ≠ i ∧ f.dst j = f.src i))

/-- The value that word i of an overlapping copy writes, outside R363's first case: the original value of its source word or the value that the manifest
writes to that word, as settled for the words already considered; an open choice (assumption log 9). -/
def FRun.choose (r : FRun) (f : FItem) (d i : Nat) : Nat → Word × FRun
  | 0 => (r.original d (f.src i), r)
  | n + 1 => match tfind r.plan i with
    | some v => (v, r)
    | none =>
      let ws := f.writers i
      if ws.isEmpty then (r.original d (f.src i), r)
      else
        let c := r.s.draw
        let k := c.1 % (ws.length + 1)
        let z := { r with s := c.2 }
        let a := if k = 0 then (r.original d (f.src i), z) else z.choose f d (ws.getD (k - 1) 0) n
        (a.1, { a.2 with plan := tins a.2.plan i a.1 })

/-- The word a COPY writes for source word i: the word v as read, or in an overlap outside R363's first case either value of the two. -/
def FRun.pick (r : FRun) (f : FItem) (d : Nat) (lap : Bool) (i : Nat) (v : Word) : Word × FRun :=
  if !lap ∨ f.plainCopy ∨ ((f.writers i).isEmpty ∧ (tfind r.orig (f.src i)).isNone) then (v, r) else r.choose f d i (manLen f.man)

/-- Destination word i of a manifest is written with v, and its original value is kept. -/
def FRun.put (r : FRun) (f : FItem) (d b i : Nat) (v : Word) : FRun :=
  let old := r.s.word (pkgWord d (f.dst i))
  let w := r.s.engineWrite d (f.dst i) v (ferryMaster b)
  match w.1 with
  | none => { r with s := w.2, count := i + 1, orig := if (tfind r.orig (f.dst i)).isSome then r.orig else tins r.orig (f.dst i) old }
  | some e => { r with s := w.2, result := some e }

/-- Word i of a COPY (R362, R364). -/
def FRun.copyWord (r : FRun) (f : FItem) (d b : Nat) (lap : Bool) (i : Nat) : FRun :=
  let a := r.s.engineRead b f.trig d (f.src i) (ferryMaster b)
  match a.1.2 with
  | some e => { r with s := a.2, result := some e }
  | none =>
    let p := { r with s := a.2 }.pick f d lap i a.1.1
    p.2.put f d b i p.1

/-- Word i of a COMPARE (R362, R364). -/
def FRun.compareWord (r : FRun) (f : FItem) (d b i : Nat) : FRun :=
  let a := r.s.engineRead b f.trig d (f.src i) (ferryMaster b)
  match a.1.2 with
  | some e => { r with s := a.2, result := some e }
  | none =>
    let c := a.2.engineRead b f.trig d (f.dst i) (ferryMaster b)
    match c.1.2 with
    | some e => { r with s := c.2, result := some e }
    | none =>
      if a.1.1 = c.1.1 then { r with s := c.2, count := i + 1 } else { r with s := c.2, count := i, diff := i, result := some 3 }

/-- Word i of a manifest that is not in stream mode (R362, R364, R618). -/
def FRun.word (r : FRun) (f : FItem) (d b : Nat) (lap : Bool) (i : Nat) : FRun :=
  match manOp f.man with
  | 0 => r.copyWord f d b lap i
  | 1 => r.put f d b i (w16 (itemWord f.man 1))
  | _ => r.compareWord f d b i

/-- Words i onward, at most n of them, up to the first that fails. -/
def FRun.words (r : FRun) (f : FItem) (d b : Nat) (lap : Bool) (i : Nat) : Nat → FRun
  | 0 => r
  | n + 1 => if r.result.isSome then r else (r.word f d b lap i).words f d b lap (i + 1) n

/-- The barrier's read-back of the last word written (R365). -/
def FRun.barrier (r : FRun) (f : FItem) (d b : Nat) : FRun :=
  if !manBarrier f.man ∨ r.result.isSome then r
  else
    let a := r.s.engineRead b f.trig d (f.dst (manLen f.man - 1)) (ferryMaster b)
    { r with s := a.2, result := a.1.2 }

/-- A manifest completes (R350, R364, R369): its outcome waits for a watch start, the Ferry counts it, and a berth that waited for it to be parked is parked
(R356). -/
def State.ferryDone (s : State) (b : Nat) (f : FItem) (result count diff : Nat) : State :=
  match s.berth b with
  | none => s
  | some x =>
    let y := { x with
      fq := x.fq.filter (fun g => !decide (g.ch = f.ch)),
      outside := x.outside ++ [{ chg := .ferryDone f.ch result count diff (bitOf (itemWord f.man 0) 10) }] }
    ((s.setBerth y).addFld (dockAddr x.die x.dock R.FY_DONE) 31 0 1).settlePark b

/-- A Lighter job completes (R379). -/
def State.lighterDone (s : State) (b : Nat) (j : LItem) (result : Nat) : State :=
  match s.berth b with
  | none => s
  | some x =>
    let y := { x with
      lq := x.lq.filter (fun g => !decide (g.seq = j.seq)),
      outside := x.outside ++ [{ chg := .lighterDone j.tag result (bitOf (itemWord j.words 0) 9) }] }
    (s.setBerth y).addFld (dockAddr x.die x.dock R.LT_DONE) 31 0 1

/-- A job that ends with FAULT before it starts: its number is kept, so that later jobs may start in PUSH order (R377, R381). -/
def State.lighterDead (s : State) (b : Nat) (j : LItem) : State :=
  (s.lighterDone b j 10).modBerth b (fun y => { y with deadJobs := y.deadJobs ++ [j.seq] })

/-- The Ferry (e = 0) or Lighter (e = 1) of a dock accepts no items (R381). -/
def State.engineStopped (s : State) (d k e : Nat) : Bool :=
  s.flag (dockAddr d k (if e = 0 then R.FY_STAT else R.LT_STAT)) 8

/-- Release one Ferry manifest to its engine (R349, R359, R367, R381). -/
def State.releaseManifest (s : State) (b : Nat) (f : FItem) : State :=
  match s.berth b with
  | none => s
  | some x =>
    if s.engineStopped x.die x.dock 0 then s.ferryDone b f 10 0 0
    else if f.aborted then s.ferryDone b f 5 0 0
    else if manStream f.man ∧ (x.rx.getD (bitsOf (itemWord f.man 1) 1 0) none).isNone then s.ferryDone b f 11 0 0
    else s.setBerth { x with fq := x.fq ++ [f] }

/-- Release the engine starts, aborts and deadlines of a watch, with the descriptors as they stood before the changes of its commit (R347,
R349, R359, R360, R368). -/
def State.releaseStarts (s : State) (b : Nat) (desc : Vector Desc 16) (l : List Start) : State :=
  let aborts := l.filterMap (fun a => match a with | .ferryAbort c => some c | _ => none)
  let ends := l.filterMap (fun a => match a with | .deadline c => some c | _ => none)
  let mans := (List.range 4).filterMap (fun c => l.findSome? (fun a => match a with
    | .ferry n m t => if n = c then some (c, m, t) else none
    | _ => none))
  let s1 := s.modBerth b (fun x => { x with fq := x.fq.map (fun f =>
    { f with aborted := f.aborted || aborts.contains f.ch, deadline := f.deadline || ends.contains f.ch }) })
  let s2 := mans.foldl (fun (t : State) e => t.releaseManifest b
    { ch := e.1, man := e.2.1, desc := desc, aborted := aborts.contains e.1, deadline := ends.contains e.1, trig := e.2.2 }) s1
  l.foldl (fun (t : State) a => match a with
    | .lighter q tag w trig =>
      let j : LItem := { seq := q, tag := tag, words := w, desc := desc, trig := trig }
      (match t.berth b with
        | none => t
        | some x => if t.engineStopped x.die x.dock 1 then t.lighterDead b j else t.setBerth { x with lq := x.lq ++ [j] })
    | _ => t) s2

/-- The engines work for a berth: it stands in a dock and is not leaving it (R356). -/
def Berth.engaged (x : Berth) : Bool := !x.parked && !x.moving

/-- FERRY_MANIFEST_START: the oldest released manifest of berth b starts (R345, R359, R360). -/
def execFerryManifestStart (b at_ : Nat) (s : State) : Answer :=
  .next (match s.berth b with
    | none => s
    | some x => match x.fq with
      | [] => s
      | f :: rest =>
        if f.started ∨ !x.engaged then s
        else
          let u := s.at at_
          if s.engineStopped x.die x.dock 0 then u.ferryDone b f 10 0 0
          else if f.aborted then u.ferryDone b f 5 0 0
          else if !f.rightsOk then u.ferryDone b f 8 0 0
          else u.modBerth b (fun y => { y with fq := { f with started := true } :: rest }))

/-- A 32-word unit of a stream manifest (R367): words j onward, at most n. Answers the words written and the failure. -/
def State.streamWords (s : State) (x : Berth) (f : FItem) (r : RxRing) (j : Nat) : Nat → (Nat × Option Nat) × State
  | 0 => ((j, none), s)
  | n + 1 =>
    let pw := r.base + (r.cons + j) % 2 ^ r.k
    match s.cellRead x.die (pw / 2 ^ 29) (pw % 2 ^ 29) (ferryMaster x.id) with
    | (.denied, t) => ((j, some 6), t)
    | (.poison, t) => ((j, some 7), t)
    | (.ok v, t) => match t.cellWrite x.die x.die (f.dst (f.moved + j)) v (ferryMaster x.id) with
      | (false, u) => ((j, some 6), u)
      | (true, u) => u.streamWords x f r (j + 1) n

/-- A stream manifest that has written its last unit completes, after the barrier's read-back of the last word (R365, R367). -/
def State.streamDone (s : State) (x : Berth) (f : FItem) : State :=
  let r := ({ s := s : FRun }).barrier f x.die x.id
  r.s.ferryDone x.id f (r.result.getD 1) f.moved 0

/-- FERRY_STREAM_UNIT: the stream manifest at the head moves one unit when its ring holds 32 words (R366 to R368); a dock whose Ferry accepts no items
ends it (R381). -/
def execFerryStreamUnit (b at_ : Nat) (s : State) : Answer :=
  .next (match s.berth b with
    | none => s
    | some x => match x.fq with
      | [] => s
      | f :: rest =>
        let ch := bitsOf (itemWord f.man 1) 1 0
        match x.rx.getD ch none with
        | none => s
        | some r =>
          if !f.started ∨ !x.engaged ∨ !manStream f.man ∨ f.aborted ∨ f.deadline ∨ r.prod - r.cons < 32 ∨ manLen f.man ≤ f.moved then s
          else
            let u := s.at at_
            if s.engineStopped x.die x.dock 0 then u.ferryDone b f 10 f.moved 0
            else
              let w := u.streamWords x f r 0 32
              let t := w.2.addFld (dockAddr x.die x.dock R.FY_WORDS) 31 0 w.1.1
              match w.1.2 with
              | some e => t.ferryDone b f e (f.moved + w.1.1) 0
              | none =>
                let g := { f with moved := f.moved + 32 }
                let v := t.modBerth b (fun y => { y with fq := g :: rest, rx := y.rx.set ch (some { r with cons := r.cons + 32 }) })
                if g.moved = manLen f.man then v.streamDone x g else v)

/-- The words of a manifest that is not in stream mode. An abort that reaches the engine after n words stops it after the line access in progress, and one
that reaches it after its last word is ignored (R359). -/
def FRun.run (u : State) (f : FItem) (d b n : Nat) : FRun :=
  if f.aborted ∧ n ≤ manLen f.man then
    let r := (({ s := u : FRun }).words f d b f.overlaps 0 (f.stopAt n)).ahead f d b
    { r with result := some (r.result.getD 5) }
  else ((({ s := u : FRun }).words f d b f.overlaps 0 (manLen f.man)).ahead f d b).barrier f d b

/-- FERRY_MANIFEST_COMPLETE: the running manifest of berth b completes with its result, COUNT and DIFF (R362 to R369), also while the berth is
leaving its dock (R356); an abort reaches it after n words. -/
def execFerryManifestComplete (b n at_ : Nat) (s : State) : Answer :=
  .next (match s.berth b with
    | none => s
    | some x => match x.fq with
      | [] => s
      | f :: _ =>
        if !f.started ∨ (manStream f.man ∧ !x.engaged) then s
        else
          let u := s.at at_
          if s.engineStopped x.die x.dock 0 then u.ferryDone b f 10 f.moved 0
          else if manStream f.man then
            if f.aborted then u.ferryDone b f 5 f.moved 0
            else if f.deadline then u.ferryDone b f 4 f.moved 0
            else s
          else
            let r := FRun.run u f x.die b n
            (r.s.addFld (dockAddr x.die x.dock R.FY_WORDS) 31 0 r.count).ferryDone b f
              (r.result.getD (if manOp f.man = 2 then 2 else 1)) r.count r.diff)

/-- Pixel size b of a job in bits. -/
def jobBits (w : List Word) : Nat := 4 * 2 ^ bitsOf (itemWord w 0) 6 5

/-- OP of a job. -/
def jobOp (w : List Word) : Nat := bitsOf (itemWord w 0) 1 0

/-- XF of a job; FILL ignores it. -/
def jobXf (w : List Word) : Nat := if jobOp w = 1 then 0 else bitsOf (itemWord w 0) 4 2

/-- W and H of a job's source. -/
def jobSize (w : List Word) : Nat × Nat := (bitsOf (itemWord w 7) 11 0 + 1, bitsOf (itemWord w 8) 11 0 + 1)

/-- W′ and H′ of its destination (Table 10-5). -/
def jobDest (w : List Word) : Nat × Nat :=
  let z := jobSize w
  if jobXf w = 1 ∨ jobXf w = 3 then (z.2, z.1) else z

/-- The source pixel that a destination pixel shows (Table 10-5). -/
def jobInv (w : List Word) (dx dy : Nat) : Nat × Nat :=
  let z := jobSize w
  match jobXf w with
  | 1 => (dy, z.2 - 1 - dx)
  | 2 => (z.1 - 1 - dx, z.2 - 1 - dy)
  | 3 => (z.1 - 1 - dy, dx)
  | 4 => (z.1 - 1 - dx, dy)
  | 5 => (dx, z.2 - 1 - dy)
  | _ => (dx, dy)

/-- Words that a row of n pixels of b bits touches (R372). -/
def rowWords (n b : Nat) : Nat := (n * b + 15) / 16

/-- Address of word i of source row y (R372). -/
def LItem.src (j : LItem) (y i : Nat) : Nat :=
  keptAddr j.desc (itemSel j.words).1 (itemWord j.words 1 + bitsOf (itemWord j.words 2) 5 0 * 65536 + y * itemWord j.words 5 + i)

/-- Address of word i of destination row y (R372). -/
def LItem.dst (j : LItem) (y i : Nat) : Nat :=
  keptAddr j.desc (itemSel j.words).2 (itemWord j.words 3 + bitsOf (itemWord j.words 4) 5 0 * 65536 + y * itemWord j.words 6 + i)

/-- The lowest and the highest of the addresses a 0 to a (n − 1). -/
def rangeOf (a : Nat → Nat) (n : Nat) : Nat × Nat :=
  (List.range n).foldl (fun (z : Nat × Nat) i => (min z.1 (a i), max z.2 (a i))) (2 ^ 29, 0)

/-- The range of addresses that rows 0 to h − 1 of n words touch (R378); the words of a row ascend unless it wraps. -/
def spanOf (a : Nat → Nat → Nat) (h n : Nat) : Nat × Nat :=
  (List.range h).foldl (fun (z : Nat × Nat) y =>
    let p := a y 0
    let q := a y (n - 1)
    let e := if q < p then rangeOf (a y) n else (p, q)
    (min z.1 e.1, max z.2 e.2)) (2 ^ 29, 0)

/-- The destination span of a job (R378). -/
def LItem.dstSpan (j : LItem) : Nat × Nat :=
  let z := jobDest j.words
  spanOf j.dst z.2 (rowWords z.1 (jobBits j.words))

/-- The source span of a job, empty for FILL (R378). -/
def LItem.srcSpan (j : LItem) : Nat × Nat :=
  let z := jobSize j.words
  if jobOp j.words = 1 then (2 ^ 29, 0) else spanOf j.src z.2 (rowWords z.1 (jobBits j.words))

/-- Two address ranges meet. -/
def meets (a b : Nat × Nat) : Bool := decide (a.1 ≤ b.2 ∧ b.1 ≤ a.2 ∧ a.1 ≤ a.2 ∧ b.1 ≤ b.2)

/-- A job waits for an earlier job in flight (R378). -/
def LItem.waitsFor (j e : LItem) : Bool :=
  meets j.dstSpan e.dstSpan || meets j.srcSpan e.dstSpan || meets j.dstSpan e.srcSpan

/-- A job reads destination words: KEYCOPY always, COPY and FILL where a row ends within a word (R375, R382). -/
def LItem.merges (j : LItem) : Bool :=
  decide (jobOp j.words = 2) || decide ((jobDest j.words).1 * jobBits j.words % 16 ≠ 0)

/-- The rights a job needs are in its descriptors (R345, R375). -/
def LItem.rightsOk (j : LItem) : Bool :=
  let s := keptDesc j.desc (itemSel j.words).1
  let d := keptDesc j.desc (itemSel j.words).2
  (decide (jobOp j.words = 1) || s.r) && d.w && (!j.merges || d.r)

/-- Jobs of a berth in flight. -/
def Berth.jobsInFlight (x : Berth) : Nat := (x.lq.filter (fun j => j.started)).length

/-- Jobs of a dock in flight (R377). -/
def State.dockJobs (s : State) (d k : Nat) : Nat := ((s.dockBerths d k).map Berth.jobsInFlight).foldl (· + ·) 0

/-- Pass the numbers of jobs that ended before they started, at most n. -/
def Berth.skipDead (x : Berth) : Nat → Berth
  | 0 => x
  | n + 1 => if x.deadJobs.contains x.nextJob then
      { x with nextJob := x.nextJob + 1, deadJobs := x.deadJobs.erase x.nextJob }.skipDead n
    else x

/-- Change the released job with a number. -/
def Berth.modJob (x : Berth) (q : Nat) (f : LItem → LItem) : Berth :=
  { x with lq := x.lq.map (fun e => if e.seq = q then f e else e) }

/-- LIGHTER_JOB_START: the berth's next released job in PUSH order starts (R345, R377, R378); a dock whose Lighter accepts no items ends it (R381). -/
def execLighterJobStart (b at_ : Nat) (s : State) : Answer :=
  .next (match s.berth b with
    | none => s
    | some x0 =>
      let x := x0.skipDead x0.deadJobs.length
      match x.lq.find? (fun j => decide (j.seq = x.nextJob) && !j.started) with
      | none => s
      | some j =>
        let fly := x.lq.filter (fun e => e.started)
        if !x.engaged ∨ 2 ≤ fly.length ∨ 8 ≤ s.dockJobs x.die x.dock ∨ fly.any j.waitsFor then s
        else
          let u := (s.at at_).modBerth b (fun y => { y.skipDead y.deadJobs.length with nextJob := x.nextJob + 1 })
          if s.engineStopped x.die x.dock 1 then u.lighterDone b j 10
          else if !j.rightsOk then u.lighterDone b j 8
          else u.modBerth b (fun y => y.modJob j.seq (fun e => { e with started := true })))

/-- A pixel of b bits at column c of a row of words (R372). -/
def rowPixel (ws : Array Word) (b c : Nat) : Nat :=
  if b = 32 then (ws.getD (2 * c) 0).toNat + 65536 * (ws.getD (2 * c + 1) 0).toNat
  else (ws.getD (c * b / 16) 0).toNat / 2 ^ (c * b % 16) % 2 ^ b

/-- Words wa k onward, n of them, for a job, up to the first that fails. -/
def State.jobWords (s : State) (j : LItem) (d b : Nat) (wa : Nat → Nat) (acc : List Word) (k : Nat) : Nat → (List Word × Option Nat) × State
  | 0 => ((acc, none), s)
  | n + 1 =>
    let a := s.engineRead b j.trig d (wa k) (lighterMaster b)
    match a.1.2 with
    | some e => ((acc, some e), a.2)
    | none => a.2.jobWords j d b wa (acc ++ [a.1.1]) (k + 1) n

/-- Read one source pixel as master class 0x2 (R346, R372). Where the job has written one of its words, its spans overlapping, it is the pixel as it stands
there or the original one: an open choice (R376, assumption log 9). -/
def State.jobPixel (s : State) (j : LItem) (d b x y : Nat) : (Nat × Option Nat) × State :=
  let bits := jobBits j.words
  let i := x * bits / 16
  let n := if bits = 32 then 2 else 1
  let r := s.jobWords j d b (fun k => j.src y (i + k)) [] 0 n
  match r.1.2 with
  | some e => ((0, some e), r.2)
  | none =>
    let old := (List.range n).any (fun k => (tfind j.orig (j.src y (i + k))).isSome)
    let c := if old then r.2.draw else (1, r.2)
    let ws := if c.1 % 2 = 0 then (List.range n).map (fun k => (tfind j.orig (j.src y (i + k))).getD (r.1.1.getD k 0)) else r.1.1
    ((rowPixel ws.toArray bits (if bits = 32 then 0 else x % (16 / bits)), none), c.2)

/-- Pixels c onward of destination row y, n of them, up to the first that fails (R373, R374). -/
def State.rowPixels (s : State) (j : LItem) (d b y key : Nat) (acc : List (Option Nat)) (c : Nat) :
    Nat → (List (Option Nat) × Option Nat) × State
  | 0 => ((acc, none), s)
  | n + 1 =>
    let p := jobInv j.words c y
    let a := s.jobPixel j d b p.1 p.2
    match a.1.2 with
    | some e => ((acc, some e), a.2)
    | none => a.2.rowPixels j d b y key (acc ++ [if jobOp j.words = 2 ∧ a.1.1 = key then none else some a.1.1]) (c + 1) n

/-- Pixels c onward of destination row y, n of them: none for a keyed pixel; or the result of a failed read (R373, R374). -/
def State.jobRow (s : State) (j : LItem) (d b y c n : Nat) : (List (Option Nat) × Option Nat) × State :=
  let w := j.words
  let key := (itemWord w 9 + 65536 * itemWord w 10) % 2 ^ jobBits w
  if jobOp w = 1 then ((List.replicate n (some key), none), s) else s.rowPixels j d b y key [] c n

/-- Word i of a row of pixels of b bits: its bits that the job writes as a mask, and their values. -/
def packWord (px : Array (Option Nat)) (b i : Nat) : Nat × Nat :=
  if b = 32 then match px.getD (i / 2) none with
    | some v => (0xFFFF, v / 2 ^ (16 * (i % 2)) % 65536)
    | none => (0, 0)
  else (List.range (16 / b)).foldl (fun (a : Nat × Nat) k => match px.getD (i * (16 / b) + k) none with
    | some v => (a.1 + (2 ^ b - 1) * 2 ^ (k * b), a.2 + v * 2 ^ (k * b))
    | none => a) (0, 0)

/-- Write word wa of a row: merged with the word that stands there where the job writes it in part (R375). -/
def State.writeRowWord (s : State) (j : LItem) (d b wa : Nat) (q : Nat × Nat) : Option Nat × State :=
  let m := lighterMaster b
  if q.1 = 0xFFFF ∧ jobOp j.words ≠ 2 then s.engineWrite d wa (w16 q.2) m
  else
    let old := s.engineRead b j.trig d wa m
    match old.1.2 with
    | some e => (some e, old.2)
    | none => if q.1 = 0 then (none, old.2) else old.2.engineWrite d wa ((old.1.1 &&& ~~~ w16 q.1) ||| w16 q.2) m

/-- A job in progress: the state, the job with the originals of the words it has written, and the result of a failed access. -/
structure LRun where
  s : State
  j : LItem
  result : Option Nat := none

/-- Write one word of destination row y; its original value is kept where the job's spans overlap (R376). -/
def LRun.putWord (r : LRun) (d b y i : Nat) (lap : Bool) (q : Nat × Nat) : LRun :=
  let wa := r.j.dst y i
  let old := r.s.word (pkgWord d wa)
  let w := r.s.writeRowWord r.j d b wa q
  { r with
    s := w.2, result := w.1
    j := if lap ∧ (tfind r.j.orig wa).isNone then { r.j with orig := tins r.j.orig wa old } else r.j }

/-- Words i onward of destination row y, n of them, up to the first that fails; the pixels begin at that of word i. -/
def LRun.putWords (r : LRun) (d b y : Nat) (lap : Bool) (arr : Array (Option Nat)) (i0 i : Nat) : Nat → LRun
  | 0 => r
  | n + 1 =>
    if r.result.isSome then r
    else (r.putWord d b y i lap (packWord arr (jobBits r.j.words) (i - i0))).putWords d b y lap arr i0 (i + 1) n

/-- A piece of destination row y, n pixels from pixel c, which begins a word: its source pixels are read, then its words are written (R374, R375). -/
def LRun.piece (r : LRun) (d b : Nat) (lap : Bool) (c n y : Nat) : LRun :=
  if r.result.isSome then r
  else
    let a := r.s.jobRow r.j d b y c n
    match a.1.2 with
    | some e => { r with s := a.2, result := some e }
    | none =>
      let bits := jobBits r.j.words
      { r with s := a.2 }.putWords d b y lap a.1.1.toArray (c * bits / 16) (c * bits / 16) (rowWords n bits)

/-- ROT90 and ROT270 (R379, R383). -/
def LItem.turns (j : LItem) : Bool := decide (jobXf j.words = 1 ∨ jobXf j.words = 3)

/-- The destination rows that complete together from row y: a band of the 512 / b rows that one source line feeds for ROT90 and ROT270, one row
otherwise (R379, R383, assumption log 128). -/
def LItem.band (j : LItem) (y : Nat) : Nat :=
  if j.turns then min (512 / jobBits j.words) ((jobDest j.words).2 - y) else 1

/-- The band of destination rows from row y: for ROT90 and ROT270 in strips of 128 / b source rows, whose pieces of 16 bytes are written to every row of the
band before the next strip; from which end of the rows the strips go is open (R383, assumption log 128). -/
def LRun.band (r : LRun) (d b y : Nat) : LRun :=
  let w := (jobDest r.j.words).1
  let lap := meets r.j.srcSpan r.j.dstSpan
  if !r.j.turns then r.piece d b lap 0 w y
  else
    let h := 128 / jobBits r.j.words
    let n := (w + h - 1) / h
    let c := r.s.draw
    let strips := if c.1 % 2 = 0 then List.range n else (List.range n).reverse
    let rows := (List.range (r.j.band y)).map (y + ·)
    strips.foldl (fun (q : LRun) k => rows.foldl (fun (p : LRun) v => p.piece d b lap (k * h) (min h (w - k * h)) v) q) { r with s := c.2 }

/-- LIGHTER_ROW_COMPLETE: the next destination row of the oldest job in flight with a tag is written, or the next band of rows (R372 to R376, R379); a failed
access ends the job's work, and a dock whose Lighter accepts no items ends the job (R381). -/
def execLighterRowComplete (b tag at_ : Nat) (s : State) : Answer :=
  .next (match s.berth b with
    | none => s
    | some x => match x.lq.find? (fun j => decide (j.tag = tag) && j.started) with
      | none => s
      | some j =>
        if !x.engaged ∨ j.result.isSome ∨ (jobDest j.words).2 ≤ j.rows then s
        else
          let u := s.at at_
          if s.engineStopped x.die x.dock 1 then u.lighterDone b j 10
          else
            let r := ({ s := u, j := j : LRun }).band x.die b j.rows
            let n := j.rows + j.band j.rows
            r.s.modBerth b (fun y => match r.result with
              | some e => y.modJob j.seq (fun q => { q with result := some e, orig := r.j.orig })
              | none =>
                let wm := bitsOf (itemWord j.words 12) 12 0
                let mark := if j.rows ≤ wm ∧ wm < n then [({ chg := .lighterMark tag (bitOf (itemWord j.words 0) 8) } : OutsideRec)] else []
                { y.modJob j.seq (fun q => { q with rows := n, orig := r.j.orig }) with
                  outside := y.outside ++ [{ chg := .lighterRows tag n }] ++ mark }))

/-- LIGHTER_JOB_COMPLETE: a job whose rows are all complete, or that has failed, completes (R379). -/
def execLighterJobComplete (b tag at_ : Nat) (s : State) : Answer :=
  .next (match s.berth b with
    | none => s
    | some x => match x.lq.find? (fun j => decide (j.tag = tag) && j.started) with
      | none => s
      | some j =>
        if !x.engaged ∨ (j.result.isNone ∧ j.rows < (jobDest j.words).2) then s
        else (s.at at_).lighterDone b j (if s.engineStopped x.die x.dock 1 then 10 else j.result.getD 1))

/-- Complete with FAULT what a Ferry fault cannot retry; every item where all is set (R380, R381). -/
def State.ferryFault (s : State) (b : Nat) (all : Bool) : State :=
  match s.berth b with
  | none => s
  | some x => x.fq.foldl (fun (t : State) f =>
      let lost := all || (f.started && f.overlaps)
      if lost then t.ferryDone b f 10 f.moved 0 else t) s

/-- Complete with FAULT what a Lighter fault cannot retry; every item where all is set (R380, R381). -/
def State.lighterFault (s : State) (b : Nat) (all : Bool) : State :=
  match s.berth b with
  | none => s
  | some x => x.lq.foldl (fun (t : State) j =>
      if j.started then (if all || meets j.srcSpan j.dstSpan then t.lighterDone b j 10 else t)
      else if all then t.lighterDead b j
      else t) s

/-- ENGINE_FAULT: a check of the Ferry (e = 0) or the Lighter (e = 1) of dock k fails: its cause is set, its items restart or complete with
FAULT, and a second fault within 1 s stops the engine (R380, R381). cause: 1 RESIDUE, 2 PARITY, 3 both. -/
def execEngineFault (d k e cause at_ : Nat) (s : State) : Answer :=
  s.onDock d k (.next (
    if cause % 4 = 0 ∨ s.engineStopped d k (e % 2) then s
    else
      let u := s.at at_
      let a := dockAddr d k (if e % 2 = 0 then R.FY_ERR else R.LT_ERR)
      let src := (if e % 2 = 0 then 352 else 368) + k
      let key := (d * 16 + k) * 2 + e % 2
      let again := match tfind u.engAt key with
        | some t => decide (u.htime - t < 1000000000)
        | none => false
      let v := u.withLevel d src (fun t => t.setBits a (cause % 4))
      let ids := (v.dockBerths d k).map (·.id)
      let w := ids.foldl (fun (t : State) b => if e % 2 = 0 then t.ferryFault b again else t.lighterFault b again) v
      let w1 := { w with engAt := tins w.engAt key u.htime }
      if again then
        (w1.setFlag (dockAddr d k (if e % 2 = 0 then R.FY_STAT else R.LT_STAT)) 8 true).logFault 6 d none 0 k [cause % 4]
      else w1.logFault 5 d none 0 k [cause % 4]))

end Sys2Proof.Machine
end

