-- ==== Sys2Proof/Machine/Pipe.lean ====
section
/-! DEFINITION. The dock pipe: deadlines, the schedule, composition and release of a line, its failures and the spare pipe (R252 to R265, R269 to
R276, R284, R117). -/

namespace Sys2Proof.Machine

/-- FREE output is stopped (OFPDEN is 0, or OFPNUM: DESIGN CHOICE, assumption log 145); it then sends nothing. -/
def Gen.stopped (g : Gen) : Bool := decide (g.fden = 0 ∨ g.fnum = 0)

/-- Output pixel time of the FREE raster in ps. -/
def Gen.outPix (g : Gen) : Int := if g.stopped then 0 else (g.fnum * 1000 / (g.fden * g.ras.1 * g.ras.2.2.1) : Nat)

/-- The offset from its grid of the FREE frame in progress, after n of its lines: slewed by at most a pixel time per line (R103, R275). -/
def Gen.slewed (g : Gen) (n : Nat) : Int :=
  if g.foff < 0 then min 0 (g.foff + n * g.outPix) else max 0 (g.foff - n * g.outPix)

/-- The start in ns of the first FREE output frame that begins after a time t in ns, the frame in progress being off its grid (R275). -/
def Gen.freeAfter (g : Gen) (t : Int) : Nat :=
  let off := g.slewed g.ras.2.2.1
  let k := gridAfter g.fphase g.fnum g.fden ((t * 1000 - off) / 1000 + 1)
  (gridPoint g.fphase g.fnum g.fden k + off / 1000).toNat

/-- The start in ns of the FREE output frame after the one in progress (R275). -/
def Gen.freeNext (g : Gen) : Nat :=
  let off := g.slewed g.ras.2.2.1
  let k := gridAfter g.fphase g.fnum g.fden (((g.startT : Int) * 1000 - g.foff + 999) / 1000 + 1)
  (gridPoint g.fphase g.fnum g.fden k + off / 1000).toNat

/-- The berth's output is FREE (DP_OUTCFG, in force since the last output frame start). -/
def Berth.freeOut (x : Berth) : Bool := x.gen.free

/-- The reference time in ns at which the beam passes the end of line VVIS - 1 of a frame: as it was, or, still to come, on the unlagged beam and not
before now. -/
def FrameInfo.passTime (i : FrameInfo) (now : Nat) : Nat :=
  match i.passClk with
  | some c => (c / 3).toNat
  | none => max now (i.time (i.lineBt i.geo.vvis))

/-- The deadline of a line at harbour time now (R253); none where FREE output is stopped. -/
def Berth.deadline (x : Berth) (now : Nat) (r : LineRec) : Option Nat :=
  if x.freeOut then
    if x.gen.stopped then none else some (x.gen.freeAfter ((x.frameInfo r.frame).passTime now))
  else some (x.readTime r.frame r.line)

/-- The line a dock's pipe starts next: the oldest line of each berth, the earliest deadline first, the lower slot on a tie (R254). -/
def State.nextLine (s : State) (d k : Nat) : Option (Berth × LineRec) :=
  (s.dockBerths d k).foldl (fun (best : Option (Berth × LineRec)) x =>
    match x.pipe.lines with
    | [] => best
    | r :: _ => match best with
      | none => some (x, r)
      | some (y, q) =>
        let a := x.deadline s.htime r
        let b := y.deadline s.htime q
        let earlier := match a, b with
          | some u, some v => decide (u < v ∨ (u = v ∧ x.slot < y.slot))
          | some _, none => true
          | none, some _ => false
          | none, none => decide (x.slot < y.slot)
        if earlier then some (x, r) else best) none

/-- A pipe serves the dock: its own, not failed, or the spare pipe (R263, R264). -/
def State.pipeServes (s : State) (d k : Nat) : Bool :=
  let p := s.pipeOf d k
  !p.dead && (s.flag (dockAddr d k R.DK_PIPE) 0 || !p.failed) && decide (s.domain d k = 0)

/-- COMPOSE_LINE: a free dock pipe starts the composable line with the earliest deadline (R254); a line of a skipped frame is not composed (R284). -/
def execComposeLine (d k at_ : Nat) (s : State) : Answer :=
  s.onDock d k (.next (
    let u := s.at at_
    let p := u.pipeOf d k
    if p.cur.isSome ∨ !u.pipeServes d k then u
    else match u.nextLine d k with
      | none => u
      | some (x, r) =>
        if r.skip then
          u.setPipe d k { p with cur := some {
            berth := x.id, line := r, pixels := [], dropped := 0, cost := 0, fetched := 0, skipped := 0, startAt := u.htime } }
        else
          let c := u.composeLine x r u.htime
          c.2.setPipe d k { p with cur := some c.1 }))

/-- The word address of frame buffer n of a berth (DP_FB0BASE, DP_FB1BASE). -/
def Berth.fbBase (x : Berth) (n : Nat) : Nat :=
  bitsOf (x.reg (if n = 0 then R.DP_FB0BASE else R.DP_FB1BASE)) 22 0 * 64

/-- Word address of line y of frame buffer n (R266). -/
def Berth.fbLine (x : Berth) (n y : Nat) : Nat := (x.fbBase n + y * bitsOf (x.reg R.DP_FBCFG) 28 16) % 2 ^ 29

/-- Write a line's words into the frame buffer as master class 0x3: every word is checked, and a denial of any leaves the line unwritten
(R269, Table 2-6). -/
def State.writeFb (s : State) (x : Berth) (wa : Nat) (words : List Word) : Bool × State :=
  let m : Master := { cls := 3, id := x.id }
  match (List.range words.length).findSome? (fun i => (s.ledgerCheck x.die x.die (wa + i) m .write).map (fun e => (i, e))) with
  | some (i, e) => (false, s.logViol x.die m .write e.1 e.2 (pkgWord x.die (wa + i)))
  | none => (true, s.bankWriteRun x.die wa words m)

/-- The tags of frame buffer n. -/
def Gen.tags (g : Gen) (n : Nat) : Tbl Nat := if n = 0 then g.tags0 else g.tags1

/-- What FREE output buffer n holds: a beam frame and its released lines. -/
def Gen.hold (g : Gen) (n : Nat) : Option (Nat × Nat) := if n = 0 then g.hold0 else g.hold1

/-- Set what FREE output buffer n holds. -/
def Gen.setHold (g : Gen) (n : Nat) (v : Option (Nat × Nat)) : Gen := if n = 0 then { g with hold0 := v } else { g with hold1 := v }

/-- Tag a line of buffer n with its full frame count (R269). -/
def Gen.tag (g : Gen) (n l f : Nat) : Gen :=
  if n = 0 then { g with tags0 := tins g.tags0 l f } else { g with tags1 := tins g.tags1 l f }

/-- The berth as its line is released into its buffer: in FREE output a frame goes whole into the buffer that is not being read when its line 0
is released, and a frame written over before it was shown is dropped (R276). -/
def Berth.chooseBuf (x : Berth) (r : LineRec) : Berth :=
  if !x.freeOut then { x with gen := { x.gen with wbuf := 0 } }
  else if r.line = 0 then
    let n := 1 - x.gen.buf
    let lost := match x.gen.hold n with
      | some (f, _) => decide (x.gen.shown.getD 0 < f ∨ (x.gen.shown.isNone))
      | none => false
    let y := if lost then x.setReg R.DP_OFRAMES (putBits (x.reg R.DP_OFRAMES) 31 16 (bitsOf (x.reg R.DP_OFRAMES) 31 16 + 1)) else x
    { y with gen := { y.gen.setHold n (some (r.frame, 0)) with wbuf := n } }
  else x

/-- Count a released line of the frame that its buffer holds. -/
def Berth.countLine (x : Berth) (r : LineRec) : Berth :=
  match x.gen.hold x.gen.wbuf with
  | some (f, n) => if f = r.frame then { x with gen := x.gen.setHold x.gen.wbuf (some (f, n + 1)) } else x
  | none => x

/-- Take a line and the stamps that fall on it or before it out of the pipe's keeping; their values stay in effect (R117, R257). -/
def Berth.freeLine (x : Berth) (r : LineRec) : Berth :=
  let base := match r.commit with
    | some sh => sh
    | none => x.pipe.live
  let done := stampsUpTo x.pipe.store r.frame r.line
  { x with pipe := {
      live := applyStamps base done
      store := x.pipe.store.filter (fun t => !posLe t.frame t.line r.frame r.line)
      lines := x.pipe.lines.drop 1 } }

/-- Entries of the stamp store of dock k that berths hold (R117). -/
def State.storeUse (s : State) (d k : Nat) : Nat := ((s.dockBerths d k).map (fun x => x.pipe.store.length)).foldl (· + ·) 0

/-- The stamps of the commit a berth waits for fit within its own share. -/
def Berth.shareFits (x : Berth) (n : Nat) : Bool := decide (x.pipe.store.length + n ≤ 4096)

/-- The place after the last in the wait order of dock k (R117). -/
def State.nextPlace (s : State) (d k : Nat) : Nat :=
  (s.dockBerths d k).foldl (fun m x => match x.ended with
    | r :: _ => max m ((r.waiting.getD 0) + 1)
    | [] => m) 1

/-- A commit that waited for its berth's own share joins the wait order once the share has room (R117). -/
def State.joinOrder (s : State) (b : Nat) : State :=
  match s.berth b with
  | none => s
  | some x => match x.ended with
    | r :: rest =>
      if r.waiting = some 0 ∧ x.shareFits r.acc.stamps.length then
        s.setBerth { x with ended := { r with waiting := some (s.nextPlace x.die x.dock) } :: rest }
      else s
    | [] => s

/-- LOAD of dock k: the share of the last ms, in units of 1/1,024, that the pipe which composes it has spent composing, port waits and discarded lines
included (R252). -/
def State.loadOf (s : State) (d k : Nat) : Nat :=
  let p := s.pipeOf d k
  let l := match p.cur with
    | some c => p.spans ++ [(c.startAt, s.htime)]
    | none => p.spans
  min 1024 ((l.foldl (fun n e => n + (e.2 - max e.1 (s.htime - 1000000))) 0) * 1024 / 1000000)

/-- The line in the line buffer of dock k leaves it: its composing time is noted, and PEAK rises to the LOAD reached (R252). -/
def State.dropCur (s : State) (d k : Nat) : State :=
  let p := s.pipeOf d k
  match p.cur with
  | none => s
  | some c =>
    let l := (p.spans ++ [(c.startAt, s.htime)]).filter (fun e => decide (s.htime ≤ e.2 + 1000000))
    let t := s.setPipe d k { p with cur := none, spans := l }
    let a := dockAddr d k R.DP_LOAD
    if t.fld a 26 16 < t.loadOf d k then (t.setFld a 26 16 (t.loadOf d k)).noteSet a (2047 * 2 ^ 16) else t

/-- A check of R261 fires in the pipe that serves dock k: the cause is set, the line in progress discarded, and the pipe stops. -/
def State.pipeFails (s : State) (d k cause : Nat) : State :=
  let a := dockAddr d k R.DP_ERR
  let t := (s.setBits a cause).dropCur d k
  if t.flag (dockAddr d k R.DK_PIPE) 0 then
    (t.setPipe d k { t.pipeOf d k with dead := true }).setSpareFailed d true
  else
    (t.setPipe d k { t.pipeOf d k with failed := true }).withLevel d (336 + k) (fun u => u.setFlag (dockAddr d k R.DK_PIPE) 1 true)

/-- Release the composed line (R257): frame buffer, direct stream, counts, overflow, lateness, and its stamps' store entries. -/
def State.releaseLine (s : State) (d k : Nat) (c : Composed) : State :=
  let t0 := s.dropCur d k
  let t := t0.setPipe d k { t0.pipeOf d k with lastRelease := s.htime }
  match t.berth c.berth with
  | none => t
  | some x =>
    let r := c.line
    if r.skip then ((t.setBerth (x.freeLine r)).joinOrder x.id).settlePark x.id
    else
      let late := match x.deadline t.htime r with
        | some dl => decide (dl < t.htime)
        | none => false
      let y := x.chooseBuf r
      let pix := (List.range c.pixels.length).map (fun i => y.pixWords r.line i (c.pixels.getD i 0))
      let w := t.writeFb y (y.fbLine y.gen.wbuf r.line) pix.flatten
      let y1 := if w.1 then { y with gen := y.gen.tag y.gen.wbuf r.line r.frame } else y
      let y2 := y1.countLine r
      let y3 := if y2.gen.vmode = 1 then w.2.directLine y2 r pix late else y2
      let y4 := if late then { y3.setReg R.DP_BLATE (bitsOf (y3.reg R.DP_BLATE + 1) 15 0) with lateLines := y3.lateLines + 1, lossAt := t.htime } else y3
      let y5 := if c.dropped = 0 then y4
        else
          let o := y4.reg R.DP_SPOVF
          let o1 := putBits (putBits (putBits o 0 0 1) 15 8 (min 255 c.dropped)) 31 16 (bitsOf o 31 16 + 1)
          { y4.setReg R.DP_SPOVF o1 with ovLines := y4.ovLines + 1, outside := y4.outside ++ [{ chg := .spriteOverflow }] }
      let u := (w.2.noteDrop y2 y3).setBerth (y5.freeLine r)
      let cnt := fun (v : State) (off n : Nat) => v.addFld (dockAddr d k off) 31 0 n
      let u1 := cnt (cnt (cnt (cnt u R.DP_RELEASED 1) R.DP_LATE (b2n late)) R.DP_FETCHED c.fetched) R.DP_SKIPPED c.skipped
      let u2 := if c.dropped = 0 then u1 else u1.noteSet (dockAddr d k (0x8000 + 0x400 * x.slot + R.DP_SPOVF)) 1
      (u2.joinOrder x.id).settlePark x.id

/-- A check of R261 fires in the dock's own pipe while the spare pipe serves the dock: its cause is set, and the slice in whose turn it fires fails
(R265). -/
def State.idleCheck (s : State) (d k cause : Nat) : State :=
  let t := s.setBits (dockAddr d k R.DP_ERR) cause
  if s.slices.any (fun z => decide (z.die = d ∧ z.kind = 1 ∧ z.unit = k) && z.running) then
    t.setPipe d k { t.pipeOf d k with testFault := true }
  else t

/-- LINE_RELEASE: a line or a check. With check 0 the line in the line buffer of dock k is released once composed (R257, R262); else the checks of R261 whose
DP_ERR bits are in [2:0] fire in the pipe that serves the dock, at any time, and those in [6:4] in the dock's own pipe while it is on the spare pipe. -/
def execLineRelease (d k check at_ : Nat) (s : State) : Answer :=
  s.onDock d k (.next (
    if check = 0 then
      match (s.pipeOf d k).cur with
      | none => s
      | some c => (s.at (max at_ (c.startAt + (c.cost * 1000 + s.dclk d - 1) / s.dclk d))).releaseLine d k c
    else
      let u := s.at at_
      let v := if check / 16 % 8 ≠ 0 ∧ u.flag (dockAddr d k R.DK_PIPE) 0 then u.idleCheck d k (check / 16 % 8) else u
      if check % 8 ≠ 0 ∧ v.pipeServes d k then v.pipeFails d k (check % 8) else v))

/-- PIPE_WATCHDOG_EXPIRY: no line was released for 20 µs while a composable line waits: the pipe fails (R261). -/
def execPipeWatchdogExpiry (d k at_ : Nat) (s : State) : Answer :=
  s.onDock d k (.next (
    let u := s.at at_
    let waits := (u.dockBerths d k).any (fun x => !x.pipe.lines.isEmpty)
    if u.pipeServes d k ∧ waits ∧ 20000 ≤ u.htime - (u.pipeOf d k).lastRelease then u.pipeFails d k 8 else u))

/-- The spare pipe is free for a takeover: it serves no dock and has not failed. -/
def State.spareFree (s : State) (d : Nat) : Bool := !s.spareFailed d && (s.spareDock d).isNone

/-- Return a dock to its own pipe: ONSPARE clears (R265, R520). -/
def State.ownPipe (s : State) (d k : Nat) : State := s.setFlag (dockAddr d k R.DK_PIPE) 0 false

/-- The spare pipe serves dock j for a self-test slice of the dock's own pipe. -/
def State.spareForSlice (s : State) (d : Nat) : Option Nat :=
  match s.spareDock d with
  | some j => if (s.pipeOf d j).failed then none else some j
  | none => none

end Sys2Proof.Machine
end

