-- ==== Sys2Proof/Machine/Watch.lean ====
section
/-! DEFINITION. Watches: outside changes, the watch boundary, the checkpoint header, the release of outputs, rollback, relocation and parking (R143,
R350, R436, R489 to R513, R596 to R599). -/

namespace Sys2Proof.Machine

/-- Apply one outside change to a berth's own state (R143, R350, R240, R436, R598). -/
def BSide.applyOutside (x : BSide) (c : Outside) : BSide :=
  match c with
  | .ferryDone ch result count diff irq =>
    let n : Fin 4 := ⟨ch % 4, Nat.mod_lt _ (by decide)⟩
    { x with
      fc := x.fc.set n { x.fc[n] with state := 3, result := result, count := count, diff := diff }
      bi := if irq then x.bi.set (4 + n.val) else x.bi }
  | .lighterRows tag rows =>
    { x with lj := { x.lj with rows := x.lj.rows.filter (fun e => decide (e.1 ≠ tag)) ++ [(tag, rows)] } }
  | .lighterMark tag ie =>
    { x with lj := { x.lj with wmark := x.lj.wmark ||| 2 ^ tag }, bi := if ie then x.bi.set 9 else x.bi }
  | .lighterDone tag result ie =>
    { x with
      lj := { x.lj with
        done := x.lj.done ||| 2 ^ tag, res := x.lj.res.set tag result
        outst := x.lj.outst.erase tag
        jobs := match x.lj.jobs.find? (fun j => decide (j.tag = tag) && j.fired) with
          | some j => x.lj.jobs.erase j
          | none => x.lj.jobs }
      bi := if ie then x.bi.set 8 else x.bi }
  | .spriteOverflow => { x with bi := x.bi.set 10 }
  | .padDrops n => { x with pad := { x.pad with drops := (x.pad.drops + n) % 65536, ovf := true } }
  | .pinEvent n =>
    { x with pins := tput x.pins n (tget x.pins n 0 ||| 2) 0, bi := x.bi.set 16 }

/-- The pins lent to a berth (LG_PIN). -/
def State.lentPins (s : State) (b : Nat) : List Nat :=
  (List.range 48).filter (fun n => s.flag (R.LG_PIN + 4 * n) 11 && decide (s.fld (R.LG_PIN + 4 * n) 10 0 = b))

/-- The levels and held events of the lent pins, as sampled at a watch start (R596 to R598). -/
def State.samplePins (s : State) (b : Nat) (x : BSide) : BSide :=
  (s.lentPins b).foldl (fun y n =>
    let w := tget y.pins n 0
    let y1 := { y with pins := tput y.pins n (w16 (w.toNat / 2 * 2 + b2n (s.syncBit n))) 0 }
    if s.pinHolds n then y1.applyOutside (.pinEvent n) else y1) x

/-- Publish the ring positions of a watch start (R436, R437): PD_WP and the input voice's AU_SnWP. -/
def Berth.publish (x : Berth) : BSide :=
  let y := x.side
  let had := decide (y.pad.wp ≠ y.pad.rp)
  let y1 := { y with pad := { y.pad with wp := x.padWp } }
  let y2 := if decide (y1.pad.wp ≠ y1.pad.rp) && !had then { y1 with bi := y1.bi.set 12 } else y1
  match y2.au.inputVoice with
  | some n => y2.setPort (0x8A2 + 8 * n) x.inWp
  | none => y2

/-- All outside changes that are due at a watch start (Table 14-4 step 1): those pending, the pins, the rings, the descriptors. -/
def State.watchStart (s : State) (x : Berth) : Berth :=
  let due := x.outside.filter (fun o => o.appliedIn.isNone)
  let old := x.side.bi.pend &&& x.side.bi.en
  let y := (due.map (·.chg)).foldl BSide.applyOutside x.publish
  let y1 := s.samplePins x.id y
  let y2 := x.segDefs.foldl (fun (z : BSide) e => { z with desc := z.desc.set (⟨e.1 % 16, Nat.mod_lt _ (by decide)⟩ : Fin 16) e.2 }) y1
  let y3 := { y2 with
    bi := y2.bi.settle old y2.core.st.waiting false, bank := s.fld (dockAddr x.die x.dock R.MC_CTL) 0 0 }
  { x with
    side := y3
    outside := x.outside.map (fun o => if o.appliedIn.isNone then { o with appliedIn := some x.cur.seq } else o) }

/-- Close cause of a watch (Table 14-1, Table 14-2): 0 length, 1 stamp queue, 2 undo log, 3 a command. -/
def Berth.closeCause (x : Berth) : Nat :=
  if x.side.stalled.isSome then 1
  else if 480 * x.watchUs ≤ x.side.bt - x.cur.start then 0
  else if 4064 ≤ x.cur.undo.length then 2 else 3

/-- A watch of berth x may end here (R490, R500). -/
def Berth.mayEnd (x : Berth) : Bool :=
  x.started && !x.parked && !x.moving && x.watchDue &&
  x.freezes.all (fun f => decide (f = .queueFull) || decide (f = .storeFull)) &&
  (x.ended.isEmpty || x.closeReq || x.side.stalled.isSome)

/-- Begin a watch in which a stalled OUT's stamp is the first entry of the queue (R116, R491). -/
def Berth.beginWatch (x : Berth) (seq : Nat) : Berth :=
  let st := x.side.stalled.toList
  { x with
    side := { x.side with stalled := none, stamps := x.side.stamps ++ st }
    cur := { seq := seq % 2 ^ 32, start := x.side.bt, stamps := st } }

/-- The boundary E of a watch (Table 14-4 step 1). -/
def State.endWatch (s : State) (x : Berth) : State :=
  let cause := x.closeCause
  let old := x.side.desc
  let y := s.watchStart x
  let rcd : WatchRec := { acc := x.cur, side := y.side, desc := old, segs := x.segDefs, cause := cause, at_ := min s.htime (s.clkTime x), gov := x.gov }
  let z : Berth := { y with
    ended := y.ended ++ [rcd], closeReq := false, segDefs := []
    freezes := if x.closeReq then y.freezes ++ [.closed] else y.freezes
    qcloses := if cause = 1 then (y.qcloses + 1) % 256 else y.qcloses
    ucloses := if cause = 2 then (y.ucloses + 1) % 256 else y.ucloses }
  (s.setBerth (z.beginWatch (x.cur.seq + 1))).settle x.id

/-- WATCH_END: the watch in progress ends at this boundary and the next begins (R489 to R491, R499). -/
def execWatchEnd (b : Nat) (s : State) : Answer :=
  .next (match s.berth b with
    | some x => if x.mayEnd then s.endWatch x else s
    | none => s)

/-- The checkpoint header (Table 14-2): words 13 to 15 are open values (assumption log 9). -/
def headerWords (seq b bt at_ cause v1 v2 v3 : Nat) : List Word :=
  [w16 seq, w16 (seq / 65536), w16 b, 1, w16 bt, w16 (bt / 2 ^ 16), w16 (bt / 2 ^ 32), w16 (bt / 2 ^ 48),
   w16 at_, w16 (at_ / 2 ^ 16), w16 (at_ / 2 ^ 32), w16 (at_ / 2 ^ 48), w16 cause, w16 v1, w16 v2, w16 v3]

/-- Write the header of checkpoint buffer n of a berth as the watch hardware (R492, R494): false where the ledger denies it. -/
def State.writeHeader (s : State) (x : Berth) (n seq bt at_ cause : Nat) : Bool × State :=
  let (v1, s1) := s.draw
  let (v2, s2) := s1.draw
  let (v3, s3) := s2.draw
  let a := x.watchPage * 32768 + 1024 * (n % 2)
  let ws := headerWords seq x.id bt at_ cause v1 v2 v3
  (List.range 16).foldl (fun (acc : Bool × State) i =>
    if acc.1 then acc.2.cellWrite x.die x.die (a + i) (ws.getD i 0) (watchMaster x) else acc) (true, s3)

/-- Mark the other checkpoint buffer as not valid (R495): false where the ledger denies it. -/
def State.voidHeader (s : State) (x : Berth) (n : Nat) : Bool × State :=
  s.cellWrite x.die x.die (x.watchPage * 32768 + 1024 * (n % 2) + 3) 0 (watchMaster x)

/-- Step 3 of a commit (Table 14-4): the header is written and the checkpoint becomes current; the outside changes it records leave the
pending set. A denial parks the berth with cause LEDGER. -/
def State.commitHeader (s : State) (x : Berth) (r : WatchRec) (rest : List WatchRec) : Bool × State :=
  let n := (r.acc.seq + 1) % 2
  let w := s.writeHeader x n r.acc.seq r.side.bt (r.at_ % 2 ^ 64) r.cause
  let y := { x with
    ckpt := some { side := r.side, seq := r.acc.seq, buffer := n, cause := r.cause, at_ := r.at_, gov := r.gov }
    ended := { r with headerDone := true } :: rest
    outside := x.outside.filter (fun o => decide (o.appliedIn ≠ some r.acc.seq)) }
  if w.1 then (true, w.2.setBerth y) else (false, (w.2.setBerth x).parkHere x 4)

/-- GP_OUT and GP_OE bits of a pin that a berth's released write sets, while the pin is lent to it (R592, R599). -/
def State.releasePin (s : State) (b : Nat) (p : Nat × Nat) : State :=
  let a := R.LG_PIN + 4 * p.1
  if s.flag a 11 ∧ s.fld a 10 0 = b then
    (s.setFlag (R.GP_OUTLO + 4 * (p.1 / 32)) (p.1 % 32) (bitOf p.2 8)).setFlag (R.GP_OELO + 4 * (p.1 / 32)) (p.1 % 32) (bitOf p.2 9)
  else s

/-- A commit's stamps can be admitted to the dock's stamp store now (R117): its own share, the store, and no commit waits before it. -/
def State.storeFits (s : State) (x : Berth) (n : Nat) (place : Option Nat) : Bool :=
  x.shareFits n && decide (s.storeUse x.die x.dock + n ≤ 32768) &&
  (s.dockBerths x.die x.dock).all (fun y => match y.ended with
    | r :: _ => (match r.waiting with
      | some (k + 1) => (match place with
        | some p => decide (p ≤ k + 1)
        | none => false)
      | _ => true)
    | [] => true)

/-- Step 4 of a commit: the outputs of the oldest ended watch are released in the order of Table 14-5. Its wait for the store ends, and at the commit of the
watch that a full queue closed the freeze for that (Table 3-1, R116, R117). -/
def State.releaseOutputs (s : State) (x : Berth) (r : WatchRec) (rest : List WatchRec) : State :=
  let idle := (s.dockBerths x.die x.dock).all (fun y => y.pipe.lines.isEmpty)
  let pipe := { x.pipe with store := x.pipe.store ++ r.acc.stamps, lines := x.pipe.lines ++ r.acc.lines }
  let inRet := match r.side.au.inputVoice with
    | some n => (r.side.au.sv.getD n {}).rp
    | none => x.inRet
  let y := { x with
    ended := rest, pipe := pipe, deadt := r.acc.deadt.getD x.deadt
    padRet := r.acc.padRp.getD x.padRet, inRet := inRet
    freezes := x.freezes.filter (fun f => decide (f ≠ .storeFull) && !(decide (f = .queueFull) && rest.isEmpty && x.side.stalled.isNone)) }
  let y1 := s.thaw (r.acc.audio.foldl Berth.queueAudio y)
  let t := (s.setBerth y1).releaseStarts x.id r.desc r.acc.starts
  let t1 := if idle ∧ !r.acc.lines.isEmpty then t.setPipe x.die x.dock { t.pipeOf x.die x.dock with lastRelease := t.htime } else t
  t1.withPads (fun v => r.acc.pins.foldl (fun (u : State) p => u.releasePin x.id p) v)

/-- A commit whose stamps do not fit waits, and its berth is frozen; one that only its own share holds back has no place in the order (R117). -/
def State.waitStore (s : State) (x : Berth) (r : WatchRec) (rest : List WatchRec) : State :=
  let n := r.acc.stamps.length
  let alone := !x.shareFits n && decide (s.storeUse x.die x.dock + n ≤ 32768 ∧ s.nextPlace x.die x.dock = 1)
  let place := if alone then 0 else s.nextPlace x.die x.dock
  s.setBerth { x with
    ended := { r with waiting := some place } :: rest
    storeWaits := x.storeWaits + 1
    freezes := if x.freezes.contains .storeFull then x.freezes else x.freezes ++ [.storeFull] }

/-- The old value of undo entry i of watch seq, as the undo bank holds it, read as the watch hardware (R492, R498). -/
def State.undoOld (s : State) (x : Berth) (seq i : Nat) : Access × State :=
  s.cellRead x.die x.die (x.watchPage * 32768 + undoBank seq + 3 * i + 2) (watchMaster x)

/-- Replay the undo entries of one watch, newest first (Table 14-6 step 3); false where a poisoned entry or a ledger denial stops it. -/
def State.undoWatch (s : State) (x : Berth) (seq : Nat) (undo : List Nat) : Option Nat × State :=
  (List.range undo.length).reverse.foldl (fun (acc : Option Nat × State) i =>
    match acc.1 with
    | some c => (some c, acc.2)
    | none => match acc.2.undoOld x seq i with
      | (.poison, t) => (some 3, t)
      | (.denied, t) => (some 4, t)
      | (.ok v, t) => match t.cellWrite x.die x.die (undo.getD i 0) v (watchMaster x) with
        | (true, u) => (none, u)
        | (false, u) => (some 4, u)) (none, s)

/-- Voice buffers are not part of a checkpoint (R342). -/
def BSide.dropBufs (x : BSide) : BSide := { x with au := { x.au with sv := x.au.sv.map (fun q => { q with buf := [] }) } }

/-- The values that a rollback takes back, kept with their stores' microcycles while a composition or an engine may have read them (R206, R351, R501). -/
def State.takenBack (s : State) (x : Berth) (bt : Nat) : List (Nat × Nat × Word) :=
  (x.stores.filter (fun e => decide (bt ≤ e.1))).map (fun e => (e.1, e.2.1, s.word (pkgWord x.die e.2.1)))

/-- Roll a berth back to its current checkpoint (R504, R505 steps 2 to 4): the uncommitted watches' undo entries are replayed, newest watch
first, their stamps and starts discarded, and the checkpoint's state loaded, with the governor where it stood. The number answered is a park cause of
Table 2-6. -/
def State.rollback (s : State) (x : Berth) : Option Nat × State :=
  match x.ckpt with
  | none => (none, s)
  | some c =>
    let lost := x.ended.filter (fun r => !r.headerDone)
    let acc := (x.cur :: (lost.map (·.acc)).reverse).foldl (fun (a : Option Nat × State) w =>
      match a.1 with
      | some e => (some e, a.2)
      | none => a.2.undoWatch x w.seq w.undo) (none, s)
    let done := lost.map (·.acc.seq) ++ [x.cur.seq]
    let y : Berth := { x with
      side := c.side.dropBufs, ended := x.ended.filter (fun r => r.headerDone), closeReq := false
      gov := { c.gov with clk := x.gov.clk }, stores := x.stores ++ s.takenBack x c.side.bt
      frames := (x.frames.filter (fun i => decide (i.frame ≤ c.side.beam.frame))).map (fun (i : FrameInfo) =>
        if i.frame = c.side.beam.frame ∧ c.side.beam.l < i.geo.vvis then { i with passClk := none } else i)
      segDefs := lost.flatMap (fun r => r.segs) ++ x.segDefs
      freezes := x.freezes.filter (fun f => decide (f = .storeFull))
      outside := x.outside.map (fun o => match o.appliedIn with
        | some k => if done.contains k then { o with appliedIn := none } else o
        | none => o) }
    (acc.1, acc.2.setBerth (y.beginWatch (c.seq + 1)))

/-- The slot a recovery takes (R507): the lowest SPARE slot, else the lowest TEST slot without a fault bit, whose slice is abandoned. -/
def State.pickSlot (s : State) (d k : Nat) : Option Nat × State :=
  match s.slotsIn d k 0 with
  | n :: _ => (some n, s)
  | [] => match (s.slotsIn d k 2).find? (fun n => !s.flag (dockAddr d k R.DK_FAULTTEST) n) with
    | some n => (some n, s.abandonSlice d 0 (slotLoc d k n))
    | none => (none, s)

/-- Put a berth into slot n of dock k: LOC and GEN change and MOVING clears in one write (R31, R505 step 4). -/
def State.place (s : State) (x : Berth) (k n : Nat) : State :=
  (s.setSlot x.die k n 1).setBerth { x with dock := k, slot := n, moving := false, locGen := (x.locGen + 1) % 65536 }

/-- EV_BERTH_RELOCATED (Table 13-13). -/
def State.postMoved (s : State) (b old new cause gen ns : Nat) (die : Nat) : State :=
  s.post 0x01 (some b) die (detail [(old, 2), (new, 2), (cause, 1), (0, 1), (gen, 2), (ns, 4)])

/-- The slot left by a lockstep mismatch (R508): TEST with its fault bit, or RETIRED on a second mismatch within 10 s of its return to SPARE. -/
def State.hurtSlot (s : State) (d k n : Nat) : State :=
  match tfind s.spareAt (slotKey d k n) with
  | some t => if s.htime - t < 10000000000 then s.slotRetired d k n else s.slotToTest d k n true
  | none => s.slotToTest d k n true

/-- Park a berth with cause NOSPARE after its rollback (R507, R510). -/
def State.parkNoSpare (s : State) (b : Nat) : State :=
  match s.berth b with
  | some x => s.parkHere x 1
  | none => s

/-- The destination of a recovery after n candidates have met a mismatch of their own (R507). -/
def State.pickAfter (s : State) (d k : Nat) : Nat → Option Nat × State
  | 0 => s.pickSlot d k
  | n + 1 => match s.pickSlot d k with
    | (none, t) => (none, t)
    | (some m, t) => ((t.hurtSlot d k m).hicSet d (64 + 17 * k + m)).pickAfter d k n

/-- Park a berth that a fault has struck: rolled back to its current checkpoint (R510 step 1), and parked with the cause given, or with that of a
fault of the replay (Table 2-6). -/
def State.parkBack (s : State) (x : Berth) (cause : Nat) : State :=
  let r := s.rollback x
  match r.2.berth x.id with
  | some y => r.2.parkHere y (r.1.getD cause)
  | none => r.2

/-- Park every berth of dock k with cause PIPE; its composable lines stay unreleased and travel with it (R259, R264, R510). -/
def State.parkDock (s : State) (d k : Nat) : State :=
  let t := (s.dockBerths d k).foldl (fun (u : State) x => match u.berth x.id with
    | some y => if y.parked then u else u.parkBack y 2
    | none => u) s
  t.logFault 4 d none 0 k [s.reg (dockAddr d k R.DP_ERR)]

/-- The deputy hands a failed pipe's dock to the die's spare pipe (R263); a slice that holds the spare pipe is abandoned (R520); where
the spare pipe serves another dock or has failed, the dock's berths are parked (R264). A halted deputy does neither (R515). -/
def State.takeOver (s : State) (d k : Nat) : State :=
  let p := s.pipeOf d k
  if s.deputyHalted d then s
  else if p.dead then (if (s.dockBerths d k).isEmpty then s else s.parkDock d k)
  else if !p.failed ∨ s.flag (dockAddr d k R.DK_PIPE) 0 then s
  else
    let v := match s.spareForSlice d with
      | some j => (s.abandonSlice d 1 j).ownPipe d j
      | none => s
    if v.spareFree d then
      let w := ((v.abandonSlice d 2 0).setFlag (dockAddr d k R.DK_PIPE) 0 true).logFault 3 d none 0 k [v.reg (dockAddr d k R.DP_ERR)]
      w.setPipe d k { w.pipeOf d k with lastRelease := w.htime }
    else (v.setPipe d k { v.pipeOf d k with dead := true }).parkDock d k

end Sys2Proof.Machine
end

