-- ==== Sys2Proof/Machine/Quays.lean ====
section
/-! DEFINITION. The quays: transmission, fault injection, reception, pauses, link state and failover (R412 to R444). -/

namespace Sys2Proof.Machine

/-- The local number of a quay on its die, and the die. -/
def quayDie (q : Nat) : Nat := q / 18

/-- Quay q has LOCK and is enabled (R415). -/
def State.quayLocked (s : State) (q : Nat) : Bool := s.flag (quayAddr q R.QY_STAT) 0 && s.flag (quayAddr q R.QY_CFG) 0

/-- Quay q has LINKUP. -/
def State.quayUp (s : State) (q : Nat) : Bool := s.flag (quayAddr q R.QY_STAT) 1

/-- Class c of quay q is paused (R423). -/
def State.classPaused (s : State) (q c : Nat) : Bool := decide (s.htime < (s.quay q).pause.getD c 0)

/-- Injection is permitted on quay q: XW of its register ledger entry (R441). -/
def State.injectOn (s : State) (q : Nat) : Bool := s.flag (dieAddr (quayDie q) (R.LG_REGLED + 4 * (32 + q % 18))) 1

/-- The class of a transmit entry. -/
def State.entryClass (s : State) (q e : Nat) : Nat := bitsOf (s.entryWord q e 0) 15 13

/-- The stream of a berth has a packet ready on quay q (R421, R422). -/
def State.streamReady (s : State) (q : Nat) (x : Berth) : Bool :=
  let m := x.stream
  m.bound && !m.held && decide (m.quay = q) && !m.queue.isEmpty && s.entryWord q m.entry 0 / 2 ^ 12 % 2 == 1 &&
  (!bitOf (s.entryWord q m.entry 0) 19 || (s.quay q).txSa.isSome)

/-- The senders with a frame ready in class c of quay q, ascending: the streams by berth ID, and harbour traffic under 4,096. -/
def State.senders (s : State) (q c : Nat) : List Nat :=
  (s.berths.filter (fun e => s.streamReady q e.2 && decide (s.entryClass q e.2.stream.entry = c))).map (·.1) ++
  (if bitsOf (s.reg (quayAddr q R.QY_CFG)) 10 8 = c ∧ !(s.quay q).harbour.isEmpty then [4096] else [])

/-- The sender whose turn it is: the next after the last one served, cyclically (R422). -/
def nextTurn (last : Nat) (l : List Nat) : Option Nat :=
  match l.find? (fun n => decide (last ≤ n)) with
  | some n => some n
  | none => l.head?

/-- The class and sender of the next frame: the highest class that is not paused and has one ready (R422). -/
def State.nextSender (s : State) (q : Nat) : Option (Nat × Nat) :=
  ([7, 6, 5, 4, 3, 2, 1, 0] : List Nat).findSome? (fun c =>
    if s.classPaused q c then none
    else (nextTurn ((s.quay q).turn.getD c 0) (s.senders q c)).map (fun n => (c, n)))

/-- One step of the selector's LFSR, x^32 + x^22 + x^2 + x + 1, in the form Config leaves open (R442, assumption log 21). -/
def lfsrStep (v : Nat) : Nat :=
  if Config.lfsrGalois then v / 2 ^ 1 ^^^ (if bitOf v 0 then 0x80200003 else 0)
  else (v * 2 + (b2n (bitOf v 31) + b2n (bitOf v 21) + b2n (bitOf v 1) + b2n (bitOf v 0)) % 2) % 2 ^ 32

/-- Whether a candidate is selected, and the selector after it (R442). -/
def Quay.select (k : Quay) (ctl sel : Nat) : Bool × Quay :=
  if bitOf ctl 3 then
    let v := lfsrStep (if k.lfsr = 0 then 1 else k.lfsr)
    (decide (v % 65536 < sel / 65536), { k with lfsr := v })
  else
    let n := max 2 (sel % 65536)
    if n ≤ k.count + 1 then (true, { k with count := 0 }) else (false, { k with count := k.count + 1 })

/-- A candidate has been transmitted: the frame held for reordering counts it (R443). -/
def Quay.countCandidate (k : Quay) : Quay :=
  { k with held := k.held.map (fun h => (h.1, h.2.1, h.2.2.1 - 1, h.2.2.2)) }

/-- A packet that carries a gap record has been sent: DP_GAPSTAT counts it. -/
def Berth.countRecord (x : Berth) (p : Packet) : Berth :=
  if bitOf p.flags 0 then x.setReg R.DP_GAPSTAT (putBits (x.reg R.DP_GAPSTAT) 31 16 (bitsOf (x.reg R.DP_GAPSTAT) 31 16 + 1)) else x

/-- The first packet of the stream's queue leaves it. -/
def Berth.unqueue (x : Berth) (p : Packet) : Berth :=
  let m := x.stream
  { x with stream := { m with
    queue := m.queue.drop 1
    opened := if p.last then m.opened.filter (fun n => decide (some n ≠ p.ser)) else m.opened } }

/-- No fabric route is left from the die of a berth to that of its quay: the packet is lost, takes no number, and what its record was to report is still to be
reported (R20, assumption log 129). -/
def State.loseRemote (s : State) (q : Nat) (x : Berth) (p : Packet) : State :=
  let y := x.unqueue p
  let m := y.stream
  let z := { y with stream := { m with
    lostLines := m.lostLines + p.lost.1, lostFrames := m.lostFrames + p.lost.2.1, lostAudio := m.lostAudio + p.lost.2.2
    report := m.report || bitOf p.flags 0 } }
  (s.setBerth z).fabricLost x.die (quayDie q)

/-- Transmit a Quayline packet of stream x: SEQ is written, then injection acts (R290, R417, R442, R443). -/
def State.sendPacket (s : State) (q c : Nat) (x : Berth) (p : Packet) : State :=
  let m := x.stream
  let w := s.entryWord q m.entry
  let b := fun n => (BitVec.ofNat 8 n : Byte)
  let head : List Byte := [b (0x10 + p.typ), b p.flags] ++ beBytes 2 (p.seg * 2048 + x.id) ++ beBytes 2 p.frame ++
    beBytes 2 (p.pf * 8192 + p.line) ++ beBytes 4 m.seq ++ beBytes 4 p.btime
  let data := head ++ p.payload
  let z := (x.unqueue p).countRecord p
  let y := { z with stream := { z.stream with seq := (m.seq + 1) % 2 ^ 32 } }
  let s1 := (s.setBerth y).modQuay q (fun k => { k with turn := k.turn.set c (x.id + 1) })
  let ctl := s1.reg (quayAddr q R.QY_INJCTL)
  let sa := (s1.quay q).txSa
  let s2 := if bitOf (w 0) 19 then s1.modQuay q Quay.bumpPn else s1
  let s3 := match sa with
    | some a => if bitOf (w 0) 19 ∧ 2 ^ 62 < a.pn + 1 then s2.quayEvent q 4 else s2
    | none => s2
  let cand := !bitOf ctl 4 || decide (bitsOf ctl 26 16 = x.id)
  if !s.injectOn q ∨ !cand then s3.sendFrame q (s3.buildFrame q w sa data) true
  else
    let r := (s3.quay q).select ctl (s3.reg (quayAddr q R.QY_INJSEL))
    let s4 := s3.modQuay q (fun _ => r.2)
    let inc := fun (t : State) (off : Nat) => t.addFld (quayAddr q off) 31 0 1
    if !r.1 then (s4.sendFrame q (s4.buildFrame q w sa data) true).modQuay q Quay.countCandidate
    else if bitOf ctl 0 then inc s4 R.QY_INJDROPS
    else
      let cor := s4.reg (quayAddr q R.QY_INJCORR)
      let i := bitsOf cor 13 0 % data.length
      let post := bitOf cor 17
      let bad := bitOf ctl 1
      let d1 := if bad && !post then flipBit data i (bitsOf cor 16 14) else data
      let f1 := s4.buildFrame q w sa d1
      let f2 := if bad && post then flipBit f1 (payloadAt w + i) (bitsOf cor 16 14) else f1
      let s5 := if bad then inc s4 R.QY_INJCORRS else s4
      if bitOf ctl 2 && (s5.quay q).held.isNone then
        let n := max 1 (bitsOf (s5.reg (quayAddr q R.QY_INJREORD)) 3 0)
        (inc s5 R.QY_INJHOLDS).modQuay q (fun k => { k with held := some (⟨f2, !(bad && post), s5.htime⟩, c, n, s5.htime) })
      else (s5.sendFrame q f2 (!(bad && post))).modQuay q Quay.countCandidate

/-- QUAY_TRANSMIT_FRAME: the quay starts its next frame: strict priority over the classes not paused, then stream turn (R422, R444). -/
def execQuayTransmitFrame (q at_ : Nat) (s : State) : Answer :=
  s.onQuay q (.next (
    let u := s.at at_
    if !u.quayLocked q then u
    else match u.nextSender q with
      | none => u
      | some (c, n) =>
        if n = 4096 then
          let f := (u.quay q).harbour.headD []
          (u.modQuay q (fun k => { k with harbour := k.harbour.drop 1, turn := k.turn.set c 4097 })).sendFrame q f true
        else match u.berth n with
          | some x => match x.stream.queue with
            | p :: _ => if u.reaches x.die (quayDie q) then u.sendPacket q c x p else u.loseRemote q x p
            | [] => u
          | none => u))

/-- INJECT_REORDER_RELEASE: the held frame is released after its K candidates, after 100 µs, or once injection is withdrawn; it waits while its
class is paused (R441, R443). -/
def execInjectReorderRelease (q at_ : Nat) (s : State) : Answer :=
  s.onQuay q (.next (
    let u := s.at at_
    match (u.quay q).held with
    | none => u
    | some (f, c, n, t) =>
      let due := decide (n = 0 ∨ 100000 ≤ u.htime - t) || !u.injectOn q
      if due ∧ !u.classPaused q c ∧ u.quayLocked q then
        (u.modQuay q (fun k => { k with held := none })).sendFrame q f.bytes f.fcs
      else u))

/-- Discard a received frame and count it (R433). -/
def State.discard (s : State) (q off : Nat) : State :=
  (s.addFld (quayAddr q off) 31 0 1).addFld (quayAddr q R.QY_RXDISC) 31 0 1

/-- A received PFC frame: each enabled class with HONOUR takes its time field (R423). -/
def State.pfcReceived (s : State) (q : Nat) (r : List Byte) : State :=
  let mask := ofBe ((r.drop 2).take 2)
  let honour := bitsOf (s.reg (quayAddr q R.QY_PFC)) 7 0
  let unit := if (s.quay q).speed = 1 then 512 else 256
  s.modQuay q (fun k => (List.range 8).foldl (fun (k : Quay) c =>
    if bitOf mask c ∧ bitOf honour c then
      let t := ofBe ((r.drop (4 + 2 * c)).take 2)
      { k with pause := k.pause.set c (if t = 0 then 0 else s.htime + (t * unit + 99) / 100) }
    else k) k)

/-- Check 3 of Table 12-5 and its result: the frame without its protection, with the SA updated; none where it fails. -/
def Quay.unprotect (k : Quay) (l : List Byte) : Option (List Byte × Quay) :=
  let t := l.drop 12
  if ofBe (t.take 2) ≠ 0x88E5 ∨ t.length < 32 then none
  else
    let an := (t.getD 2 0).toNat % 4
    let pn32 := ofBe ((t.drop 4).take 4)
    let sci := (t.drop 8).take 8
    match k.sas.find? (fun a => !a.tx && decide (a.an = an ∧ a.sci = sci)) with
    | none => none
    | some a =>
      let base := a.pn / 2 ^ 32 * 2 ^ 32
      let pn := if base + pn32 + 2 ^ 31 < a.pn then base + 2 ^ 32 + pn32 else base + pn32
      let body := t.drop 16
      let ct := body.take (body.length - 16)
      let icv := body.drop (body.length - 16)
      if a.icv pn (l.take 28) ct ≠ icv ∨ pn + Config.replayWindow < a.pn ∨ pn < a.replay then none
      else
        let k1 := { k with sas := k.sas.map (fun b => if b = a then { b with pn := max b.pn (pn + 1) } else b) }
        some (l.take 12 ++ a.cipher pn ct, k1)

/-- What check 5 makes of a frame: firmware traffic, an IP packet with UDP (true for IPv6), or neither. -/
inductive RxKind where
  | firmware
  | udp (six : Bool) (ip : List Byte)
  | other
  deriving DecidableEq, Repr

/-- Check 5 of Table 12-5. -/
def rxKind (l : List Byte) : RxKind :=
  let (e, r) := untag l
  let t := (r.getD 20 0).toNat
  let t6 := (r.getD 40 0).toNat
  if e = 0x0806 ∨ (ptpOf l).isSome then .firmware
  else if e = 0x0800 then
    if r.getD 9 0 = 1 ∧ (t = 8 ∨ t = 0) then .firmware else if r.getD 9 0 = 17 then .udp false r else .other
  else if e = 0x86DD then
    if r.getD 6 0 = 58 ∧ (t6 = 128 ∨ t6 = 129 ∨ (133 ≤ t6 ∧ t6 ≤ 137)) then .firmware
    else if r.getD 6 0 = 17 then .udp true r else .other
  else .other

/-- Check 6 of Table 12-5. -/
def State.ipOk (s : State) (q : Nat) (six : Bool) (r : List Byte) : Bool :=
  if six then decide ((r.getD 0 0).toNat / 16 = 6) && decide ((r.drop 24).take 16 = s.ip6Of q)
  else decide (r.getD 0 0 = 0x45) && decide (onesSum (r.take 20) = 65535) && decide (ofBe ((r.drop 6).take 2) % 16384 = 0) &&
    decide ((r.drop 16).take 4 = s.ip4Of q)

/-- The UDP header and payload of an IP packet, cut to the datagram's length. -/
def udpOf (six : Bool) (r : List Byte) : List Byte :=
  let u := r.drop (if six then 40 else 20)
  u.take (ofBe ((u.drop 4).take 2))

/-- The UDP checksum is valid when nonzero, and nonzero over IPv6 (check 7). -/
def udpOk (six : Bool) (r u : List Byte) : Bool :=
  let pseudo := if six then (r.drop 8).take 32 ++ beBytes 4 u.length ++ [0, 0, 0, 17] else (r.drop 12).take 8 ++ [0, 17] ++ beBytes 2 u.length
  let c := ofBe ((u.drop 6).take 2)
  decide (8 ≤ u.length) && (if c = 0 then !six else decide (onesSum (pseudo ++ u) = 65535))

/-- The receive entry that a datagram matches (R420, check 7). -/
def State.rxEntry (s : State) (q : Nat) (six : Bool) (r u : List Byte) : Option Nat :=
  let src := if six then (r.drop 8).take 16 else (r.drop 12).take 4
  (List.range 512).map (· + 512) |>.find? (fun e =>
    let w := s.entryWord q e
    bitOf (w 0) 11 && decide (bitOf (w 0) 15 = six) && decide (bitsOf (w 1) 15 0 = ofBe ((u.drop 2).take 2)) &&
    (!bitOf (w 0) 16 || decide (src = if six then entryIp6 w else beBytes 4 (w 5))))

/-- The payload words of an INPUT packet (R299). -/
def inputWords : List Byte → List Word
  | a :: b :: r => w16 (a.toNat * 256 + b.toNat) :: inputWords r
  | _ => []

/-- Write words into a ring of 2^k words from position p as master class 0x5 (R82, check 10): false at the first denied word. -/
def State.ringWrite (s : State) (x : Berth) (base k p : Nat) : List Word → Bool × State
  | [] => (true, s)
  | v :: r =>
    let a := base + p % 2 ^ k
    match s.cellWrite x.die (a / 2 ^ 29) (a % 2 ^ 29) v { cls := 5, id := x.id } with
    | (true, t) => t.ringWrite x base k (p + 1) r
    | (false, t) => (false, t)

/-- Checks 9 and 10 and the delivery of an INPUT payload to an entry's target (R434 to R437). -/
def State.deliver (s : State) (q e : Nat) (x : Berth) (ql : List Byte) (ws : List Word) : State :=
  let w := s.entryWord q e
  let base := w 2
  let k := bitsOf (w 3) 4 0
  let tgt := bitsOf (w 0) 14 12
  let ok := fun (t : State) => t.addFld (quayAddr q R.QY_RXPKTS) 31 0 1
  if tgt = 0 then
    let n := ws.length + 4
    let used := (x.padWp + 2 ^ (k + 1) - x.padRet % 2 ^ (k + 1)) % 2 ^ (k + 1)
    if 2 ^ k < used + n then
      (s.setBerth { x with outside := x.outside ++ [{ chg := .padDrops 1 }] }).discard q R.QY_RXFULL
    else
      let seq := ofBe ((ql.drop 8).take 4)
      let rcd := [w16 ws.length, w16 (seq / 65536), w16 seq, w16 ((ql.getD 1 0).toNat + q * 256)] ++ ws
      match s.ringWrite x base k x.padWp rcd with
      | (true, t) => ok (t.setBerth { x with padWp := (x.padWp + n) % 2 ^ (k + 1) })
      | (false, t) => t.discard q R.QY_RXDENIED
  else if tgt ≤ 4 then
    match x.rx.getD (tgt - 1) none with
    | none => s.discard q R.QY_RXNOMATCH
    | some r =>
      if 2 ^ r.k < r.prod + ws.length - r.cons then s.discard q R.QY_RXFULL
      else match s.ringWrite x r.base r.k r.prod ws with
        | (true, t) => ok (t.setBerth { x with rx := x.rx.set (tgt - 1) (some { r with prod := r.prod + ws.length }) })
        | (false, t) => t.discard q R.QY_RXDENIED
  else
    let used := (x.inWp + 2 ^ (k + 1) - x.inRet % 2 ^ (k + 1)) % 2 ^ (k + 1)
    if 2 ^ k < used + ws.length then s.discard q R.QY_RXFULL
    else match s.ringWrite x base k x.inWp ws with
      | (true, t) => ok (t.setBerth { x with inWp := (x.inWp + ws.length) % 2 ^ (k + 1) })
      | (false, t) => t.discard q R.QY_RXDENIED

/-- Checks 6 to 10 of a UDP packet. -/
def State.receiveUdp (s : State) (q : Nat) (six : Bool) (r : List Byte) : State :=
  if !s.ipOk q six r then s.discard q R.QY_RXBADIP
  else
    let u := udpOf six r
    match (if udpOk six r u then s.rxEntry q six r u else none) with
    | none => s.discard q R.QY_RXNOMATCH
    | some e =>
      let ql := u.drop 8
      let n := ql.length - 16
      let b := bitsOf (s.entryWord q e 0) 10 0
      if ql.length < 18 ∨ ql.getD 0 0 ≠ 0x13 ∨ ofBe ((ql.drop 2).take 2) % 2048 ≠ b ∨ 1024 < n ∨ n % 2 = 1 then s.discard q R.QY_RXBADQL
      else match s.berth b with
        | some x => if s.reaches (quayDie q) x.die then s.deliver q e x ql (inputWords (ql.drop 16)) else s.fabricLost (quayDie q) x.die
        | none => s.discard q R.QY_RXNOMATCH

/-- A PTP Sync on a time-receiver quay: harbour firmware's filtered offset, which the spec computes nowhere, replaces the correction still to be
applied, and PTPLOCK follows it (R440, assumption log 134). -/
def State.ptpSync (s : State) : State :=
  let (o, t) := s.drawInt
  let n := if o.natAbs ≤ 100 then t.ptpRun + 1 else 0
  let u := { t.setCorr (o * 5000) with ptpRun := n }
  if 16 ≤ n then u.eachClkstat (fun v a => v.setFlag a 2 true)
  else if 200 < o.natAbs then u.eachClkstat (fun v a => v.setFlag a 2 false)
  else u

/-- A frame that has passed checks 1 to 3 (R433). -/
def State.receiveClear (s : State) (q : Nat) (l : List Byte) (reply : Option (List Byte)) : State :=
  let da := l.take 6
  if da ≠ s.macOf q ∧ da ≠ List.replicate 6 0xFF ∧ da ≠ [0x01, 0x1B, 0x19, 0, 0, 0] then s.discard q R.QY_RXNOMATCH
  else match rxKind l with
    | .other => s.discard q R.QY_RXNOMATCH
    | .udp six r => s.receiveUdp q six r
    | .firmware =>
      let t := if s.flag (quayAddr q R.QY_CFG) 5 then
          match ptpEvent l with
          | some e => if e.2 = 0 ∧ s.ptp.contains q then (s.pushStamp q false e).ptpSync else s.pushStamp q false e
          | none => s
        else s
      t.modQuay q (fun k => { k with fw := k.fw ++ [l], harbour := k.harbour ++ reply.toList })

/-- QUAY_RECEIVE_FRAME: a frame arrives on a quay whose link is up and passes the checks of Table 12-5 in order, or is discarded and counted (R433 to
R437). bytes run up to the FCS, fcs says whether the FCS is valid; reply is the frame harbour firmware answers with, if any, to a frame handed to it. -/
def execQuayReceiveFrame (q : Nat) (bytes : List Byte) (fcs : Bool) (reply : Option (List Byte)) (at_ : Nat) (s : State) : Answer :=
  s.onQuay q (.next (
    let u := s.at at_
    if !u.quayLocked q then u
    else if !fcs ∨ bytes.length < 60 ∨ 9212 < bytes.length then u.discard q R.QY_RXFRAME
    else if ofBe ((bytes.drop 12).take 2) = 0x8808 then
      (if ofBe ((bytes.drop 14).take 2) = 0x0101 then u.pfcReceived q (bytes.drop 14) else u.discard q R.QY_RXFRAME)
    else if u.flag (quayAddr q R.QY_CFG) 4 then
      match (u.quay q).unprotect bytes with
      | none => u.discard q R.QY_RXSEC
      | some (l, k) => (u.modQuay q (fun _ => k)).receiveClear q l reply
    else u.receiveClear q bytes reply))

/-- PFC_PAUSE_EXPIRY: the pause of class c runs out (R423). -/
def execPfcPauseExpiry (q c : Nat) (s : State) : Answer :=
  s.onQuay q (.next (
    let e := (s.quay q).pause.getD (c % 8) 0
    if e = 0 then s else (s.at e).modQuay q (fun k => { k with pause := k.pause.set (c % 8) 0 })))

/-- QUAY_PFC_GENERATE: the receive buffer holds fill KiB: the quay sends XOFF above its threshold, repeats it, or sends time 0 below XOFF − 32 (R438). -/
def execQuayPfcGenerate (q fill at_ : Nat) (s : State) : Answer :=
  s.onQuay q (.next (
    let u := (s.at at_).modQuay q (fun k => { k with rxFill := fill })
    let cfg := u.reg (quayAddr q R.QY_PFC)
    let gen := bitsOf cfg 15 8
    let th := max 64 (bitsOf cfg 23 16)
    if !u.quayLocked q ∨ gen = 0 then u
    else if th < fill then
      (u.modQuay q (fun k => { k with xoff := true })).sendFrame q (u.pfcFrame q gen 65535) true
    else if (u.quay q).xoff ∧ fill < th - 32 then
      (u.modQuay q (fun k => { k with xoff := false })).sendFrame q (u.pfcFrame q gen 0) true
    else u))

/-- Set LOCK and LINKUP, with the link source of the quay, which every change of LINKUP makes pending (R414). -/
def State.setLink (s : State) (q : Nat) (lock up : Bool) : State :=
  let a := quayAddr q R.QY_STAT
  let t := (s.setFlag a 0 lock).setFlag a 1 up
  if s.flag a 1 ≠ up then t.hicSet (quayDie q) (384 + q % 18) else t

/-- QUAY_LINK_UP: FEC alignment is achieved on an enabled quay, at the speed that auto-negotiation has chosen when AN = 1 and else at SPEED (R412); LINKUP
follows when the partner reports no fault (R414). -/
def execQuayLinkUp (q : Nat) (l : LinkSeen) (s : State) : Answer :=
  s.onQuay q (.next (
    let u := s.at l.at_
    let cfg := quayAddr q R.QY_CFG
    if u.flag cfg 0 then
      (((u.setFlag (quayAddr q R.QY_STAT) 3 l.fault).setLink q true !l.fault).modQuay q (fun k =>
        { k with speed := if u.flag cfg 3 then l.speed % 2 else b2n (u.flag cfg 1) }))
    else u))

/-- The streams that quay q carries. -/
def State.carried (s : State) (q : Nat) : List Nat :=
  (s.berths.filter (fun e => e.2.stream.bound && !e.2.stream.held && decide (e.2.stream.quay = q))).map (·.1)

/-- A quay loses lock for a cause of EV_QUAY_DOWN: LOCK and LINKUP clear, DOWN is set, a held frame is lost, and its streams wait for the failover (R415,
R429, R443). -/
def State.loseLock (s : State) (q cause : Nat) : State :=
  let a := quayAddr q R.QY_STAT
  let t := ((s.setLink q false false).setFlag a 4 true).modQuay q (fun k =>
    { k with held := none, downCause := cause, downAt := s.htime, failing := true })
  let t1 := if cause = 4 then t.setFlag a 3 true else t
  let t2 := if cause = 3 then (t1.addFld (quayAddr q R.QY_FECUNCORR) 31 0 8).quayEvent q 16 else t1
  t2.logFault 9 (quayDie q) none 0 q [cause]

/-- QUAY_LOSS_OF_LOCK: signal (1), alignment (2), FEC codewords (3) or remote fault (4) (R415). On a quay whose LINKUP is still 0, signal or alignment clears
LOCK alone. -/
def execQuayLossOfLock (q cause at_ : Nat) (s : State) : Answer :=
  s.onQuay q (.next (
    let u := s.at at_
    if u.quayUp q ∧ 1 ≤ cause ∧ cause ≤ 4 then u.loseLock q cause
    else if cause = 1 ∨ cause = 2 then u.setLink q false false
    else u))

/-- Word i of a table entry set. -/
def State.setEntry (s : State) (q e : Nat) (f : List Nat → List Nat) : State :=
  s.modQuay q (fun k =>
    let old := tget k.table e (List.replicate 12 0)
    { k with table := tput k.table e (f old) (List.replicate 12 0) })

/-- Set ACTIVE of a transmit entry. -/
def State.setActive (s : State) (q e : Nat) (v : Bool) : State :=
  s.setEntry q e (fun w => w.set 0 (putBits (w.getD 0 0) 12 12 (b2n v)))

/-- The stream of a berth is being failed over: the quay that carries it has lost lock, and step 5 of Table 12-4 is not reached (R432). -/
def State.failingOver (s : State) (x : Berth) : Bool := x.stream.bound && !x.stream.held && (s.quay x.stream.quay).failing

/-- Move the stream of an ACTIVE entry to its partner, or hold it (R428 to R431): 1 moved, 2 held. A stream that has been moved has no partner any more. -/
def State.failEntry (s : State) (q : Nat) (x : Berth) : Nat × State :=
  let e := x.stream.entry
  let w10 := s.entryWord q e 10
  let p := bitsOf w10 7 0
  let pe := bitsOf w10 16 8
  let y := x.discardQueue true
  if p = 255 ∨ x.stream.spent then (2, s.setBerth { y with stream := { y.stream with held := true, reason := 6, report := true } })
  else
    let t := (s.setActive q e false).setActive p pe true
    if s.quayUp p then
      (1, t.setBerth { y with stream := { y.stream with quay := p, entry := pe, rebound := true, report := true, reason := 6, spent := true } })
    else
      (2, t.setBerth { y with stream := { y.stream with quay := p, entry := pe, held := true, reason := 6, report := true, spent := true } })

/-- Steps 4 to 6 of Table 12-4 for a quay, with the events that follow. -/
def State.failover (s : State) (q : Nat) : State :=
  let ids := s.carried q
  let r := ids.foldl (fun (a : (Nat × Nat) × State) b => match a.2.berth b with
    | some x =>
      let z := a.2.failEntry q x
      (if z.1 = 1 then (a.1.1 + 1, a.1.2) else (a.1.1, a.1.2 + 1), z.2)
    | none => a) ((0, 0), s)
  let k := s.quay q
  let u := (r.2.modQuay q (fun k => { k with failing := false })).post 0x04 none (quayDie q) (detail [(q, 1), (k.downCause, 1), (ids.length, 2)])
  u.post 0x05 none (quayDie q) (detail [(q, 1), (0, 1), (r.1.1, 2), (r.1.2, 2), (0, 2), (s.htime - k.downAt, 4)])

/-- The bits that Table 12-3 lists in word i of stream table entry e: unlisted bits read 0 (R420). -/
def entryMask (e i : Nat) : Nat :=
  if e < 512 then ([2 ^ 26 - 1, 2 ^ 20 - 1, 2 ^ 32 - 1, 2 ^ 32 - 1, 2 ^ 16 - 1, 2 ^ 32 - 1, 2 ^ 32 - 1, 2 ^ 32 - 1, 2 ^ 32 - 1, 2 ^ 20 - 1, 2 ^ 17 - 1,
    2 ^ 6 - 1] : List Nat).getD i 0
  else ([2 ^ 17 - 1, 2 ^ 16 - 1, 2 ^ 32 - 1, 2 ^ 5 - 1, 0, 2 ^ 32 - 1, 2 ^ 32 - 1, 2 ^ 32 - 1, 2 ^ 32 - 1, 0, 0, 0] : List Nat).getD i 0

end Sys2Proof.Machine
end

