-- ==== Sys2Proof/Machine/Bus.lean ====
section
/-! DEFINITION. Access to harbour registers: who reaches what (R10, R14, R26, R32, R41 to R46, R81, R83), what a read returns, and what a
plain write leaves (R11, R12). -/

namespace Sys2Proof.Machine

/-- PHASE of HB_BOOTSTAT. -/
def State.phase (s : State) : Nat := s.fld R.HB_BOOTSTAT 7 0

/-- Harbour firmware serves commands: PHASE 0x03, READY (R484). -/
def State.serving (s : State) : Bool := decide (s.phase = 3)

/-- Key of a requester in the tables of per-requester state (R26, R87). -/
def reqKey : Requester → Nat
  | .ep n => n % 2
  | .deputy d => 2 + d % 8
  | .master => 10
  | .jtag => 11

/-- Master class of a requester (Table 2-3). -/
def reqClass : Requester → Nat
  | .ep n => 9 + n % 2
  | .deputy _ => 7
  | .master => 8
  | .jtag => 11

/-- The die on which a requester stands. -/
def reqDie : Requester → Nat
  | .ep n => 4 * (n % 2)
  | .deputy d => d
  | _ => 0

/-- The requester exists on the part. -/
def State.hasReq (s : State) : Requester → Bool
  | .ep n => decide (n < s.part.endpoints)
  | .deputy d => s.hasDie d
  | _ => true

/-- The requester is a harbour core. -/
def isCore : Requester → Bool
  | .deputy _ => true
  | .master => true
  | _ => false

/-- The requester is a PCIe endpoint: the host. -/
def isHost : Requester → Bool
  | .ep _ => true
  | _ => false

/-- The BAR0 reads that a device in PHASE 0x05 completes (R570). -/
def failedRead (a : Nat) : Bool :=
  decide (a = R.HB_PARTID ∨ a = R.HB_DIEID ∨ a = R.HB_PRFSEL ∨ a = R.HB_MCTPVID ∨ a = R.HB_BOOTSTAT ∨ (0x80000 ≤ a ∧ a < 0x90000))

/-- An endpoint takes memory requests: its link is up, it is not in D3hot, and firmware serves (R446 to R448, Table 1-8). -/
def State.hostUp (s : State) (e : Nat) : Bool := (s.ep e).link && !(s.ep e).d3hot && s.serving

/-- An access of a requester to harbour address a enters the package at all. -/
def State.enters (s : State) (r : Requester) (a : Nat) (w : Bool) : Bool :=
  match r with
  | .ep e => s.hostUp e || ((s.ep e).link && !(s.ep e).d3hot && decide (s.phase = 5) && !w && failedRead a)
  | _ => decide (s.keeper.phase = .on)

/-- What a requester sees, on the bus, of an access. -/
def State.respond (s : State) (x : BusResp) : State := { s with bus := x }

/-- The die of a location. -/
def Loc.dieOf : Loc → Nat
  | .die d _ => d
  | .dock d _ _ => d
  | .slot d _ _ _ => d
  | .quay q _ => q / 18

/-- The register ledger entry of a location (Table 2-5). -/
def Loc.entry : Loc → Nat
  | .die _ off => off / 0x10000
  | .dock _ k _ => 16 + k
  | .slot _ k _ _ => 16 + k
  | .quay q _ => 32 + q % 18

/-- The register ledger grants a requester a read or a write of a location (R81). -/
def State.regRight (s : State) (r : Requester) (l : Loc) (w : Bool) : Bool :=
  let a := dieAddr l.dieOf (R.LG_REGLED + 4 * l.entry)
  match r with
  | .ep _ => s.flag a (b2n w)
  | .jtag => s.flag a (2 + b2n w)
  | _ => true

/-- The register at a location is one of GP_OUT and GP_OE, whose writes LG_PIN rules bit by bit (R592). -/
def Loc.isPin : Loc → Bool
  | .die d off => decide (d = 0 ∧ R.GP_OUTLO ≤ off ∧ off ≤ R.GP_OEHI)
  | _ => false

/-- Bits of a row whose fields have one of the given access codes. -/
def RegRow.mask (r : RegRow) (as : List Acc) : Nat :=
  r.fields.foldl (fun v f => if as.contains f.acc then putBits v f.hi f.lo (2 ^ 32 - 1) else v) 0

/-- A write of the slot-block register at an offset is ignored for a requester: governor, core and output registers take no host write
(files 03, 04, 08), watch registers and descriptors none but a harbour core's (R127, file 14). -/
def slotIgnores (off : Nat) (r : Requester) : Bool :=
  (isHost r && decide (off < 0x40 ∨ (0x80 ≤ off ∧ off < 0xC0))) ||
  (!isCore r && decide ((0xC0 ≤ off ∧ off < 0xD0) ∨ (0x100 ≤ off ∧ off < 0x180)))

/-- A write of the location by this requester is ignored though the ledger passes it: an HB_ register whose fields are all RO (R81), and the
registers that only harbour cores write: PW_, ST_ECCCFG, LG_, MS_, FY_ and LT_, MC_, and the quays' but for the injection registers (files 02, 10, 12,
15, 16); the KP_ block, which only the harbourmaster writes (file 15). -/
def Loc.ignores (l : Loc) (r : Requester) : Bool :=
  let readOnly := match l.row with
    | some w => decide (w.mask [.rw, .wo, .w1c, .w1s] = 0)
    | none => true
  match l with
  | .die _ off =>
    (off / 0x10000 == 0 && readOnly && isHost r) ||
    (!isCore r && decide (off / 0x10000 = 2 ∨ off = R.ST_ECCCFG ∨ off / 0x10000 = 6 ∨ off / 0x10000 = 8)) ||
    (decide (off / 0x10000 = 7) && decide (r ≠ .master))
  | .dock _ _ off => !isCore r && decide (0x2000 ≤ off ∧ off < 0x5000)
  | .slot _ _ _ off => slotIgnores off r
  | .quay _ off => !isCore r && !(decide (0x200 ≤ off ∧ off ≤ 0x210) && isHost r)

/-- A requester's access to an address that no block answers, and a misaligned read (R10, R46). -/
def State.absent (s : State) (r : Requester) (a : Nat) (k : Kind) : State :=
  match r with
  | .ep _ => s.respond .unsupported
  | .jtag => s.respond .jtagDenied
  | _ => (s.logViol (reqDie r) { cls := reqClass r } k 4 4 a).respond .busFault

/-- A denied access: logged on the target's die, and seen as Table 2-6 gives. -/
def State.regDenied (s : State) (r : Requester) (l : Loc) (a : Nat) (k : Kind) : State :=
  let t := s.logViol l.dieOf { cls := reqClass r } k 1 0 a
  match r with
  | .ep _ => t.respond .unsupported
  | .jtag => t.respond .jtagDenied
  | _ => t.respond .busFault

/-- A requester's own index register (R87). -/
def State.index (s : State) (r : Requester) (a : Nat) : Nat := tget s.latches (a * 16 + reqKey r) 0

/-- The stream table entry that a write of a location by a requester would change: QY_STENTw of the entry its QY_STIDX selects. -/
def State.entryHit (s : State) (r : Requester) (l : Loc) : Option Nat :=
  match l with
  | .quay q off => if 0x44 ≤ off ∧ off < 0x74 then some (q * 65536 + s.index r (quayAddr q R.QY_STIDX)) else none
  | _ => none

/-- A write of a stream table entry by a requester that is no harbour core is denied under the entry's own address (R82, R420, assumption log 132). -/
def State.entryDenied (s : State) (r : Requester) (l : Loc) (n : Nat) : State :=
  (s.logViol l.dieOf { cls := reqClass r } .write 2 0 n).respond (match r with
    | .ep _ => .unsupported
    | .jtag => .jtagDenied
    | _ => .busFault)

/-- Pass an access of requester r to address a: the location where it is granted; the state after a refusal otherwise. -/
def State.gate (s : State) (r : Requester) (a : Nat) (w : Bool) : Option Loc × State :=
  let k := if w then Kind.write else Kind.read
  if !s.hasReq r then (none, s)
  else if !s.enters r a w then (none, s.respond .unsupported)
  else match locate s.part a with
    | none => (none, s.absent r a k)
    | some l =>
      if w && l.isPin && isHost r then (some l, s)
      else if w && isHost r && l.ignores r && decide (l.entry = 0) then (none, s.respond .done)
      else if !s.regRight r l w then (none, s.regDenied r l a k)
      else if w && !isCore r && (s.entryHit r l).isSome then (none, s.entryDenied r l ((s.entryHit r l).getD 0))
      else if w && l.ignores r then (none, s.respond .done)
      else match l with
        | .slot d c n _ =>
          if isHost r && decide (s.slot d c n ≠ 1) then (none, s.respond (if w then .done else .data 0)) else (some l, s)
        | _ => (some l, s)

/-- The 32 bits of a predicate on bit numbers. -/
def bits32 (p : Nat → Bool) : Nat := (List.range 32).foldl (fun v n => v + b2n (p n) * 2 ^ n) 0

/-- An HB_BLOC entry (R30, R31). The LOC of a parked berth, to which the spec gives no meaning, is 0 (DESIGN CHOICE, assumption log 140). -/
def State.bloc (s : State) (b : Nat) : Nat :=
  match s.berth b with
  | some x => (if x.parked then 0 else slotLoc x.die x.dock x.slot) + 2 ^ 12 + b2n x.moving * 2 ^ 13 + b2n x.parked * 2 ^ 14 + x.locGen * 2 ^ 16
  | none => 0

/-- STATE of BM_CORESTAT (Table 4-5). -/
def CoreState.code : CoreState → Nat
  | .stopped => 0
  | .run => 1
  | .halt => 3
  | _ => 2

/-- DESCnA and DESCnB. -/
def Desc.words (x : Desc) : Nat × Nat :=
  (x.base / 64, x.limit + b2n x.r * 2 ^ 16 + b2n x.w * 2 ^ 17 + b2n x.x * 2 ^ 18 + b2n x.shared * 2 ^ 19)

/-- The next line of a berth to be released (DP_BLINE): the first composable one, else the first that waits for a commit, else the line the beam is on, and
line 0 outside the visible lines. -/
def Berth.nextLineNo (x : Berth) : Nat :=
  match x.pipe.lines ++ x.ended.flatMap (fun r => r.acc.lines) ++ x.cur.lines with
  | r :: _ => r.line
  | [] => if x.side.beam.l < x.side.beam.geo.vvis then x.side.beam.l else 0

/-- The slot-block registers of a berth, as its slot shows them. -/
def State.slotView (s : State) (x : Berth) (off : Nat) : Nat :=
  if off = R.BM_GOVSTAT then
    let lag := s.lag x
    let g := x.gov
    let ps : Int := pixelPs x.side.beam.geo
    let ht := decide (g.mode = 1) && !g.lockerr
    b2n (ht && decide (g.offset < ps ∧ -ps < g.offset)) + b2n g.lockerr * 2 +
      b2n (!x.frozen && decide (0 < lag)) * 4 + b2n (decide (g.offset ≠ 0)) * 8 + b2n x.frozen * 16 + min lag 0xFFFFFF * 256
  else if off = R.BM_SQSTAT then x.cur.stamps.length + x.stalls % 65536 * 2 ^ 16
  else if off = R.BM_STORE then x.pipe.store.length + x.storeWaits % 65536 * 2 ^ 16
  else if off = R.BM_CORESTAT then
    let k := x.side.core
    k.st.code + b2n k.double * 4 + b2n (decide (k.cap ≠ 0)) * 8 + (if k.st.waiting then k.lastPc else k.pc).toNat * 2 ^ 16
  else if off = R.DP_BLINE then
    x.nextLineNo + x.pipe.lines.length * 2 ^ 16
  else if off = R.DP_GAPSTAT then bitsOf (x.reg off) 31 16 * 2 ^ 16 + x.stream.lostLines % 65536
  else if off = R.BM_WATCHSTAT then
    x.cur.undo.length + b2n (!x.ended.isEmpty) * 2 ^ 13 + x.qcloses * 2 ^ 16 + x.ucloses * 2 ^ 24
  else if off = R.BM_WATCHSEQ then x.cur.seq
  else if 0x100 ≤ off ∧ off < 0x180 then
    let w := (x.side.descN ((off - 0x100) / 8)).words
    if off % 8 = 0 then w.1 else w.2
  else x.reg off

/-- The value of a time stamp FIFO's three registers (R439). -/
def tsView (l : List TsEntry) (stored n : Nat) : Nat :=
  let e := l.headD ⟨0, 0, 0⟩
  match n with
  | 0 => e.time % 2 ^ 32
  | 1 => e.time / 2 ^ 32
  | _ => stored + e.seqid % 65536 + e.mtype % 16 * 2 ^ 16 + l.length * 2 ^ 24 + b2n (!l.isEmpty) * 2 ^ 31

/-- The registers of quay q that stand for its state. -/
def State.quayView (s : State) (r : Requester) (q off : Nat) : Nat :=
  let k := s.quay q
  let a := quayAddr q off
  if off = R.QY_STAT then
    putBits (s.reg a) 15 8 (bits32 (fun c => decide (c < 8) && decide (s.htime < k.pause.getD c 0)))
  else if off = R.QY_STIDX then s.index r a
  else if 0x44 ≤ off ∧ off < 0x74 then s.entryWord q (s.index r (quayAddr q R.QY_STIDX)) ((off - 0x44) / 4)
  else if off = R.QY_TXTSLO then tsView k.txts 0 0
  else if off = R.QY_TXTSHI then tsView k.txts 0 1
  else if off = R.QY_TXTSINFO then tsView k.txts (s.reg a) 2
  else if off = R.QY_RXTSLO then tsView k.rxts 0 0
  else if off = R.QY_RXTSHI then tsView k.rxts 0 1
  else if off = R.QY_RXTSINFO then tsView k.rxts (s.reg a) 2
  else s.reg a

/-- PENDING of MC_CTL: the current checkpoint of some slot names the old bank (R581); a parked berth holds no slot. -/
def State.mcPending (s : State) (d k : Nat) : Bool :=
  let act := s.fld (dockAddr d k R.MC_CTL) 0 0
  (s.dockBerths d k).any (fun x => x.started && (match x.ckpt with
    | some c => decide (c.side.bank ≠ act)
    | none => false))

/-- The registers of a dock that stand for its state. -/
def State.dockView (s : State) (d k off : Nat) : Nat :=
  let a := dockAddr d k off
  if off = R.DK_SLOTST0 then (List.range 16).foldl (fun v n => v + s.slot d k n * 2 ^ (2 * n)) 0
  else if off = R.DK_SLOTST1 then s.slot d k 16 + (s.slotsIn d k 1).length * 2 ^ 8 + (s.slotsIn d k 0).length * 2 ^ 16
  else if off = R.FY_STAT then
    ((s.dockBerths d k).map (fun x => (x.fq.filter (·.started)).length)).foldl (· + ·) (s.reg a)
  else if off = R.LT_STAT then
    ((s.dockBerths d k).map (fun x => (x.lq.filter (·.started)).length)).foldl (· + ·) (s.reg a)
  else if off = R.DP_LOAD then s.loadOf d k + max (bitsOf (s.reg a) 26 16) (s.loadOf d k) * 2 ^ 16
  else if off = R.MC_CTL then putBits (s.reg a) 2 2 (b2n (s.mcPending d k))
  else if off = R.MC_SLOTBANK then
    bits32 (fun n => decide (n < 17) && (match s.berthIn d k n with
      | some x => decide (x.side.bank = 1)
      | none => s.flag (dockAddr d k R.MC_CTL) 0))
  else s.reg a

/-- HIC_TOPD and HIC_TOPH. -/
def topView : Option Nat → Nat
  | some n => n + 2 ^ 31
  | none => 0

/-- Berths that skip frames: a ladder has reached their priority level (R541). -/
def State.skippers (s : State) : Nat :=
  (s.berths.filter (fun e => e.2.started && !e.2.parked && s.skipWanted e.2)).length

/-- The registers of a die that stand for its state. -/
def State.dieView (s : State) (r : Requester) (d off : Nat) : Nat :=
  let a := dieAddr d off
  if off = R.HB_TIMELO then s.now % 2 ^ 32
  else if off = R.HB_TIMEHI then s.now / 2 ^ 32
  else if d = 0 ∧ 0x2000 ≤ off ∧ off < 0x4000 then s.bloc ((off - 0x2000) / 4)
  else if off = R.HIC_TOPD then topView (s.hicTop d 0)
  else if d = 0 ∧ off = R.HIC_TOPH then topView (s.hicTop d 1)
  else if 0x10280 ≤ off ∧ off < 0x10300 then bits32 (fun n => s.hicLevel d ((off - 0x10280) / 4 * 32 + n))
  else if d = 0 ∧ off = R.HT_GO then putBits (s.reg a) 2 2 (b2n s.htT.isSome)
  else if off = R.HIC_RELEASED then bits32 (fun g => (s.moder d g).released)
  else if 0x10380 ≤ off ∧ off < 0x10400 then (s.moder d ((off - 0x10380) / 4)).nheld
  else if d = 0 ∧ off = R.PW_LADDER then
    putBits (putBits (s.reg a) 1 0 (min (s.fld R.PW_THPOL 17 16) s.prof.dclkmin)) 31 20 s.skippers
  else if off = R.PW_MODE then putBits (s.reg a) 16 16 (b2n (match tfind s.entries d with
    | some e => !e.committed
    | none => false))
  else if off = R.PW_DSTAT0 then (List.range 16).foldl (fun v k => v + s.domain d k * 4 ^ k) 0
  else if off = R.PW_DSTAT1 then
    (List.range 8).foldl (fun v g => v + s.domain d (0x10 + g) * 4 ^ g) 0 +
    (List.range 3).foldl (fun v g => v + s.domain d (0x18 + g) * 2 ^ 16 * 4 ^ g) 0 + s.domain d 0x1B * 2 ^ 22
  else if d = 0 ∧ off = R.GP_PADLVLLO then bits32 s.padLevel
  else if d = 0 ∧ off = R.GP_PADLVLHI then bits32 (fun n => n < 16 && s.padLevel (32 + n))
  else if d = 0 ∧ off = R.GP_SYNCINLO then bits32 s.syncView
  else if d = 0 ∧ off = R.GP_SYNCINHI then bits32 (fun n => n < 16 && s.syncView (32 + n))
  else if off = R.ST_STAT then
    let l := s.slices.filter (fun z => decide (z.die = d))
    s.reg a + (l.filter (·.running)).length + (l.filter (fun z => !z.running)).length % 256 * 2 ^ 8
  else if off = R.LG_PGIDX ∨ off = R.LG_BSGIDX then s.index r a
  else if off = R.LG_PGENT then s.page d (s.index r (dieAddr d R.LG_PGIDX))
  else if off = R.LG_BSGENT then (tget s.groups (d * 2048 + s.index r (dieAddr d R.LG_BSGIDX)) 0).toNat
  else s.reg a

/-- The value of the register at a location: what its state gives, WO fields reading 0 (R11), 0 where no register stands (R14). -/
def State.view (s : State) (r : Requester) (l : Loc) : Nat :=
  match l.row with
  | none => 0
  | some w =>
    let v := match l with
      | .die d off => s.dieView r d off
      | .dock d k off => s.dockView d k off
      | .slot d k n off => match s.berthIn d k n with
        | some x => s.slotView x off
        | none => s.reg (dockAddr d k (0x8000 + 0x400 * n + off))
      | .quay q off => s.quayView r q off
    v % 2 ^ 32 &&& w.mask [.rw, .ro, .w1c, .w1s, .rc, .sh, .st]

/-- Key of the latch that a requester keeps for the high register at an address (R26). -/
def latchKey (r : Requester) (a : Nat) : Nat := a * 16 + reqKey r

/-- The pairs of R27: the high register of a low register's location. -/
def Loc.high : Loc → Option Nat
  | .die d off =>
    if off = R.HB_TIMELO then some (dieAddr d R.HB_TIMEHI)
    else if d = 0 ∧ off = R.KP_CALTIME then some R.KP_CALDATE
    else if d = 0 ∧ off = R.GP_GLTSLO then some R.GP_GLTSHI
    else none
  | .dock d k off => if off = R.DK_SLOTST0 then some (dockAddr d k R.DK_SLOTST1) else none
  | .slot _ _ _ _ => none
  | .quay q off =>
    if off = R.QY_TXTSLO then some (quayAddr q R.QY_TXTSHI)
    else if off = R.QY_RXTSLO then some (quayAddr q R.QY_RXTSHI)
    else none

/-- What a read of a high register returns to a requester: its latch, or the live value before its first read of the low one (R26). -/
def State.readHigh (s : State) (r : Requester) (a : Nat) : Nat :=
  match tfind s.latches (latchKey r a) with
  | some v => v
  | none => match locate s.part a with
    | some l => s.view r l
    | none => 0

/-- Rank of a requester among writes of one HIC register in one cycle (R403): deputy, then harbourmaster, then JTAG; an endpoint has none. -/
def reqRank : Requester → Nat
  | .ep _ => 0
  | .deputy _ => 1
  | .master => 2
  | .jtag => 3

/-- The stored fields of a row after a write of v over old: RW fields take it, W1C fields lose the bits written 1 (R11); kept names
WO fields that hold a value for a later command, held the bits that hardware sets in the same cycle (R12). -/
def RegRow.write (w : RegRow) (old v : Nat) (kept : Bool) (held : Nat) : Nat :=
  let clr := v - (v &&& held)
  w.fields.foldl (fun x f => match f.acc with
    | .rw => putBits x f.hi f.lo (bitsOf v f.hi f.lo)
    | .wo => if kept then putBits x f.hi f.lo (bitsOf v f.hi f.lo) else x
    | .w1c => putBits x f.hi f.lo (bitsOf old f.hi f.lo - (bitsOf old f.hi f.lo &&& bitsOf clr f.hi f.lo))
    | _ => x) old

/-- One aligned word of a register access; false for a narrower or a misaligned one (R10). -/
def wordAccess (a size : Nat) : Bool := decide (a % 4 = 0 ∧ size = 4)

/-- Pass an aligned word write of a row of its own to what it does; a narrower or misaligned one is discarded (R10). -/
def State.onWrite (s : State) (r : Requester) (a : Nat) (f : State → State) : State :=
  match s.gate r a true with
  | (none, t) => t
  | (some _, t) => (f t).respond .done

/-- Run an update that can change the level condition of several HIC sources of die d (R400). -/
def State.withLevels (s : State) (d : Nat) (srcs : List Nat) (f : State → State) : State :=
  srcs.foldl (fun (t : State) n => if !s.hicLevel d n && t.hicLevel d n then t.hicSet d n else t) (f s)

end Sys2Proof.Machine
end

