-- ==== Sys2Proof/Machine/Registers.lean ====
section
/-! DEFINITION. Commands that read and write harbour registers and the cellar from outside: plain register writes, reads with a side
effect, timers, HIC, ledger fences, BAR2, the patrol and live row repair (R10 to R12, R26, R42, R61 to R66, R80, R389, R395,
R401, R405, R439, R442). -/

namespace Sys2Proof.Machine

/-- Registers whose writes have a row of their own in the command table. -/
def Loc.special : Loc → Bool
  | .die d off =>
    decide (off = R.LG_FENCE ∨ off = R.HIC_EOI ∨ (0x10000 ≤ off ∧ off < 0x10080) ∨ off = R.PW_MODE ∨ off = R.MS_EXTGO ∨
      (0x30100 ≤ off ∧ off < 0x30500 ∧ off % 16 ≠ 0)) ||
    (decide (d = 0) && decide (off = R.HT_GO ∨ off = R.HB_WDOG ∨ off = R.KP_CALCTL ∨ off = R.KP_SHUT ∨
      (R.GP_OUTLO ≤ off ∧ off ≤ R.GP_OEHI) ∨ (0x40100 ≤ off ∧ off < 0x401C0) ∨
      (0x1000 ≤ off ∧ off < 0x2000 ∧
        (off % 0x800 = 0 ∨ off % 0x800 = 0x1C ∨ (0x100 ≤ off % 0x800 ∧ (off % 0x20 = 0xC ∨ off % 0x20 = 0x1C))))))
  | .dock _ _ off => decide (off = R.MC_CTL ∨ off = R.MC_LADDR ∨ off = R.MC_LDATA2 ∨ off = R.MC_LEND)
  | .slot _ _ _ _ => false
  | .quay _ off => decide (off = R.QY_INJSEED ∨ off = R.QY_FAILOVER)

/-- Registers whose WO fields hold a value for a later command (R571, R580). -/
def Loc.keeps : Loc → Bool
  | .die _ off => decide (R.MS_EXTDATA ≤ off ∧ off < R.MS_EXTGO)
  | .dock _ _ off => decide (off = R.MC_LDATA0 ∨ off = R.MC_LDATA1)
  | _ => false

/-- A base or size register of an endpoint's ring block (R450). -/
def ringSetup (off : Nat) : Bool :=
  decide (0x1000 ≤ off ∧ off < 0x2000) && !(decide (off % 0x800 = 0))

/-- Write the stored value of a location; a slot's registers belong to the berth it holds. -/
def State.storeReg (s : State) (l : Loc) (a v : Nat) : State :=
  match l with
  | .slot d k n off => match s.berthIn d k n with
    | some x => s.setBerth (x.setReg off v)
    | none => s.setReg a v
  | _ => s.setReg a v

/-- The stored value of a location. -/
def State.stored (s : State) (l : Loc) (a : Nat) : Nat :=
  match l with
  | .slot d k n off => match s.berthIn d k n with
    | some x => x.reg off
    | none => s.reg a
  | _ => s.reg a

/-- A descriptor from its two registers. -/
def Desc.ofWords (a b : Nat) : Desc :=
  { base := bitsOf a 22 0 * 64, limit := bitsOf b 15 0, r := bitOf b 16, w := bitOf b 17, x := bitOf b 18, shared := bitOf b 19 }

/-- Write half a descriptor of the berth in a slot (BM_DESCnA, BM_DESCnB): the other half is that of the descriptor last written (R129). -/
def Berth.writeDesc (x : Berth) (off v : Nat) : Berth :=
  let n := (off - 0x100) / 8
  let w := (((x.segDefs.reverse.find? (fun e => decide (e.1 % 16 = n % 16))).map (·.2)).getD (x.side.descN n)).words
  let e := if off % 8 = 0 then Desc.ofWords v w.2 else Desc.ofWords w.1 v
  if x.started then { x with segDefs := x.segDefs ++ [(n, e)] }
  else { x with side := { x.side with desc := x.side.desc.set (⟨n % 16, Nat.mod_lt _ (by decide)⟩ : Fin 16) e } }

/-- A write of HT_nCTL at address a leaves new: EN stays 1 in the count of the timer's release (R398), and a timer whose EN is written 0 ends its
run of follow-on steps (R388). -/
def State.writeHtCtl (s : State) (a new : Nat) : State :=
  let v := new ||| (s.setNow a &&& 1)
  { s.setReg a v with follow := if bitOf v 0 then s.follow else s.follow.filter (· ≠ a) }

/-- A write of a HIC register takes effect unless a later-ranked requester has written it in the same count (R403). -/
def State.hicOrder (s : State) (r : Requester) (a : Nat) (f : State → State) : State :=
  if 0x10000 ≤ a % 0x800000 ∧ a % 0x800000 < 0x20000 ∧ reqRank r ≠ 0 then
    if reqRank r < tget s.cyc.wrote a 0 then s
    else
      let t := f s
      { t with cyc := { t.cyc with wrote := tput t.cyc.wrote a (reqRank r) 0 } }
  else f s

/-- A plain register write by access code (R11), with what the register stands for. -/
def State.plainWrite (s : State) (r : Requester) (l : Loc) (a v : Nat) : State :=
  match l.row with
  | none => s
  | some w =>
    let old := s.stored l a
    let new := w.write old v l.keeps (s.setNow a)
    match l with
    | .die d off =>
      if off = R.LG_PGIDX then { s with latches := tput s.latches (a * 16 + reqKey r) (v % 16384) 0 }
      else if off = R.LG_BSGIDX then { s with latches := tput s.latches (a * 16 + reqKey r) (v % 2048) 0 }
      else if off = R.LG_PGENT then s.setPage d (s.index r (dieAddr d R.LG_PGIDX)) v
      else if off = R.LG_BSGENT then
        { s with groups := tput s.groups (d * 2048 + s.index r (dieAddr d R.LG_BSGIDX)) (w32 (v % 2 ^ 30)) 0 }
      else if 0x10080 ≤ off ∧ off < 0x10100 then
        let g := (off - 0x10080) / 4
        let rise := v &&& s.reg (dieAddr d (R.HIC_PEND + 4 * g)) &&& (2 ^ 32 - 1 - old % 2 ^ 32)
        (s.setReg a new).hicSettle d g (popcount 32 rise)
      else if 0x10100 ≤ off ∧ off < 0x10180 then (s.setReg a new).hicModer d ((off - 0x10100) / 4) 0 true
      else if 0x30100 ≤ off ∧ off < 0x30500 then s.writeHtCtl a new
      else if d = 0 ∧ ringSetup off ∧ s.flag (0x1000 + (off - 0x1000) / 0x800 * 0x800) 0 then s
      else if d = 0 ∧ off / 0x1000 = 9 ∧ s.part.endpoints < 2 then s
      else if d = 0 ∧ 0x1800 ≤ off ∧ off < 0x2000 ∧ s.part.endpoints < 2 then s
      else if d = 0 ∧ ((0x8000 ≤ off ∧ off < 0x8400) ∨ (0x9000 ≤ off ∧ off < 0x9400)) ∧ off % 16 = 12 then
        let e := off / 0x1000 - 8
        let n := off % 0x400 / 16
        let pba := 0x8400 + 0x1000 * e + 4 * (n / 32)
        let t := s.setReg a new
        if bitOf old 0 && !bitOf new 0 && t.flag pba (n % 32) then (t.setFlag pba (n % 32) false).sendVec e n else t
      else if d = 0 ∧ off = R.PW_THPOL then
        (List.range s.part.dies).foldl (fun (t : State) k =>
          if !s.hicLevel k 427 && t.hicLevel k 427 then t.hicSet k 427 else t) (s.setReg a new)
      else if d = 0 ∧ (off = R.GP_EVTLO ∨ off = R.GP_EVTHI) then
        s.setReg a (new ||| bits32 (fun n => (off = R.GP_EVTLO || n < 16) && s.pinHolds (n + (if off = R.GP_EVTLO then 0 else 32))))
      else if d = 0 ∧ R.GP_FAN ≤ off ∧ off ≤ R.GP_REFOUT then s.withPads (fun t => t.setReg a new)
      else if d = 0 ∧ R.LG_PIN ≤ off ∧ off < R.LG_PIN + 192 then
        s.withLevel 0 (448 + (off - R.LG_PIN) / 4) (fun t => t.setReg a new)
      else s.setReg a new
    | .slot d k n off => match s.berthIn d k n with
      | some x => if 0x100 ≤ off ∧ off < 0x180 then s.setBerth (x.writeDesc off v) else s.storeReg l a new
      | none => s.setReg a new
    | .quay q off =>
      if off = R.QY_STIDX then { s with latches := tput s.latches (a * 16 + reqKey r) (v % 1024) 0 }
      else if 0x44 ≤ off ∧ off < 0x74 then
        let n := s.index r (quayAddr q R.QY_STIDX)
        let i := (off - 0x44) / 4
        s.setEntry q n (fun e => e.set i (v % 2 ^ 32 &&& entryMask n i))
      else s.withLevel (quayDie q) (402 + q % 18) (fun t => t.setReg a new)
    | .dock _ _ _ => s.setReg a new

/-- REGISTER_WRITE: a write of a harbour register that has no row of its own, at harbour time at_ (R10, R11, R14, R81). -/
def execRegisterWrite (r : Requester) (a size v at_ : Nat) (s : State) : Answer :=
  .next (
    let u := s.at at_
    match u.gate r (a / 4 * 4) true with
    | (none, t) => t
    | (some l, t) =>
      if !wordAccess a size then t.respond .done
      else if l.special then t
      else (t.hicOrder r a (fun w => w.plainWrite r l a v)).respond .done)

/-- The bytes of a read of size bytes from address a, inside one register whose value is v (R10). -/
def readBytes (a size v : Nat) : Nat :=
  let lo := 8 * (a % 4)
  bitsOf v (lo + 8 * size - 1) lo * 2 ^ lo

/-- The read lies in one register (R10). -/
def inOneWord (a size : Nat) : Bool := decide (0 < size ∧ a % 4 + size ≤ 4)

/-- Run a read of size bytes at address a, whose register f answers with its value and the state it leaves (R10, R46). -/
def State.onRead (s : State) (r : Requester) (a size : Nat) (f : Loc → State → Nat × State) : State :=
  if !s.hasReq r then s
  else if !s.enters r a false then s.respond .unsupported
  else if !inOneWord a size then s.absent r a .read
  else match s.gate r (a / 4 * 4) false with
    | (none, t) => t
    | (some l, t) => let z := f l t; z.2.respond (.data (readBytes a size z.1))

/-- PAIR_LOW_READ: the low register of a pair is read, and the requester's latch takes the high one (R26, R27). -/
def execPairLowRead (r : Requester) (a size at_ : Nat) (s : State) : Answer :=
  .next (
    let u := s.at at_
    match (locate u.part (a / 4 * 4)).bind Loc.high with
    | none => u
    | some h => u.onRead r a size (fun l t =>
      let hi := match locate t.part h with
        | some m => t.view r m
        | none => 0
      (t.view r l, { t with latches := tins t.latches (latchKey r h) hi })))

/-- A read clears bits [hi:lo] of the register at an address when it addresses a byte of them (R10, RC of R11). -/
def rcHit (a size hi lo : Nat) : Bool := decide (8 * (a % 4) ≤ hi ∧ lo < 8 * (a % 4 + size))

/-- A read of size bytes from byte off of the register at an address clears its RC field [hi:lo], but in a cycle in which hardware sets a bit of it
(R10, R11, R12). -/
def State.clearRc (s : State) (a off size hi lo : Nat) : State :=
  if rcHit off size hi lo && decide (bitsOf (s.setNow a) hi lo = 0) then s.setFld a hi lo 0 else s

/-- Answer an access to a register of dock k; a part has no seventeenth dock. -/
def onDockReg (k : Nat) (a : State) : Answer :=
  if k < 16 then .next a else .fault (.noSuchUnit "dock")

/-- DP_LOAD_READ: byte off of DP_LOAD of dock k of die d is read; PEAK clears (R10, R252). -/
def execDpLoadRead (r : Requester) (d k off size at_ : Nat) (s : State) : Answer :=
  onDockReg k (
    let u := s.at at_
    let a := dockAddr d k R.DP_LOAD
    u.onRead r (a + off % 4) size (fun l t =>
      (t.view r l, t.clearRc a (off % 4) size 26 16)))

/-- PW_TJ_READ: byte off of PW_TJ of die d is read; PEAK clears (R10, R542). -/
def execPwTjRead (r : Requester) (d off size at_ : Nat) (s : State) : Answer :=
  .next (
    let u := s.at at_
    let a := dieAddr d R.PW_TJ
    u.onRead r (a + off % 4) size (fun l t =>
      (t.view r l, t.clearRc a (off % 4) size 15 8)))

/-- QY_TIMESTAMP_POP: a read of QY_TXTSHI or QY_RXTSHI returns the latched value and removes the oldest stamp (R26, R27, R439). -/
def execQyTimestampPop (r : Requester) (q : Nat) (tx : Bool) (at_ : Nat) (s : State) : Answer :=
  .next (
    let u := s.at at_
    let a := quayAddr q (if tx then R.QY_TXTSHI else R.QY_RXTSHI)
    u.onRead r a 4 (fun _ t =>
      (t.readHigh r a, t.modQuay q (fun k => if tx then { k with txts := k.txts.drop 1 } else { k with rxts := k.rxts.drop 1 }))))

/-- Write a register with a row of its own: what f does where the access reaches it. -/
def State.rowWrite (s : State) (r : Requester) (a at_ : Nat) (f : State → State) : State :=
  let u := s.at at_
  match u.gate r a true with
  | (none, t) => t
  | (some _, t) => (f t).respond .done

/-- Answer a write of a register of endpoint e's ring block: the block of an endpoint that the part does not have holds nothing. -/
def State.onEpReg (s : State) (e : Nat) (r : Requester) (a at_ : Nat) (u : State) : Answer :=
  if e < s.part.endpoints then .next u else .next (s.rowWrite r a at_ id)

/-- HT_GO: a write of HT_GO: GO schedules a release; LATE and NOREACH clear where written 1 (R395, R397). -/
def execHtGo (r : Requester) (v at_ : Nat) (s : State) : Answer :=
  .next (s.rowWrite r R.HT_GO at_ (fun u =>
    let clr := v - (v &&& u.setNow R.HT_GO)
    let c := u.setReg R.HT_GO (u.reg R.HT_GO - (u.reg R.HT_GO &&& clr &&& 0x18))
    if !bitOf v 0 ∨ u.htT.isSome then c
    else
      let tw := u.now
      if bitOf v 1 then
        let t := u.reg R.HT_GOTLO + u.reg R.HT_GOTHI * 2 ^ 32
        if t < tw + 4096 then c.setFlag R.HT_GO 3 true else { c with htT := some t }
      else { c with htT := some ((tw + 4096 + 1023) / 1024 * 1024) }))

/-- HT_VALUE_WRITE: CNT, CMP or INT (fld 0, 1, 2) of timer n of die d is written in a step of its own (R386, R389). -/
def execHtValueWrite (r : Requester) (d n fld v at_ : Nat) (s : State) : Answer :=
  .next (
    let a := dieAddr d (0x30100 + 16 * (n % 64))
    let u := s.at (at_ - 1)
    match u.gate r (a + 4 + 4 * (fld % 3)) true with
    | (none, t) => t
    | (some _, t) => (t.tickWith (some (a, ⟨fld % 3, w32 v⟩))).respond .done)

/-- HIC_PEND_WRITE: HIC_PENDg is replaced by the value written; hw names the bits that hardware sets in the same cycle, which stay 1 (R401). A
bit that rises while enabled is a held event (R406). -/
def execHicPendWrite (r : Requester) (d g v hw at_ : Nat) (s : State) : Answer :=
  .next (
    let a := dieAddr d (R.HIC_PEND + 4 * (g % 32))
    s.rowWrite r a at_ (fun u => u.hicOrder r a (fun u =>
      let old := u.reg a
      let new := (v ||| hw ||| u.setNow a) % 2 ^ 32
      let rise := new &&& u.reg (dieAddr d (R.HIC_EN + 4 * (g % 32))) &&& (2 ^ 32 - 1 - old)
      ((u.noteWake d (((List.range 32).filter (fun i => bitOf (v ||| hw) i)).map (· + 32 * (g % 32)))).setReg a new).hicSettle d (g % 32) (popcount 32 rise))))

/-- HIC_EOI: the source is sampled again (R405). -/
def execHicEoi (r : Requester) (d v at_ : Nat) (s : State) : Answer :=
  .next (s.rowWrite r (dieAddr d R.HIC_EOI) at_ (fun u => u.hicEoi d (v % 1024)))

/-- LEDGER_FENCE: START starts a fence, and DONE reads 0 until LEDGER_FENCE_DONE (R80). -/
def execLedgerFence (r : Requester) (d v at_ : Nat) (s : State) : Answer :=
  .next (
    let a := dieAddr d R.LG_FENCE
    s.rowWrite r a at_ (fun u => if bitOf v 0 then u.setFlag a 1 false else u))

/-- LEDGER_FENCE_DONE: every access admitted before the fence has completed (R80). -/
def execLedgerFenceDone (d at_ : Nat) (s : State) : Answer :=
  s.onDie d (.next ((s.at at_).setFlag (dieAddr d R.LG_FENCE) 1 true))

/-- QY_INJSEED_WRITE: the seed is written and the selector's LFSR takes it (R442). -/
def execQyInjseedWrite (r : Requester) (q v at_ : Nat) (s : State) : Answer :=
  .next (
    let a := quayAddr q R.QY_INJSEED
    s.rowWrite r a at_ (fun u => (u.setReg a v).modQuay q (fun k =>
      { k with lfsr := if v % 2 ^ 32 = 0 then 1 else v % 2 ^ 32 })))

/-- The words that n bytes from a BAR2 offset touch, as package word addresses. -/
def barWords (off n : Nat) : List Nat :=
  if n = 0 then [] else (List.range ((off + n - 1) / 2 - off / 2 + 1)).map (fun i => off / 2 + i)

/-- The first die of the words of a host access that no fabric route reaches from the endpoint's die (R20). -/
def State.unreached (s : State) (d : Nat) (ws : List Nat) : Option Nat :=
  (ws.map (fun w => w / 2 ^ 29)).find? (fun b => s.hasDie b && !s.reaches d b)

/-- The first word of a list that the ledger denies a host access, with its record's TARGET and REASON (R84). -/
def State.firstDenied (s : State) (m : Master) (k : Kind) (ws : List Nat) : Option (Nat × Nat × Nat) :=
  ws.findSome? (fun w => (s.ledgerCheck 0 (w / 2 ^ 29) (w % 2 ^ 29) m k).map (fun e => (w, e.1, e.2)))

/-- The die that logs a denial of package word w: its own, or for a die that the part does not have the one that received the access (R85,
R617). -/
def State.logDie (s : State) (w md : Nat) : Nat := if s.hasDie (w / 2 ^ 29) then w / 2 ^ 29 else md

/-- A requester may access the cellar: an endpoint that takes memory requests, a harbour core that has not halted, or JTAG while the package is on. -/
def State.cellarUp (s : State) (r : Requester) : Bool :=
  match r with
  | .ep e => s.hostUp e
  | .deputy d => decide (s.keeper.phase = .on) && !s.deputyHalted d
  | .master => decide (s.keeper.phase = .on) && !s.hmHalt
  | .jtag => decide (s.keeper.phase = .on)

/-- What a requester sees of a cellar access that is denied or reaches nothing (Table 2-6). -/
def refusalOf : Requester → BusResp
  | .ep _ => .unsupported
  | .jtag => .jtagDenied
  | _ => .busFault

/-- What a requester sees of a read that returns poisoned data v (Table 2-6). -/
def poisonOf (v : Nat) : Requester → BusResp
  | .ep _ => .poisoned
  | .jtag => .jtagPoison v
  | _ => .busFault

/-- HOST_CELLAR_READ: n bytes of the cellar from byte address off are read, by the host through BAR2 of an endpoint, a harbour core or JTAG (R42, R43, R84):
data, or what Table 2-6 gives on a denial, on poisoned data and where no fabric route is left (R20, assumption log 129). The bank is read word by
word: an ECC word is checked once for each word of it that the request covers (assumption log 130). -/
def execHostCellarRead (r : Requester) (off n at_ : Nat) (s : State) : Answer :=
  .next (
    let u := s.at at_
    let m : Master := { cls := reqClass r }
    if !u.hasReq r then u
    else if !u.cellarUp r ∨ 8589934592 < off + n then u.respond (refusalOf r)
    else
      let ws := barWords off n
      match u.unreached (reqDie r) ws with
      | some b => (u.fabricLost (reqDie r) b).respond (refusalOf r)
      | none => match u.firstDenied m .read ws with
      | some (w, t, c) => (u.logViol (u.logDie w (reqDie r)) m .read t c w).respond (refusalOf r)
      | none =>
        let z := ws.foldl (fun (acc : List Nat × Bool × State) w =>
          match acc.2.2.bankRead (w / 2 ^ 29) (w % 2 ^ 29) m with
          | (.ok x, t) => (acc.1 ++ [x.toNat], acc.2.1, t)
          | (.poison, t) => (acc.1 ++ [0], true, t)) ([], false, u)
        let v := ofLe ((z.1.flatMap (fun x => leBytes 2 x)).drop (off % 2) |>.take n)
        z.2.2.respond (if z.2.1 then poisonOf v r else .data v))

/-- The byte of a BAR2 write at byte offset a, none where it is not enabled. -/
def byteAt (off : Nat) (bytes : List (Option Byte)) (a : Nat) : Option Byte := if a < off then none else bytes.getD (a - off) none

/-- Write the enabled bytes of a BAR2 write into word w; a word with one byte enabled keeps the other (R42). -/
def State.writeBytes (s : State) (off : Nat) (bytes : List (Option Byte)) (w : Nat) : State :=
  let b0 := byteAt off bytes (2 * w)
  let b1 := byteAt off bytes (2 * w + 1)
  let old := s.word w
  if b0.isNone && b1.isNone then s
  else s.putWord w (w16 ((b0.getD (BitVec.ofNat 8 old.toNat)).toNat + 256 * (b1.getD (BitVec.ofNat 8 (old.toNat / 256))).toNat))

/-- Write the enabled bytes of a BAR2 write, one ECC word at a time: an ECC word that is not written whole is merged once (R42, R59). -/
def State.writeWords (s : State) (m : Master) (off : Nat) (bytes : List (Option Byte)) (ws : List Nat) : State :=
  (ws.map (fun w => w / 4)).eraseDups.foldl (fun (t : State) k =>
    let on := (List.range 8).filter (fun i => (byteAt off bytes (8 * k + i)).isSome)
    if on.isEmpty then t
    else
      let t1 := if on.length = 8 then { t with ecc := tdel t.ecc (pkgWord (k * 4 / 2 ^ 29) (k * 4 % 2 ^ 29) / 4) }
        else t.mergeRead (k * 4 / 2 ^ 29) (k * 4 % 2 ^ 29) m
      (List.range 4).foldl (fun (u : State) i => u.writeBytes off bytes (4 * k + i)) t1) s

/-- HOST_CELLAR_WRITE: bytes of the cellar from byte address off are written, by the host through BAR2 of an endpoint, a harbour core or JTAG; none is a
byte not enabled. Every word is checked before any is written (R42, R43, R84). -/
def execHostCellarWrite (r : Requester) (off : Nat) (bytes : List (Option Byte)) (at_ : Nat) (s : State) : Answer :=
  .next (
    let u := s.at at_
    let m : Master := { cls := reqClass r }
    if !u.hasReq r then u
    else if !u.cellarUp r ∨ 8589934592 < off + bytes.length then u.respond (refusalOf r)
    else
      let ws := barWords off bytes.length
      match u.unreached (reqDie r) ws with
      | some b => (u.fabricLost (reqDie r) b).respond (refusalOf r)
      | none => match u.firstDenied m .write ws with
      | some (w, t, c) => (u.logViol (u.logDie w (reqDie r)) m .write t c w).respond (refusalOf r)
      | none => (u.writeWords m off bytes ws).respond .done)

/-- A page is marked RETIRED once nothing holds it, and a record reports it (R66). -/
def State.settleRetire (s : State) : State :=
  s.retire.foldl (fun (t : State) e =>
    if pageState (t.page e.1 e.2) = 0 then
      ({ t with retire := t.retire.erase e }.setPage e.1 e.2 (putBits (t.page e.1 e.2) 30 28 5)).recordTest e.1 6 e.2 3 255 0 (e.2 * 32768)
    else t) s

/-- The die-local word address of word w of line n of a bank (Table 2-1). -/
def lineAddr (bank n w : Nat) : Nat := bank / 8 * 2 ^ 26 + n / 128 * 2 ^ 15 + n % 128 * 256 + bank % 8 * 32 + w

/-- An upset strikes an ECC word: kind 0 one bit, 1 two bits, else three or more. -/
def State.upset (s : State) (d wa kind bit : Nat) : State :=
  let k := pkgWord d wa / 4
  let e : EccErr := match kind with
    | 0 => .single (bit % 72)
    | 1 => .double
    | _ => .multi
  let old := tfind s.ecc k
  let new : EccErr := match old, e with
    | none, _ => e
    | some (.single a), .single b => if a = b then .single a else .double
    | some .poison, _ => .poison
    | some _, _ => .multi
  let gone := match old, e with
    | some (.single a), .single b => decide (a = b)
    | _, _ => false
  if gone then { s with ecc := tdel s.ecc k } else { s with ecc := tins s.ecc k new }

/-- PATROL_SCRUB_READ: an upset may strike the cellar, and then bank b of die d reads its next line (R57, R58, R61, R64). A new pass starts the
row counts again. -/
def execPatrolScrubRead (d b : Nat) (up : Option (Nat × Nat × Nat)) (at_ : Nat) (s : State) : Answer :=
  s.onDie d (.next (
    let bank := b % 64
    let u := match up with
      | some (wa, kind, bit) => (s.at at_).upset d wa kind bit
      | none => s.at at_
    let on := u.flag (dieAddr d R.ST_ECCCFG) 8 && u.bankOn d (lineAddr bank 0 0) &&
      !(u.repairing.any (fun e => decide (e.1 = d ∧ e.2.1 = bank)))
    if !on then u
    else
      let n := tget u.patrol (d * 64 + bank) 0
      let u1 := if n = 0 then
          { u with rowCe := u.rowCe.filter (fun e => decide (e.1 / 2048 ≠ d * 64 + bank)) }
        else u
      let u2 := (List.range 8).foldl (fun (t : State) i => (t.eccRead d (lineAddr bank n (4 * i)) true 15 0).2) u1
      { u2 with patrol := tput u2.patrol (d * 64 + bank) ((n + 1) % 262144) 0 }.settleRetire))

/-- PENDING of a bank while a row of it is queued or being copied (ST_REPAIRn). -/
def State.settlePending (s : State) (d bank : Nat) : State :=
  s.setFlag (dieAddr d (R.ST_REPAIR + 4 * bank)) 16 ((s.repairQ ++ s.repairing).any (fun z => decide (z.1 = d ∧ z.2.1 = bank)))

/-- ROW_REPAIR_START: the next queued repair of a bank starts (Table 2-2 step 1): the patrol pauses and writes go to both rows. A row for which no spare row
is left is not repaired (R66). -/
def execRowRepairStart (d b at_ : Nat) (s : State) : Answer :=
  s.onDie d (.next (
    let u := s.at at_
    let bank := b % 64
    let busy := u.repairing.any (fun e => decide (e.1 = d ∧ e.2.1 = bank))
    match u.repairQ.find? (fun e => decide (e.1 = d ∧ e.2.1 = bank)) with
    | some e =>
      if busy then u
      else if 32 ≤ u.fld (dieAddr d (R.ST_REPAIR + 4 * bank)) 5 0 then
        (({ u with repairQ := u.repairQ.erase e }.queueRepair d bank e.2.2).settlePending d bank).settleRetire
      else { u with repairQ := u.repairQ.erase e, repairing := u.repairing ++ [e] }
    | none => u))

/-- The copy of one ECC word through the ECC logic (Table 2-2): a single-bit error is corrected, an uncorrectable word takes the poison syndrome; an error of
three or more bits takes one of the outcomes of R56, as an open value (assumption log 9). The copy neither counts nor logs what it meets (assumption log
131). -/
def State.copyEcc (s : State) (d wa : Nat) : State :=
  let k := pkgWord d wa / 4
  match tfind s.ecc k with
  | none => s
  | some (.single _) => { s with ecc := tdel s.ecc k }
  | some .multi =>
    let (v, s1) := s.draw
    if v % 3 = 0 then { s1 with ecc := tins s1.ecc k .poison }
    else
      let (f, s2) := s1.draw
      { s2.flipWords d wa ((List.range 64).filter (fun n => bitOf f n)) with ecc := tdel s2.ecc k }
  | some _ => { s with ecc := tins s.ecc k .poison }

/-- The copy of a row into its spare row (Table 2-2 step 2). -/
def State.copyRow (s : State) (d bank row : Nat) : State :=
  ((s.ecc.map (·.1)).filter (fun k =>
    decide (k * 4 / 2 ^ 29 = d ∧ bankOf (k * 4 % 2 ^ 29) = bank ∧ rowOf (k * 4 % 2 ^ 29) = row))).foldl (fun (t : State) k =>
      t.copyEcc d (k * 4 % 2 ^ 29)) s

/-- ROW_REPAIR_DONE: the copy is complete and the spare row takes over: USED counts, PENDING clears unless another row of the bank waits
(R66, Table 2-2 step 3). -/
def execRowRepairDone (d b at_ : Nat) (s : State) : Answer :=
  s.onDie d (.next (
    let u := s.at at_
    let bank := b % 64
    match u.repairing.find? (fun e => decide (e.1 = d ∧ e.2.1 = bank)) with
    | some e =>
      let t := { u.copyRow d bank e.2.2 with
        repairing := u.repairing.erase e, newRepairs := u.newRepairs ++ [(d, bank, e.2.2, u.freeSpare d bank, 3)] }
      (t.countSpare d bank).settlePending d bank
    | none => u))

end Sys2Proof.Machine
end

