-- ==== Sys2Proof/Machine/HostRings.lean ====
section
/-! DEFINITION. The PCIe endpoints and their rings: enabling, doorbells, resets, link state, and the events that summarise counts (R445 to R455,
R461, R481). -/

namespace Sys2Proof

/-- Bytes off to off + n − 1 of a command, little-endian (Table 13-3). -/
def Cmd.p (c : Cmd) (off n : Nat) : Nat := Machine.ofLe (Machine.sliceD c.entry off n 0)

/-- One byte of a command. -/
def Cmd.b (c : Cmd) (off : Nat) : Nat := c.p off 1

/-- OPCODE (Table 13-3). -/
def Cmd.opcode (c : Cmd) : Nat := c.p 0 1

/-- FLAGS. -/
def Cmd.flags (c : Cmd) : Nat := c.p 1 1

/-- CID, the command identifier. -/
def Cmd.cid (c : Cmd) : Nat := c.p 2 2

/-- BERTH, all 16 bits. -/
def Cmd.berth (c : Cmd) : Nat := c.p 4 2

/-- DPTR, the host address of the data block. -/
def Cmd.dptr (c : Cmd) : Nat := c.p 8 8

/-- DLEN, the length of the data block. -/
def Cmd.dlen (c : Cmd) : Nat := c.p 16 4

/-- The 40 parameter bytes. -/
def Cmd.params (c : Cmd) : List Byte := c.entry.drop 24

/-- Bytes of a command's data block, as a number. -/
def Cmd.d (c : Cmd) (off n : Nat) : Nat := Machine.ofLe (Machine.sliceD c.data off n 0)

end Sys2Proof

namespace Sys2Proof.Machine

/-- n is a power of two from lo to hi. -/
def pow2In (n lo hi : Nat) : Bool := decide (lo ≤ n ∧ n ≤ hi ∧ 2 ^ Nat.log2 n = n)

/-- Ring pair n of endpoint e meets the checks of R450, or is unused. -/
def State.ringOk (s : State) (e n : Nat) : Bool :=
  let b := ringBase e + 0x100 + 0x20 * n
  let sq := s.fld (b + 8) 12 0
  let cq := s.fld (b + 0x18) 12 0
  decide (sq = 0) ||
    (pow2In sq 2 4096 && pow2In cq 16 4096 && decide (s.reg b % 64 = 0 ∧ s.reg (b + 0x10) % 16 = 0 ∧ sq ≤ cq))

/-- The event ring of endpoint e meets the checks of R450, or is unused. -/
def State.evRingOk (s : State) (e : Nat) : Bool :=
  let n := s.fld (ringBase e + 0x18) 12 0
  decide (n = 0) || (pow2In n 16 4096 && decide (s.reg (ringBase e + 0x10) % 64 = 0))

/-- Clear the CFGERR and DBERR bits of HB_HOSTCTL that v has set (R11). -/
def State.clearHostErr (s : State) (e v : Nat) : State :=
  s.setReg (ringBase e) (s.reg (ringBase e) - (s.reg (ringBase e) &&& v &&& 12))

/-- Every head and tail index of endpoint e is 0, and the phase bits start again (R450, R454). -/
def State.zeroRings (s : State) (e : Nat) : State :=
  let t := s.modEp e (fun x =>
    { x with rings := x.rings.map (fun r => { waiting := r.waiting }), evIdx := 0, evHead := 0, evPhase := true, subs := [] })
  (List.range 8).foldl (fun (u : State) n =>
    (u.setReg (ringBase e + 0x10C + 0x20 * n) 0).setReg (ringBase e + 0x11C + 0x20 * n) 0) (t.setReg (ringBase e + 0x1C) 0)

/-- HOST_RING_ENABLE: a write of HB_HOSTCTL with EN = 1: the rings of endpoint e are checked and enabled, or CFGERR is set (R450). -/
def execHostRingEnable (r : Requester) (e v at_ : Nat) (s : State) : Answer :=
  s.onEpReg e r (ringBase e) at_ (s.rowWrite r (ringBase e) at_ (fun u =>
    if !bitOf v 0 then u
    else
      let t := u.clearHostErr e v
      if t.flag (ringBase e) 0 then t
      else if (List.range 8).all (fun n => t.ringOk e n) && t.evRingOk e then (t.zeroRings e).setFlag (ringBase e) 0 true
      else t.setFlag (ringBase e) 2 true))

/-- HOST_RING_DISABLE: a write of HB_HOSTCTL with EN = 0: fetching stops; commands that have started are completed (R450). -/
def execHostRingDisable (r : Requester) (e v at_ : Nat) (s : State) : Answer :=
  s.onEpReg e r (ringBase e) at_ (s.rowWrite r (ringBase e) at_ (fun u =>
    if bitOf v 0 then u else (u.clearHostErr e v).setFlag (ringBase e) 0 false))

/-- A doorbell write at address a of an index against a ring's size: the new index where it is inside the ring, else DBERR (R451). The write sets HIC source
496 of die 0 (Table 11-2). -/
def State.doorbell (s : State) (e a size v : Nat) (f : Nat → Endpoint → Endpoint) : State :=
  let i := v % 4096
  let t := s.hicSet 0 496
  if i < size then (t.setReg a i).modEp e (f i) else t.setFlag (ringBase e) 3 true

/-- Enter k entries of ring n that a doorbell at time t submits, after those of earlier doorbells, in ascending ring number among those of one cycle
(R455). -/
def submit (l : List (Nat × Nat)) (t n k : Nat) : List (Nat × Nat) :=
  l.filter (fun z => decide (z.1 < t ∨ z.2 ≤ n)) ++ List.replicate k (t, n) ++ l.filter (fun z => !decide (z.1 < t ∨ z.2 ≤ n))

/-- The entries submitted after a doorbell of ring n at time t that leaves k entries unread (R451, R455): the new ones come last, and where the tail has
passed a whole ring every unread entry is new. -/
def resubmit (l : List (Nat × Nat)) (t n k : Nat) : List (Nat × Nat) :=
  let old := (l.filter (fun z => decide (z.2 = n))).length
  if old ≤ k then submit l t n (k - old) else submit (l.filter (fun z => decide (z.2 ≠ n))) t n k

/-- SQ_TAIL_DOORBELL: a write of HB_SQnTAIL releases commands (R451). -/
def execSqTailDoorbell (r : Requester) (e n v at_ : Nat) (s : State) : Answer :=
  s.onEpReg e r (ringBase e + 0x10C + 0x20 * (n % 8)) at_ (
    let b := ringBase e + 0x100 + 0x20 * (n % 8)
    s.rowWrite r (b + 0xC) at_ (fun u =>
      let size := u.fld (b + 8) 12 0
      u.doorbell e (b + 0xC) size v (fun i x =>
        let q := x.rings.getD (n % 8) {}
        { x with
          rings := x.rings.set (n % 8) { q with tail := i }
          subs := resubmit x.subs u.htime (n % 8) ((i + size - q.head) % size) })))

/-- CQ_HEAD_DOORBELL: a write of HB_CQnHEAD frees completion entries (R454). -/
def execCqHeadDoorbell (r : Requester) (e n v at_ : Nat) (s : State) : Answer :=
  s.onEpReg e r (ringBase e + 0x11C + 0x20 * (n % 8)) at_ (
    let b := ringBase e + 0x100 + 0x20 * (n % 8)
    s.rowWrite r (b + 0x1C) at_ (fun u =>
      let t := u.doorbell e (b + 0x1C) (u.fld (b + 0x18) 12 0) v (fun i x =>
        { x with rings := x.rings.set (n % 8) { x.rings.getD (n % 8) {} with cqHead := i } })
      t.drainDone e (n % 8) ((t.ep e).rings.getD (n % 8) {}).waiting.length))

/-- EV_HEAD_DOORBELL: a write of HB_EVHEAD frees event entries, and events held are posted (R454, R461). -/
def execEvHeadDoorbell (r : Requester) (e v at_ : Nat) (s : State) : Answer :=
  s.onEpReg e r (ringBase e + 0x1C) at_ (
    let a := ringBase e + 0x1C
    s.rowWrite r a at_ (fun u =>
      (u.doorbell e a (u.fld (ringBase e + 0x18) 12 0) v (fun i x => { x with evHead := i })).drainHeld e 64))

/-- The registers of endpoint e that a Function Level Reset returns to their reset values: its ring block and MSI-X table (R446). -/
def epReg (e a : Nat) : Bool :=
  decide (ringBase e ≤ a ∧ a < ringBase e + 0x800) || decide (0x8000 + 0x1000 * e ≤ a ∧ a < 0x8408 + 0x1000 * e)

/-- The effect of a Function Level Reset of endpoint e (R446): rings and MSI-X table at reset, commands that have not started discarded, and
the completions of those that have. READY follows whether firmware serves. -/
def State.flr (s : State) (e : Nat) : State :=
  let x := s.ep e
  let t := { s with
    regs := s.regs.filter (fun z => !epReg e z.1)
    eps := s.eps.set e { link := x.link, perst := x.perst, d3hot := x.d3hot, training := x.training, cfg := x.cfg }
    flying := (s.flying.filter (fun (f : Flying) => !decide (f.cmd.ep = e ∧ f.why = Why.start))).map (fun (f : Flying) =>
      if f.cmd.ep = e then { f with cmd := { f.cmd with ep := 3 } } else f) }
  t.setFlag (ringBase e) 1 s.serving

/-- PCIE_D3HOT_ENTRY: the host places endpoint e in D3hot (R446). -/
def execPcieD3hotEntry (e at_ : Nat) (s : State) : Answer :=
  s.onEp e (.next ((s.at at_).modEp e (fun x => { x with d3hot := true })))

/-- The link of endpoint e goes up or down; a change raises HIC source 499 of its die (R447). -/
def State.setEpLink (s : State) (e : Nat) (up : Bool) : State :=
  let t := s.modEp e (fun x => { x with link := up, training := !up && !x.perst })
  if (s.ep e).link ≠ up then t.hicSet (4 * e) 499 else t

/-- PERST_N of endpoint e has been low for dur ns and stays low: 1 µs or more resets the endpoint with its configuration space and holds its link down. The
pin acts while PORST_N is high; a low level goes on until it rises (R447). -/
def State.perstLow (s : State) (e dur : Nat) : State :=
  if dur < 1000 then s
  else if s.keeper.phase ≠ .on then s.modEp e (fun x => { x with perst := true })
  else
    let t := (s.modEp e (fun x => { x with perst := true, d3hot := false, cfg := {} })).flr e
    t.setEpLink e false

/-- PERST_DEASSERT: PERST_N of endpoint e rises, and while PORST_N is high link training begins (R447). -/
def execPerstDeassert (e at_ : Nat) (s : State) : Answer :=
  s.onEp e (.next ((s.at at_).modEp e (fun x =>
    if x.perst then { x with perst := false, training := decide (s.keeper.phase = .on) } else x)))

/-- The fixed properties of an endpoint's configuration space (Table 13-1): vendor and device ID, class code, and the capabilities by their PCI
names. -/
structure PciId where
  vendor : Nat
  device : Nat
  cls : Nat
  caps : List String
  deriving DecidableEq, Repr

/-- The fixed properties of the part's endpoints (Table 13-1). -/
def Part.pciId (p : Part) : PciId :=
  ⟨Config.vendorId % 65536, match p with | .sx2 => 0x5C02 | .sx4 => 0x5C04 | .sx8 => 0x5C08, 0x048000,
    ["PCIe", "power management", "MSI-X", "AER", "Device Serial Number"]⟩

/-- What a configuration request to an endpoint meets (R49, Table 1-8): no answer, a Configuration Request Retry Status, or its completion. -/
inductive CfgAnswer where
  | absent
  | retry
  | completes
  deriving DecidableEq, Repr

/-- The answer to a configuration request at harbour time: retried until firmware serves, and after a cold boot for no longer than 1 s; in a warm
restart until firmware serves or boot has failed (R49, R447, R570, Table 1-8). -/
def State.cfgAnswer (s : State) (e : Nat) : CfgAnswer :=
  if s.keeper.phase ≠ .on ∨ (s.ep e).link = false ∨ (s.ep e).perst = true then .absent
  else if s.serving then .completes
  else if s.bootAt + 1000000000 ≤ s.htime ∧ s.phase ≠ 4 then .completes
  else .retry

/-- The receiver terminations of quay q are on: the core supplies are good, PORST_N is high, firmware serves and the quay is configured (R48, R50,
assumption log 138). -/
def State.quayTerminated (s : State) (q : Nat) : Bool :=
  decide (s.keeper.phase = .on) && s.serving && s.flag (quayAddr q R.QY_CFG) 0

/-- The TAP is operational, and JTAG TDO not high impedance: the core supplies are good (R48). -/
def State.tapUp (s : State) : Bool := decide (s.keeper.phase = .reset ∨ s.keeper.phase = .on)

/-- PCIE_LINK_CHANGE: the link of endpoint e comes up after training, or drops at the partner (R447). While PERST_N is low it stays down. -/
def execPcieLinkChange (e : Nat) (up : Bool) (at_ : Nat) (s : State) : Answer :=
  s.onEp e (.next (
    let u := s.at at_
    if (u.ep e).perst = true ∨ u.keeper.phase ≠ .on then u else u.setEpLink e up))

/-- UNDERRUN_SUMMARY_POST: the counts of a berth that have risen are posted, at most every 100 ms (Table 13-13). -/
def execUnderrunSummaryPost (b at_ : Nat) (s : State) : Answer :=
  .next (
    let u := s.at at_
    match u.berth b with
    | none => u
    | some x =>
      let du := x.uLines - x.sumU
      let dl := x.lateLines - x.sumL
      if du + dl = 0 ∨ (x.sumAt ≠ 0 ∧ u.htime < x.sumAt + 100000000) then u
      else
        let t := u.setBerth { x with sumU := x.uLines, sumL := x.lateLines, sumAt := u.htime }
        t.postAt (x.lossAt % 2 ^ 64) 0x03 (some b) x.die
          (detail [(du, 4), (dl, 4), (bitsOf (x.reg R.DP_UNDERRUN) 27 16, 2)]))

/-- LEDGER_DENIAL_EVENT: the violation records of die d since the last such event are posted, at most every 1 ms (R481, Table 13-13). -/
def execLedgerDenialEvent (d at_ : Nat) (s : State) : Answer :=
  s.onDie d (.next (
    let u := s.at at_
    let n := u.reg (dieAddr d R.LG_VLCOUNT)
    let z := tfind u.denied d
    let old := match z with
      | some p => p.1
      | none => 0
    let soon : Bool := match z with
      | some p => decide (u.htime < p.2 + 1000000)
      | none => false
    if n = old ∨ soon = true then u
    else
      let a := dieAddr d (R.LG_VIOLOG0 + 16 * ((n + 63) % 64))
      let t := { u with denied := tins u.denied d (n, u.htime) }
      t.postAt (u.reg (a + 8) + u.reg (a + 12) * 2 ^ 32) 0x07 none d
        (detail [((n + 2 ^ 32 - old) % 2 ^ 32, 4), (n, 4), (u.fld a 3 0, 1), (u.fld a 11 9, 1)])))

/-- A run of n parameter bytes, all bits used. -/
def use (off n : Nat) : List (Nat × Nat) := (List.range n).map (fun i => (off + i, 255))

/-- The parameter bits that each command uses (Table 13-7): byte and mask. -/
def paramUse (op : Nat) : List (Nat × Nat) :=
  match op with
  | 0x01 => use 24 8
  | 0x02 => use 24 1
  | 0x03 => use 24 1 ++ [(25, 1)]
  | 0x04 => (24, 7) :: use 25 2 ++ [(27, 7)] ++ use 28 8 ++ [(36, 1)] ++ use 38 10
  | 0x05 => use 24 4
  | 0x06 => use 24 1 ++ use 26 2
  | 0x07 => use 24 4 ++ [(28, 1)]
  | 0x10 => (24, 0x87) :: use 25 2 ++ [(27, 15)] ++ use 28 14 ++ use 44 4
  | 0x12 => (24, 15) :: (25, 15) :: use 26 6
  | 0x13 => use 24 4
  | 0x14 => use 24 4
  | 0x15 => use 24 6
  | 0x18 => use 24 8
  | 0x1B => use 24 2
  | 0x22 => use 24 1 ++ [(25, 0x9F)] ++ use 26 26
  | 0x28 => use 24 1 ++ [(25, 0x3F), (26, 7)] ++ use 28 6 ++ use 36 23
  | 0x29 => use 24 1 ++ [(25, 1)] ++ use 28 20
  | 0x2A => use 24 4
  | 0x30 => use 24 3 ++ use 28 4
  | 0x31 => use 24 3 ++ [(27, 3)] ++ use 28 1 ++ [(29, 7)]
  | 0x38 => use 24 1 ++ [(25, 7)] ++ use 26 1 ++ use 28 2 ++ use 32 4
  | 0x39 => use 24 1 ++ [(25, 1)] ++ use 28 4
  | _ => []

/-- Scope B (Table 13-7); CLOCK_CONFIG and THERMAL_POLICY name a berth when GOV and PRIO ask for it. -/
def scopeB (op : Nat) (c : Cmd) : Bool :=
  decide (op ∈ [0x10, 0x11, 0x12, 0x13, 0x14, 0x15, 0x18, 0x19, 0x1A, 0x1B, 0x1C, 0x20, 0x21, 0x22]) ||
  (decide (op = 0x04) && bitOf (c.b 24) 2) || (decide (op = 0x31) && bitOf (c.b 27) 1)

/-- Scope D (Table 13-7). -/
def scopeD (op : Nat) : Bool := decide (op ∈ [0x02, 0x05, 0x06, 0x13, 0x14, 0x1C, 0x20, 0x2A, 0x39])

/-- A reserved field or an unused parameter byte of a command is nonzero, its data pointer is not aligned, or an MCTP command's DLEN is over 1,024 (R452,
R483, Table 13-3). -/
def reservedSet (op : Nat) (c : Cmd) : Bool :=
  let u := paramUse op
  decide (2 ≤ c.flags ∨ c.p 6 2 ≠ 0 ∨ c.p 20 4 ≠ 0) ||
  (List.range 40).any (fun i =>
    let m := match u.find? (fun e => decide (e.1 = 24 + i)) with
      | some e => e.2
      | none => 0
    decide (c.b (24 + i) &&& (255 - m) ≠ 0)) ||
  (scopeB op c && decide (2048 ≤ c.berth)) || (scopeD op && decide (c.dptr % 4 ≠ 0) && decide (c.ep < 2)) ||
  decide (c.ep = 2 ∧ 1024 < c.dlen)

/-- The quays that a command names (R456): a STREAM_BIND names its primary and standby, a STREAM_UNBIND those that the stream is bound to. -/
def State.cmdQuays (s : State) (op : Nat) (c : Cmd) : List Nat :=
  if op ∈ [0x22, 0x28, 0x29, 0x2A] then [c.b 24]
  else if op = 0x20 then (if c.d 1 1 = 0xFF then [c.d 0 1] else [c.d 0 1, c.d 1 1])
  else if op = 0x21 then
    match s.berth c.berth with
    | some x =>
      let p := bitsOf (s.entryWord x.stream.quay x.stream.entry 10) 7 0
      if !x.stream.bound then [] else if p = 255 then [x.stream.quay] else [x.stream.quay, p]
    | none => []
  else []

/-- The pages of two CELLAR_WRITE commands overlap (R457). -/
def pagesOverlap (a b : Cmd) : Bool :=
  decide (a.p 24 4 / 32768 ≤ (b.p 24 4 + b.dlen / 2 - 1) / 32768 ∧ b.p 24 4 / 32768 ≤ (a.p 24 4 + a.dlen / 2 - 1) / 32768)

/-- A command waits for one fetched before it that has not completed (R456 to R458); one with FENCE that has not started holds back every later
command of its ring. -/
def State.bars (s : State) (f : Flying) (op : Nat) (c : Cmd) : Bool :=
  (scopeB f.op f.cmd && scopeB op c && decide (f.cmd.berth = c.berth) &&
    !(decide (f.op = 0x13 ∧ op = 0x13) && !pagesOverlap f.cmd c)) ||
  (s.cmdQuays f.op f.cmd).any (fun q => (s.cmdQuays op c).contains q) ||
  (decide (f.cmd.ep = c.ep ∧ f.cmd.ring = c.ring) && (bitOf c.flags 0 || (bitOf f.cmd.flags 0 && decide (f.why = .start))))

/-- A command may start after the commands of a list: none of them bars it, and its berth is not moving; a BERTH_MIGRATE waits for a rotation too (R456
to R459, R513). -/
def State.mayStartAfter (s : State) (l : List Flying) (op : Nat) (c : Cmd) : Bool :=
  l.all (fun f => !s.bars f op c) &&
  (!scopeB op c || (match s.berth c.berth with
    | some x => !x.moving && decide (op ≠ 0x1B ∨ x.reloc = 0)
    | none => true))

/-- A command fetched now may start (R456 to R459). -/
def State.mayStart (s : State) (op : Nat) (c : Cmd) : Bool := s.mayStartAfter s.flying op c

/-- The harbour fetches the entry at the head of a ring now (R450 to R455, R515): the endpoint has its link and is enabled, firmware serves, the ring is in use
and holds the entry submitted earliest, and its completion ring has room. -/
def State.mayFetch (s : State) (c : Cmd) : Bool :=
  let b := ringBase c.ep + 0x100 + 0x20 * c.ring
  let r := (s.ep c.ep).rings.getD c.ring {}
  let cq := s.fld (b + 0x18) 12 0
  let out := (s.flying.filter (fun f => decide (f.cmd.ep = c.ep ∧ f.cmd.ring = c.ring))).length + r.waiting.length
  decide (c.ep < s.part.endpoints ∧ c.ring < 8) && s.hostUp c.ep && !s.hmHalt && s.flag (ringBase c.ep) 0 &&
    decide (s.fld (b + 8) 12 0 ≠ 0 ∧ r.head ≠ r.tail ∧ (r.cqTail + cq - r.cqHead) % cq + out + 1 < cq) &&
    decide (((s.ep c.ep).subs.head?.map (·.2)).getD c.ring = c.ring)

/-- The command of opcode op is fetched now and starts at once. -/
def State.canFetch (s : State) (op : Nat) (c : Cmd) : Bool := decide (c.opcode = op) && s.mayFetch c && s.mayStart op c

/-- What a command answers: a STATUS, with or without a change it leaves; a RESULT with the data block it writes; or it stays in flight. -/
inductive Res where
  | err (status : Nat)
  | fail (status : Nat) (s : State)
  | ok (result : Nat) (data : List Byte) (s : State)
  | later (why : Why) (s : State)
  deriving DecidableEq, Repr

/-- The 16 bytes of a completion that answers an MCTP command: SQ, SQHEAD and PHASE, which belong to rings, are 0 (R453, R483, assumption log
136). -/
def completionBytes (c : Cmd) (status result : Nat) : List Byte :=
  Completion.bytes ⟨c.cid, status, 0, 0, false, if status = 0 then result else 0⟩

/-- Deliver a command's outcome to its requester: data before the completion entry (R448), inline over MCTP (R483), to nobody after its
endpoint's reset (R446). -/
def State.answer (s : State) (c : Cmd) (status result : Nat) (data : List Byte) : State :=
  if c.ep < 2 then
    let t := if data.isEmpty then s else s.modEp c.ep (fun x => { x with writes := x.writes ++ [(c.dptr, data)] })
    t.complete c.ep c.ring c.cid status result
  else if c.ep = 2 then { s with mctp := s.mctp ++ [(c.ring, completionBytes c status result ++ data)] }
  else s

/-- End a command with what it answered; one that stays in flight waits with the time at which it came. -/
def State.conclude2 (s : State) (op : Nat) (c : Cmd) (r : Res) : State :=
  match r with
  | .err e => s.answer c e 0 []
  | .fail e t => t.answer c e 0 []
  | .ok v data t => t.answer c 0 v data
  | .later y t =>
    let n := match t.berth c.berth with
      | some x => x.cur.seq
      | none => 0
    { t with flying := t.flying ++ [{ op := op, cmd := c, startAt := s.htime, why := y, seq := n }] }

/-- The dies on whose berths, docks or quays a command acts (R515). -/
def State.cmdDies (s : State) (op : Nat) (c : Cmd) : List Nat :=
  (if scopeB op c then
    match s.berth c.berth with
    | some x => [x.die]
    | none => if op = 0x10 then [c.b 24 % 8] else []
  else []) ++
  (s.cmdQuays op c).map (fun q => q / 18) ++
  (if op = 0x07 ∨ (op = 0x30 ∧ (c.b 25 < 0x10 ∨ (0x18 ≤ c.b 25 ∧ c.b 25 < 0x1B))) then [c.b 24] else [])

/-- A halted deputy makes a command complete with INTERNAL (R515). -/
def State.noDeputy (s : State) (op : Nat) (c : Cmd) : Bool := (s.cmdDies op c).any (fun d => s.hasDie d && s.deputyHalted d)

/-- End a command with INTERNAL, which the fault log records (Table 13-6). -/
def State.internal (s : State) (op : Nat) (c : Cmd) : State :=
  (s.logFault 13 ((s.cmdDies op c).getD 0 0) (if scopeB op c then some c.berth else none) 0 0 [op]).answer c 14 0 []

/-- The opcodes of Table 13-7. -/
def knownOps : List Nat :=
  [0x01, 0x02, 0x03, 0x04, 0x05, 0x06, 0x07, 0x10, 0x11, 0x12, 0x13, 0x14, 0x15, 0x18, 0x19, 0x1A, 0x1B, 0x1C, 0x20, 0x21, 0x22, 0x28, 0x29, 0x2A,
    0x30, 0x31, 0x38, 0x39]

/-- The entry at the head of a command's ring has been fetched. -/
def State.fetched (s : State) (c : Cmd) : State :=
  let size := s.fld (ringBase c.ep + 0x108 + 0x20 * c.ring) 12 0
  s.modEp c.ep (fun x =>
    let r := x.rings.getD c.ring {}
    { x with rings := x.rings.set c.ring { r with head := (r.head + 1) % size }, subs := x.subs.drop 1 })

/-- Start a command that has been fetched (R452, R463, R515): refused with INVALID for reserved fields and with HOSTMEM where host memory fails. -/
def State.begin (s : State) (op : Nat) (c : Cmd) (body : State → Cmd → Res) : State :=
  if reservedSet op c then s.answer c 2 0 []
  else if scopeD op && !c.memOk then s.answer c 11 0 []
  else if s.noDeputy op c then s.internal op c
  else s.conclude2 op c (body s c)

/-- A command that may not start yet waits. -/
def State.makeWait (s : State) (op : Nat) (c : Cmd) : State :=
  { s with flying := s.flying ++ [{ op := op, cmd := c, startAt := s.htime, why := .start }] }

/-- A host command (R452 to R463): the entry at the head of its ring is fetched, and starts at once or waits. An OPCODE that Table 13-7 does not have gives
BADOPCODE; one of another command is not this command's entry, and is left for it. -/
def State.host (s : State) (op : Nat) (c : Cmd) (at_ : Nat) (body : State → Cmd → Res) : State :=
  let u := s.at at_
  if !u.mayFetch c then u
  else if !knownOps.contains c.opcode then (u.fetched c).answer c 1 0 []
  else if c.opcode ≠ op then u
  else if u.mayStart op c then (u.fetched c).begin op c body
  else (u.fetched c).makeWait op c

/-- The states of Table 13-8: 0 STOPPED, 1 RUNNING, 2 PAUSED, 3 HALT, 4 PARKED. -/
def Berth.stateNo (x : Berth) : Nat :=
  if x.parked then 4
  else if !x.started then 0
  else if x.freezes.contains .pause then 2
  else if x.side.core.st = .halt then 3
  else 1

/-- The berth has berth time (R460). -/
def Berth.hasTime (x : Berth) : Bool := decide (x.stateNo = 1 ∨ x.stateNo = 3)

/-- A command on an existing berth in one of the states it accepts (Tables 13-6, 13-8). -/
def State.onBerth (s : State) (c : Cmd) (states : List Nat) (f : Berth → Res) : Res :=
  if s.part.berthIds ≤ c.berth then .err 3
  else match s.berth c.berth with
    | none => .err 4
    | some x => if states.contains x.stateNo then f x else .err 6

/-- A command that acts on a berth with berth time takes effect at a watch commit (R460): what it answers now decides a refusal, and else
it waits. -/
def State.atCommit (s : State) (c : Cmd) (r : Res) : Res :=
  match r with
  | .err e => .err e
  | .fail e t => .fail e t
  | _ => match s.berth c.berth with
    | some x => if x.hasTime then .later .commit s else r
    | none => r

end Sys2Proof.Machine
end

