-- ==== Sys2Proof/Machine/Power.lean ====
section
/-! DEFINITION. Power domains, AVSBus exchanges, the power and thermal ladders (R523 to R546). -/

namespace Sys2Proof.Machine

/-- The domain code names a domain of die d (Table 15-1). -/
def hasDomain (d code : Nat) : Bool := decide (code ≤ 0x1C ∨ (code = 0x1D ∧ d = 0))

/-- The domain accepts ON only (Table 15-1). -/
def State.onlyOn (s : State) (d code : Nat) : Bool :=
  decide (code = 0x10 ∨ code = 0x1C ∨ code = 0x1D ∨ (code = 0x1B ∧ (d = 0 ∨ (d = 4 ∧ s.part = .sx8))))

/-- Set the state of a domain: 0 ON, 1 RET, 2 OFF, 3 CHANGING. -/
def State.setDomain (s : State) (d code v : Nat) : State := { s with domains := tput s.domains (domKey d code) v 0 }

/-- The pages of cellar group g of die d whose entries differ from the reset value, with their entries. -/
def State.groupPages (s : State) (d g : Nat) : List (Nat × Nat) :=
  (s.pages.filter (fun e => decide (e.1 / 16384 = d ∧ e.1 % 16384 / 2048 = g))).map (fun e => (e.1 % 16384, e.2.toNat))

/-- Every page of cellar group g is FREE or RETIRED (Table 15-2). -/
def State.groupFree (s : State) (d g : Nat) : Bool :=
  decide (g ≠ 0) && (s.groupPages d g).all (fun e => decide (pageState e.2 = 0 ∨ pageState e.2 = 5))

/-- Berth x owns or shares a page of group g of its die (Table 15-2). -/
def State.usesGroup (s : State) (x : Berth) (g : Nat) : Bool :=
  decide (x.watchPage / 2048 = g) ||
  (s.groupPages x.die g).any (fun e =>
    (decide (pageState e.2 = 1 ∨ pageState e.2 = 4) && decide (bitsOf e.2 10 0 = x.id)) ||
    (decide (pageState e.2 = 2) && (s.groupsOf x.die x.id).contains (bitsOf e.2 20 11) && decide (bitsOf e.2 20 11 ≠ 0)))

/-- Byte of PW_RETMASK for group g of die d. -/
def State.retByte (s : State) (d g : Nat) : Nat :=
  bitsOf (s.reg (dieAddr d (R.PW_RETMASKLO + 4 * (g / 4)))) (8 * (g % 4) + 7) (8 * (g % 4))

/-- The quays of group g of die d. -/
def groupQuays (d g : Nat) : List Nat := (List.range 6).map (fun i => d * 18 + 6 * g + i)

/-- Table 15-2: the domain may enter RET (st 1) or OFF (st 2), with the CELG mask byte m. -/
def State.mayLeaveOn (s : State) (d code st m : Nat) : Bool :=
  if code < 0x10 then
    (List.range 17).all (fun n => decide (s.slot d code n ≠ 1 ∧ s.slot d code n ≠ 2)) && !s.flag (dockAddr d code R.DK_PIPE) 0
  else if code < 0x18 then
    s.groupFree d (code - 0x10) ||
      (decide (st = 1 ∧ m = 255) && s.berths.all (fun e =>
        !(decide (e.2.die = d) && decide (e.2.stateNo = 1 ∨ e.2.stateNo = 2 ∨ e.2.stateNo = 3) && s.usesGroup e.2 (code - 0x10))))
  else if code < 0x1B then
    (groupQuays d (code - 0x18)).all (fun q => !s.flag (quayAddr q R.QY_CFG) 0 &&
      (s.quay q).table.all (fun e => !bitOf (e.2.getD 0 0) 11))
  else if code = 0x1B then
    ((List.range 16) ++ [0x18, 0x19, 0x1A]).all (fun c => decide (s.domain d c = 1 ∨ s.domain d c = 2))
  else false

/-- Erase the contents of the banks of group g of die d that keep does not name (R524, R527). -/
def State.clearBanks (s : State) (d g : Nat) (keep : Nat → Bool) : State :=
  let gone := fun (w : Nat) => decide (w / 2 ^ 29 = d ∧ bitsOf (w % 2 ^ 29) 28 26 = g) && !keep (bankOf (w % 2 ^ 29) % 8)
  { s with
    mem := s.mem.filter (fun e => !gone (e.1 / 2))
    ecc := s.ecc.filter (fun e => !gone (e.1 * 4)) }

/-- The self-test signatures of a microcode payload, for KIND 0 to 7 (Table 16-9). -/
def sigsOf (p : List Byte) : List Nat := (List.range 8).map (fun k => ofLe ((p.drop (40968 + 4 * k)).take 4))

/-- The load of a control store bank from a microcode payload (R578, R580). -/
def bankOfPayload (p : List Byte) : CBank :=
  { words := (List.range 4096).foldl (fun t w => tput t w (ofLe ((p.drop (10 * w)).take 10)) 0) []
    ver := ofLe ((p.drop 40964).take 4), sigs := sigsOf p }

/-- Key of bank n of the control store of dock k of die d. -/
def csKey (d k n : Nat) : Nat := (d * 16 + k) * 2 + n % 2

/-- Bank n of a dock's control store. -/
def State.csBank (s : State) (d k n : Nat) : CBank := tget s.cstore (csKey d k n) {}

/-- Store bank n of a dock's control store. -/
def State.setCsBank (s : State) (d k n : Nat) (b : CBank) : State := { s with cstore := tput s.cstore (csKey d k n) b {} }

/-- A dock's control store after its load at boot or at its return to ON: bank 0 active, holding the image recorded for the dock (R527, R580, R583). -/
def State.loadDock (s : State) (d k : Nat) : State :=
  let p := match tfind s.dockImg (d * 16 + k) with
    | some q => q
    | none => tget s.dieImg d []
  let b := bankOfPayload p
  let t := (s.setCsBank d k 0 b).setCsBank d k 1 {}
  (((t.setReg (dockAddr d k R.MC_CTL) 0).setReg (dockAddr d k R.MC_VER) b.ver).setReg (dockAddr d k R.MC_IDLEVER) 0).setReg
    (dockAddr d k R.MC_LVER) b.ver

/-- The state in which a domain returns to ON (Table 15-3). -/
def State.returned (s : State) (d code : Nat) (was : Nat) : State :=
  let t := s.setDomain d code 0
  if code < 0x10 then
    let u := (List.range 17).foldl (fun (v : State) n => if v.slot d code n = 3 then v else v.setSlot d code n 0) t
    let u1 := (u.setReg (dockAddr d code R.DK_FAULTTEST) 0).setPipe d code {}
    u1.loadDock d code
  else if code < 0x18 then
    let g := code - 0x10
    t.clearBanks d g (fun b => decide (was = 1) && bitOf (s.retByte d g) b)
  else if code < 0x1B then
    (groupQuays d (code - 0x18)).foldl (fun (v : State) q =>
      let a := dieAddr d R.ST_SECCLR
      let v1 := v.setFlag (quayAddr q R.QY_CFG) 0 false
      let v2 := { v1 with quays := tput v1.quays q {} {} }
      ((v2.setReg (quayAddr q R.QY_STAT) 4).setFlag a (q % 18) true)) t
  else t

/-- Post EV_POWER (Table 13-13). -/
def State.postPower (s : State) (d code st cause : Nat) : State :=
  s.post 0x09 none d (detail [(code, 1), (st, 1), (cause, 1)])

/-- Key that remembers from which state a domain returns. -/
def backKey (d code : Nat) : Nat := 1000 + domKey d code

/-- A domain starts its return to ON; what it returns from is kept until it is done (R527). -/
def State.startReturn (s : State) (d code : Nat) : State :=
  let v := s.domain d code
  if v = 1 ∨ v = 2 then { (s.setDomain d code 3) with domains := tins (s.setDomain d code 3).domains (backKey d code) v } else s

/-- Complete a POWER_SET that waits for a domain, with EV_POWER of cause 1 (R477, R525). -/
def State.donePower (s : State) (y : Why) (d code st : Nat) : State :=
  match s.flying.find? (fun f => decide (f.op = 0x30 ∧ f.cmd.b 24 = d ∧ f.cmd.b 25 = code ∧ f.why = y)) with
  | some f => ({ s with flying := s.flying.erase f }.postPower d code st 1).answer f.cmd 0 st []
  | none => s

/-- The write of PW_MODE that arms an entry (R528): the deputy's, or POWER_SET's. -/
def State.armEntry (s : State) (d code st : Nat) (auto : Bool) : State :=
  { s with entries := tins s.entries d { code := code, st := st, auto := auto } }

/-- POWER_SET (R477, R525): refused, done at once, or in flight until the domain has reached the state; ON of a domain whose entry is armed or in progress
waits for the entry's end (R532). -/
def cmdPowerSet (s : State) (c : Cmd) : Res :=
  let d := c.b 24
  let code := c.b 25
  let st := c.b 26
  let m := c.p 28 4
  let celg := decide (0x10 ≤ code ∧ code < 0x18)
  if !s.hasDie d then .err 3
  else if !hasDomain d code ∨ 2 < st then .err 2
  else if 256 ≤ m ∨ (m ≠ 0 ∧ m ≠ 255) ∨ (m ≠ 0 ∧ celg = false) then .err 2
  else if st ≠ 0 ∧ s.onlyOn d code = true then .err 2
  else if s.domain d code = st then .ok st [] s
  else if st = 0 then (if s.entries.any (fun e => decide (e.1 = d ∧ e.2.code = code) && !e.2.committed) then .later .start s
    else .later .domain (s.startReturn d code))
  else if s.entries.any (fun e => decide (e.1 = d) && !e.2.committed) || s.domain d code != 0 || !s.mayLeaveOn d code st m then .err 8
  else
    let g := code - 0x10
    let t := if celg then s.setFld (dieAddr d (R.PW_RETMASKLO + 4 * (g / 4))) (8 * (g % 4) + 7) (8 * (g % 4)) m else s
    .later .entry (t.armEntry d code st false)

/-- POWER_SET: a power domain is set to ON, RET or OFF (R525). -/
def execPowerSet (c : Cmd) (at_ : Nat) (s : State) : Answer := .next (s.host 0x30 c at_ cmdPowerSet)

/-- The stored fields of PW_MODE after a write of v: DOMAIN, STATE, AUTOWAKE, MODEERR cleared where written 1. -/
def State.writeMode (s : State) (d v : Nat) (keep : Bool) : State :=
  let a := dieAddr d R.PW_MODE
  let old := s.reg a
  let e := if bitOf v 17 then 0 else bitsOf old 17 17
  s.setReg a (putBits (if keep then old else bitsOf v 4 0 + bitsOf v 9 8 * 256 + bitsOf v 12 12 * 4096) 17 17 e)

/-- An entry is armed or in progress on die d. -/
def State.arming (s : State) (d : Nat) : Bool := match tfind s.entries d with
  | some e => !e.committed
  | none => false

/-- MODEERR sets. -/
def State.modeErr (s : State) (d v : Nat) : State := (s.writeMode d v true).setFlag (dieAddr d R.PW_MODE) 17 true

/-- PW_MODE_ON: a write of PW_MODE with STATE ON starts the domain's return to ON (R532). -/
def execPwModeOn (r : Requester) (d v at_ : Nat) (s : State) : Answer :=
  .next (s.rowWrite r (dieAddr d R.PW_MODE) at_ (fun u =>
    if bitsOf v 9 8 ≠ 0 then u
    else if u.arming d ∨ !hasDomain d (v % 32) then u.modeErr d v
    else ((u.writeMode d v false).startReturn d (v % 32))))

/-- PW_MODE_ARM: a write of PW_MODE with RET or OFF arms an entry; one that Table 15-2 or R525 refuses sets MODEERR (R528, R532). -/
def execPwModeArm (r : Requester) (d v at_ : Nat) (s : State) : Answer :=
  .next (s.rowWrite r (dieAddr d R.PW_MODE) at_ (fun u =>
    let st := bitsOf v 9 8
    let code := v % 32
    let m := if 0x10 ≤ code ∧ code < 0x18 then u.retByte d (code - 0x10) else 0
    if st = 0 then u
    else if u.arming d ∨ st = 3 ∨ !hasDomain d code ∨ u.onlyOn d code ∨ u.domain d code ≠ 0 ∨ !u.mayLeaveOn d code st m then u.modeErr d v
    else (u.writeMode d v false).armEntry d code st (bitOf v 12)))

/-- Nanoseconds of n DCLK cycles of die d, rounded up. -/
def State.dclkNs (s : State) (d n : Nat) : Nat := (n * 1000 + s.dclk d - 1) / s.dclk d

/-- Harbour time of abort point n, 1 to 4, of an entry in progress (Table 15-4). -/
def State.abortPoint (s : State) (d : Nat) (e : Entry) (n : Nat) : Nat :=
  let a := e.startAt.getD 0 + e.ap1
  a + s.dclkNs d (match n with | 1 => 0 | 2 => 16 | 3 => 32 | _ => 64)

/-- An armed entry is abandoned before it starts or at an abort point: the domain is ON, ABORTS counts, LASTAP records (R528, R529). -/
def State.abandonEntry (s : State) (d : Nat) (e : Entry) (ap : Nat) : State :=
  let a := dieAddr d R.PW_ENTRY
  let t := { s.setDomain d e.code 0 with entries := tdel s.entries d }
  ((t.setFld a 2 0 ap).addFld a 15 8 1).donePower .entry d e.code 0

/-- The entry is committed at AP4: the domain is in RET or OFF and what it held is lost (R524, Table 15-4). -/
def State.commitEntry (s : State) (d : Nat) (e : Entry) : State :=
  let t := { s.setDomain d e.code e.st with entries := if e.auto then tins s.entries d { e with committed := true } else tdel s.entries d }
  let t1 := if e.code < 0x10 then { t with pipes := tput t.pipes (pipeKey d e.code) {} {} }
    else if e.code < 0x18 then t.clearBanks d (e.code - 0x10) (fun b => decide (e.st = 1) && bitOf (t.retByte d (e.code - 0x10)) b)
    else if e.code < 0x1B then
      (groupQuays d (e.code - 0x18)).foldl (fun (v : State) q =>
        ({ v with quays := tput v.quays q {} {} }).setFlag (dieAddr d R.ST_SECCLR) (q % 18) true) t
    else
      ((List.range 4).foldl (fun (v : State) p => match v.part.neighbour d p with
        | some n => (v.setFlag (dieAddr d R.HB_FABSTAT) p false).setFlag (dieAddr n R.HB_FABSTAT) (facing p) false
        | none => v) t).setDetours
  t1.donePower .entry d e.code e.st

/-- A source of level kind (Table 11-2). -/
def levelKind (d src : Nat) : Bool :=
  decide ((336 ≤ src ∧ src < 384) ∨ (402 ≤ src ∧ src < 420) ∨ src = 422 ∨ src = 424 ∨ src = 425 ∨ src = 427 ∨
    (d = 0 ∧ (src = 498 ∨ (448 ≤ src ∧ src < 496))))

/-- An entry in progress of die d starts its wake window at this harbour time and ends it at that (R530): SX8 only. -/
def State.wakeWindow (s : State) (d : Nat) (e : Entry) (t : Nat) : Bool :=
  let b := s.abortPoint d e 3
  decide (s.part = .sx8 ∧ b ≤ t ∧ t < b + s.dclkNs d 5)

/-- Source src is enabled and targets the deputy of die d (R529). -/
def State.wakes (s : State) (d src : Nat) : Bool :=
  s.flag (dieAddr d (R.HIC_EN + 4 * (src % 1024 / 32))) (src % 32) && decide (s.hicTarget d (src % 1024 / 32) = 0)

/-- The abort point at which a wake by source p.1 at harbour time p.2 abandons an entry (R529, R530): in the wake window an edge goes unseen, and a level
that still stands is seen after it. -/
def State.abortAt (s : State) (d : Nat) (e : Entry) (p : Nat × Nat) : Option Nat :=
  if s.abortPoint d e 4 ≤ p.2 ∨ s.wakes d p.1 = false then none
  else if s.wakeWindow d e p.2 then (if levelKind d p.1 && s.hicLevel d p.1 then some 4 else none)
  else some (if p.2 ≤ s.abortPoint d e 1 then 1 else if p.2 ≤ s.abortPoint d e 2 then 2 else if p.2 ≤ s.abortPoint d e 3 then 3 else 4)

/-- An entry in progress goes as far as harbour time has come (Table 15-4, R529): a wake that has been detected abandons it at its abort point; without one
it is committed at AP4. -/
def State.runEntry (s : State) (d : Nat) (e : Entry) : State :=
  match e.sets.findSome? (s.abortAt d e) with
  | some ap => if s.abortPoint d e ap ≤ s.htime then s.abandonEntry d e ap else s
  | none => if s.abortPoint d e 4 ≤ s.htime then s.commitEntry d e else s

/-- The deputy of die d waits: an armed entry starts, reaching AP1 after ap1 ns, unless a presentable source already targets the deputy; an entry in
progress goes on (R528, Table 15-4). -/
def State.enterDomain (s : State) (d ap1 : Nat) : State :=
  match tfind s.entries d with
  | none => s
  | some e =>
    if e.startAt.isSome then (if e.committed then s else s.runEntry d e)
    else if (s.hicTop d 0).isSome then s.abandonEntry d e 0
    else
      { s.setDomain d e.code 3 with
        entries := tins s.entries d { e with startAt := some s.htime, ap1 := min ap1 2000, sets := [] } }

/-- The wake detector of die d has seen HIC source src set or asserted: an entry that it abandons comes to its abort point (R529, R530); after AP4 the entry
is committed, and with AUTOWAKE the return to ON starts (R531). -/
def State.wakeEntry (s : State) (d src : Nat) : State :=
  match tfind s.entries d with
  | none => s
  | some e =>
    if e.startAt.isNone then s
    else
      let t := if e.committed then s else match (e.sets.filter (fun p => decide (p.1 = src))).findSome? (s.abortAt d e) with
        | some ap => (s.at (s.abortPoint d e ap)).runEntry d e
        | none => s.runEntry d e
      match tfind t.entries d with
      | some z =>
        if z.committed && z.sets.any (fun p => decide (p.1 = src ∧ t.abortPoint d z 4 ≤ p.2)) && t.wakes d src then
          (({ t with entries := tdel t.entries d }).startReturn d z.code).postPower d z.code 0 4
        else t
      | none => t

/-! The supplies. -/

/-- DCLKSTEP of a die. -/
def State.dstep (s : State) (d : Nat) : Nat := s.fld (dieAddr d R.HB_CLKSTAT) 5 4

/-- The step that both ladders allow a die (R541). -/
def State.ladderStep (s : State) (d : Nat) : Nat := max (s.fld R.PW_LADDER 5 4) (s.fld (dieAddr d R.PW_TJ) 17 16)

/-- The floor of R541. -/
def State.floorStep (s : State) : Nat := min (min (s.fld R.PW_THPOL 17 16) s.prof.dclkmin) 2

/-- The VCORE target: the profile's value for the fastest step in use (R535). -/
def State.vcoreTarget (s : State) : Nat :=
  s.prof.vcore.getD ((List.range s.part.dies).foldl (fun m d => min m (s.dstep d)) 2) 0

/-- Start the exchange at the head of the queue when none is outstanding (R536). -/
def State.startAvs (s : State) : State :=
  match s.pw.avs, s.pw.queue with
  | none, (r, v) :: rest =>
    { s with pw := { s.pw with avs := some ⟨r, v, s.htime, false⟩, queue := rest } }.setFlag R.PW_AVSSTAT 0 true
  | _, _ => s

/-- Queue a voltage change; it replaces an earlier queued change of the same rail (R536). -/
def State.queueAvs (s : State) (rail v : Nat) : State :=
  { s with pw := { s.pw with queue := s.pw.queue.filter (fun (e : Nat × Nat) => decide (e.1 ≠ rail)) ++ [(rail, v)] } }.startAvs

/-- The VCORE target last acknowledged. -/
def State.vcoreNow (s : State) : Nat := s.fld R.PW_AVSTGT 15 0

/-- Every die takes the step its ladders allow, as far as the acknowledged VCORE carries it (R535): dies step down at once, and up only where the voltage is
enough. -/
def State.setSteps (s : State) : State :=
  (List.range s.part.dies).foldl (fun (t : State) d =>
    let want := s.ladderStep d
    let now := s.dstep d
    if now < want ∨ (want < now ∧ s.prof.vcore.getD want 0 ≤ s.vcoreNow) then t.setFld (dieAddr d R.HB_CLKSTAT) 5 4 want else t) s

/-- Level of EV_THERMAL (R544). -/
def State.thermLevel (s : State) : Nat :=
  if s.skippers ≠ 0 then 3
  else if (List.range s.part.dies).any (fun d => s.dstep d ≠ 0) then 2
  else if (List.range s.part.dies).any (fun d => s.thermalLevel d) then 1 else 0

/-- Post EV_THERMAL with a level (R542, R544). -/
def State.postThermal (s : State) (d level : Nat) : State :=
  let step := (List.range s.part.dies).foldl (fun m k => max m (s.dstep k)) 0
  let tj := (List.range s.part.dies).foldl (fun m k => max m (s.fld (dieAddr k R.PW_TJ) 7 0)) 0
  (s.setFld R.PW_LADDER 13 12 level).post 0x06 none d (detail [(level, 1), (step, 1), (tj, 1), (0, 1), (s.skippers, 2)])

/-- What follows a ladder action (R535, R544): steps and voltage, EV_THERMAL, EV_POWER for the package's ladder, a THROTTLE record for a step down. -/
def State.afterAction (s : State) (d : Nat) (pack down : Bool) : State :=
  let t := s.setSteps
  let t1 := if t.vcoreTarget < t.vcoreNow then t.queueAvs 0 t.vcoreTarget else t
  let t2 := t1.postThermal d t1.thermLevel
  let t3 := if pack then t2.postPower 0 0xFF 0 5 else t2
  if down then t3.logFault 12 d none 0 0 [t3.thermLevel, t3.ladderStep d] else t3

/-- Step the package's ladder down (R540): every die above the floor, else one more priority level. -/
def State.packDown (s : State) : State :=
  let p := s.fld R.PW_LADDER 5 4
  let k := s.fld R.PW_LADDER 11 8
  if (List.range s.part.dies).any (fun d => decide (s.ladderStep d < s.floorStep)) ∧ p < s.floorStep then
    (s.setFld R.PW_LADDER 5 4 (p + 1)).afterAction 0 true true
  else if k < 8 then (s.setFld R.PW_LADDER 11 8 (k + 1)).afterAction 0 true true
  else s

/-- A step up of ladder z (8 the package's, else a die's), waiting for VCORE, takes effect (R535, R536, R540, R542). -/
def State.stepUp (s : State) (z : Nat) : State :=
  if z = 8 then (s.setFld R.PW_LADDER 5 4 (s.fld R.PW_LADDER 5 4 - 1)).afterAction 0 true false
  else
    let a := dieAddr z R.PW_TJ
    (s.setFld a 17 16 (s.fld a 17 16 - 1)).afterAction z false false

/-- Ask for a step up of ladder z to the VCORE of the faster step: at once where the voltage carries it, else after its acknowledgement (R535). -/
def State.askUp (s : State) (z : Nat) : State :=
  let p := s.fld R.PW_LADDER 5 4
  let best := (List.range s.part.dies).foldl (fun m d =>
    let th := s.fld (dieAddr d R.PW_TJ) 17 16
    min m (if z = 8 then max (p - 1) th else max p (if z = d then th - 1 else th))) 2
  let v := s.prof.vcore.getD best 0
  if v ≤ s.vcoreNow then s.stepUp z
  else if s.pw.ups.contains z then s
  else { s with pw := { s.pw with ups := s.pw.ups ++ [z] } }.queueAvs 0 v

/-- The package's ladder steps up: the highest skipping level first, else the DCLK step (R540). -/
def State.packUp (s : State) : State :=
  let k := s.fld R.PW_LADDER 11 8
  if 0 < k then (s.setFld R.PW_LADDER 11 8 (k - 1)).afterAction 0 true false
  else if 0 < s.fld R.PW_LADDER 5 4 then s.askUp 8 else s

/-- PSUS and PPEAK in units of 0.1 W (Table 0-1, R538). -/
def Part.powerLimits : Part → Nat × Nat
  | .sx2 => (2500, 3300)
  | .sx4 => (4900, 6500)
  | .sx8 => (9500, 12500)

/-- At least ns have passed since t, if t is given. -/
def State.since (s : State) (t : Option Nat) (ns : Nat) : Bool := match t with
  | some x => decide (x + ns ≤ s.htime)
  | none => true

/-- RAISEHOLD (R537). -/
def State.raiseHold (s : State) : Bool := s.flag R.PW_AVSSTAT 3

/-- POWER_SAMPLE: voltages in mV and currents in mA of both rails are read; P, the credit and the package's ladder follow (R538 to R540). -/
def execPowerSample (v0 i0 v1 i1 at_ : Nat) (s : State) : Answer :=
  .next (
    let u := s.at at_
    let quays := (List.range (u.part.dies * 18)).foldl (fun n q =>
      let c := u.reg (quayAddr q R.QY_CFG)
      n + (if bitOf c 0 then (if bitOf c 1 then 7 else 11) else 0)) 0
    let p := min 65535 ((v0 * i0 + v1 * i1) / 100000 + quays + 60 * u.part.dies)
    let lim := u.part.powerLimits
    let cr := if lim.1 < p then u.pw.credit - 4 else min 60000 (u.pw.credit + 1)
    let low := if 10 * p ≤ 9 * lim.1 then some (u.pw.pack.low.getD u.htime) else none
    let t := { u with pw := { u.pw with credit := cr, lastP := p, pack := { u.pw.pack with low := low } } }.setReg R.PW_PKGPWR (p + cr / 40 * 65536)
    let gap := if lim.2 < p then 1000000 else 10000000
    let down := decide ((cr = 0 ∧ lim.1 < p) ∨ (lim.2 < p ∧ lim.2 < u.pw.lastP))
    let act := fun (v : State) => { v with pw := { v.pw with pack := { v.pw.pack with acted := some v.htime } } }
    if down && t.since t.pw.pack.acted gap then (act t).packDown
    else if !down && low.isSome && t.since low 100000000 && decide (30000 ≤ cr) && !t.raiseHold && t.since t.pw.pack.acted 100000000 then
      (act t).packUp
    else t)

/-- The ladder history of die d. -/
def State.dieLadder (s : State) (d : Nat) : Ladder := tget s.pw.dies d {}

/-- Store the ladder history of die d. -/
def State.setDieLadder (s : State) (d : Nat) (l : Ladder) : State := { s with pw := { s.pw with dies := tput s.pw.dies d l {} } }

/-- THERMAL_SAMPLE: die d samples its hottest sensor: PW_TJ, the warning, and the die's thermal ladder (R542). -/
def execThermalSample (d tj at_ : Nat) (s : State) : Answer :=
  s.onDie d (.next (
    let u := s.at at_
    let a := dieAddr d R.PW_TJ
    let warm := u.thermalLevel d
    let t := u.withLevel d 427 (fun v => (v.setFld a 7 0 tj).setFld a 15 8 (max (v.fld a 15 8) (tj % 256)))
    let t1 := if t.thermalLevel d && !warm then t.postThermal d 1 else t
    let hot := t1.fld R.PW_THPOL 15 8
    let l := t1.dieLadder d
    let low := if tj + 5 ≤ hot then some (l.low.getD t1.htime) else none
    let t2 := t1.setDieLadder d { l with low := low }
    let act := fun (v : State) => v.setDieLadder d { low := low, acted := some v.htime }
    if hot ≤ tj ∧ t2.since l.acted 10000000 then
      if t2.fld a 17 16 < t2.floorStep then ((act t2).setFld a 17 16 (t2.fld a 17 16 + 1)).afterAction d false true
      else if t2.flag R.PW_THPOL 20 ∧ t2.fld a 23 20 < 8 then ((act t2).setFld a 23 20 (t2.fld a 23 20 + 1)).afterAction d false true
      else t2
    else if low.isSome ∧ t2.since low 100000000 ∧ t2.since l.acted 100000000 ∧ !t2.raiseHold then
      if 0 < t2.fld a 23 20 then ((act t2).setFld a 23 20 (t2.fld a 23 20 - 1)).afterAction d false false
      else if 0 < t2.fld a 17 16 then (act t2).askUp d
      else t2
    else t2))

/-- An exchange is acknowledged (R536): PW_AVSTGT shows the target, steps that waited for it are taken, and the next exchange starts. -/
def State.avsDone (s : State) (a : Avs) : State :=
  let t := { s with pw := { s.pw with avs := none } }.setFlag R.PW_AVSSTAT 0 false
  let t1 := if a.rail = 0 then t.setFld R.PW_AVSTGT 15 0 a.target else t.setFld R.PW_AVSTGT 31 16 a.target
  let ups := t1.pw.ups
  let t2 := if a.rail = 0 then
      ups.foldl (fun (v : State) z => v.stepUp z) { t1 with pw := { t1.pw with ups := [] } }
    else t1
  let t3 := if a.rail = 0 ∧ t2.pw.bootFault then { t2.setSteps with pw := { t2.pw with bootFault := false } } else t2
  t3.startAvs

/-- AVS_STATUS_POLL: a status read; VDone acknowledges the exchange outstanding (R536). -/
def execAvsStatusPoll (vdone : Bool) (at_ : Nat) (s : State) : Answer :=
  .next (
    let u := s.at at_
    match u.pw.avs with
    | some a => if vdone then u.avsDone a else u
    | none => u)

/-- AVS_RETRY_TIMEOUT: 200 µs without VDone: the write is sent again, once (R536). -/
def execAvsRetryTimeout (at_ : Nat) (s : State) : Answer :=
  .next (
    let u := s.at at_
    match u.pw.avs with
    | some a =>
      if a.retried ∨ u.htime < a.startAt + 200000 then u
      else
        (((({ u with pw := { u.pw with avs := some { a with retried := true } } }).setFlag R.PW_AVSSTAT 1 true).addFld
          R.PW_AVSSTAT 15 8 1).hicSet 0 426).postPower 0 0xFF 0 2
    | none => u)

/-- AVS_FAULT_TIMEOUT: 400 µs without VDone is a power fault: no step up, RAISEHOLD for 1 s (R536, R537). -/
def execAvsFaultTimeout (at_ : Nat) (s : State) : Answer :=
  .next (
    let u := s.at at_
    match u.pw.avs with
    | some a =>
      if u.htime < a.startAt + 400000 then u
      else
        let q := u.pw.queue.filter (fun (e : Nat × Nat) => decide (e.1 = 0) && decide (e.2 ≤ u.vcoreNow))
        let t := { u with pw := { u.pw with avs := none, ups := [], queue := q, holdAt := u.htime } }
        let t1 := ((t.setFlag R.PW_AVSSTAT 0 false).setFlag R.PW_AVSSTAT 2 true).setFlag R.PW_AVSSTAT 3 true
        (((t1.hicSet 0 426).postPower 0 0xFF 0 3).logFault 11 0 none 0 0 [a.rail, a.target]).startAvs
    | none => u)

/-- RAISEHOLD_EXPIRY: 1 s after a power fault RAISEHOLD clears, and the exchange of a fault at boot is repeated (R537). -/
def execRaiseholdExpiry (at_ : Nat) (s : State) : Answer :=
  .next (
    let u := s.at at_
    if u.raiseHold ∧ u.pw.holdAt + 1000000000 ≤ u.htime then
      let t := u.setFlag R.PW_AVSSTAT 3 false
      if t.pw.bootFault then (t.queueAvs 1 t.prof.vcellar).queueAvs 0 (t.prof.vcore.getD 0 0) else t
    else u)

/-- THERMAL_POLICY (R545): PW_THPOL, and with PRIO the berth's priority. -/
def cmdThermalPolicy (s : State) (c : Cmd) : Res :=
  let v := c.b 24 + c.b 25 * 2 ^ 8 + c.b 26 * 2 ^ 16 + (c.b 27 % 2) * 2 ^ 20 + c.b 28 * 2 ^ 24
  if c.b 25 ≤ c.b 24 ∨ 110 < c.b 25 ∨ c.b 28 < 2 ∨ 16 < c.b 28 ∨ 3 ≤ c.b 26 then .err 2
  else
    let t := (List.range s.part.dies).foldl (fun (t : State) k =>
      if !s.hicLevel k 427 && t.hicLevel k 427 then t.hicSet k 427 else t) (s.setReg R.PW_THPOL v)
    if bitOf (c.b 27) 1 then
      s.onBerth c [0, 1, 2, 3, 4] (fun x => .ok 0 [] (t.setBerth { x with prio := c.b 29 }))
    else .ok 0 [] t

/-- THERMAL_POLICY as it is fetched: with PRIO it acts at the berth's commit (R460). -/
def runThermalPolicy (s : State) (c : Cmd) : Res :=
  if bitOf (c.b 27) 1 then s.atCommit c (cmdThermalPolicy s c) else cmdThermalPolicy s c

/-- THERMAL_POLICY: thresholds, skip policy and berth priority (R545); a berth's priority changes at its commit (R460). -/
def execThermalPolicy (c : Cmd) (at_ : Nat) (s : State) : Answer :=
  .next (s.host 0x31 c at_ runThermalPolicy)

end Sys2Proof.Machine
end

