-- ==== Sys2Proof/Machine/Boot.lean ====
section
/-! DEFINITION. Boot, warm restart, measurement and repair records; the control store commands (R51, R557 to R573, R577 to R583). -/

namespace Sys2Proof.Machine

/-- CRC-32 of IEEE 802.3 over one byte. -/
def crcByte (c : Nat) (b : Byte) : Nat :=
  (List.range 8).foldl (fun v _ => if v % 2 = 1 then v / 2 ^^^ 0xEDB88320 else v / 2) (c ^^^ b.toNat)

/-- CRC-32 of IEEE 802.3 (R559). -/
def crc32 (l : List Byte) : Nat := l.foldl crcByte 0xFFFFFFFF ^^^ 0xFFFFFFFF

/-- SHA-384 as 48 bytes, the hash Config leaves open (assumption log 23). -/
def sha384 (l : List Byte) : List Byte := (List.range 48).map (Config.sha384 l)

/-- n bytes of the flash from an offset; a byte that nothing holds reads as erased. -/
def State.flashBytes (s : State) (off n : Nat) : List Byte :=
  (List.range n).map (fun i =>
    match s.flash.find? (fun e => decide (e.1 ≤ off + i ∧ off + i < e.1 + e.2.length)) with
    | some e => e.2.getD (off + i - e.1) 0
    | none => 255)

/-- A directory entry (Table 16-2). -/
structure DirEntry where
  typ : Nat
  index : Nat
  copy : Nat
  off : Nat
  len : Nat
  deriving DecidableEq, Repr

/-- The directory at a flash offset, none when its magic, version, count or CRC is not valid (R559). -/
def State.directory (s : State) (base : Nat) : Option (List DirEntry) :=
  let h := s.flashBytes base 8
  let n := ofLe (h.drop 6)
  if h.take 4 ≠ [0x4F, 0x56, 0x42, 0x44] ∨ ofLe ((h.drop 4).take 2) ≠ 1 ∨ 120 < n then none
  else
    let body := s.flashBytes base (8 + 32 * n)
    if crc32 body ≠ ofLe (s.flashBytes (base + 8 + 32 * n) 4) then none
    else some ((List.range n).map (fun i =>
      let e := (body.drop (8 + 32 * i)).take 32
      { typ := ofLe (e.take 1), index := ofLe ((e.drop 1).take 1), copy := ofLe ((e.drop 2).take 1),
        off := ofLe ((e.drop 4).take 4), len := ofLe ((e.drop 8).take 4) }))

/-- A verified image: its header bytes 0 to 415, VERSION and payload. -/
structure Image where
  head : List Byte
  version : Nat
  payload : List Byte
  copy : Nat
  deriving DecidableEq, Repr

/-- The image measurement (R562). -/
def Image.measure (m : Image) : List Byte := sha384 m.head

/-- The checks of R562 on the image of a directory entry; a microcode payload has 41,000 bytes and must also carry its VERSION and
CRC (R578; assumption log 127). -/
def State.verify (s : State) (e : DirEntry) : Option Image :=
  let h := s.flashBytes e.off 512
  let f := fun (a n : Nat) => (h.drop a).take n
  let len := ofLe (f 16 4)
  let key := ofLe (f 6 1)
  let zero := (f 7 1 ++ f 20 12 ++ f 177 239).all (fun b => decide (b = 0))
  if f 0 4 ≠ [0x57, 0x4C, 0x49, 0x4D] ∨ ofLe (f 4 1) ≠ e.typ ∨ ofLe (f 5 1) ≠ e.index ∨ e.len < len + 512 ∨ zero = false then none
  else if 4 ≤ key ∨ bitOf s.otp.revoked key then none
  else if sha384 (f 80 97) ≠ s.otp.hashes.getD key [] ∨ ofLe (f 12 4) < s.otp.svn.getD e.typ 0 then none
  else if Config.ecdsaOk (f 80 97) (f 416 96) (f 0 416) = false then none
  else
    let p := s.flashBytes (e.off + 512) len
    let ver := ofLe (f 8 4)
    if sha384 p ≠ f 32 48 then none
    else if e.typ = 2 ∧ (len ≠ 41000 ∨ ofLe ((p.drop 40964).take 4) ≠ ver ∨ crc32 (p.take 40960) ≠ ofLe ((p.drop 40960).take 4)) then none
    else some ⟨f 0 416, ver, p, e.copy⟩

/-- The image of a type and index: copy A, else copy B (R563). -/
def State.loadImage (s : State) (dir : List DirEntry) (typ index : Nat) : Option Image :=
  match (dir.find? (fun e => decide (e.typ = typ ∧ e.index = index ∧ e.copy = 0))).bind s.verify with
  | some m => some m
  | none => (dir.find? (fun e => decide (e.typ = typ ∧ e.index = index ∧ e.copy = 1))).bind s.verify

/-- Address of word k of measurement slot n of die d. -/
def msAddr (d n k : Nat) : Nat := dieAddr d (0x40 * n + 4 * k + R.MS_SLOT)

/-- The 48 bytes of a measurement slot. -/
def State.measurement (s : State) (d n : Nat) : List Byte :=
  (List.range 12).flatMap (fun k => le32 (s.reg (msAddr d n k)))

/-- Extend a measurement slot: SHA-384 of its value and a digest, COUNT with it (R571, R572). -/
def State.extend (s : State) (d n : Nat) (digest : List Byte) : State :=
  let v := sha384 (s.measurement d n ++ digest)
  let t := (List.range 12).foldl (fun (t : State) k => t.setReg (msAddr d n k) (ofLe ((v.drop (4 * k)).take 4))) s
  t.addFld (dieAddr d (R.MS_CNT + 4 * n)) 15 0 1

/-- Every measurement slot is zero, with its COUNT (R565, R571). -/
def State.clearSlots (s : State) : State :=
  { s with regs := s.regs.filter (fun e => !decide (0x80000 ≤ e.1 % 0x800000 ∧ e.1 % 0x800000 < 0x80440)) }

/-- Use a spare row of a bank for a row (R63, R66); when no row is left, its page is to be retired. -/
def State.useSpare (s : State) (d bank row source : Nat) : State :=
  let a := dieAddr d (R.ST_REPAIR + 4 * bank)
  if !s.hasDie d then s
  else if 32 ≤ s.fld a 5 0 then (s.queueRepair d bank row).settleRetire
  else
    let n := s.freeSpare d bank
    let t := s.countSpare d bank
    if source = 0 then t.addFld a 13 8 1 else { t with newRepairs := t.newRepairs ++ [(d, bank, row, n, source)] }

/-- A march test at reset has found a failing address and bit in a bank that is marched: the row is repaired under R64, and a self-test record reports
the address and bit (R64, R533, assumption log 135). -/
def State.marchFails (s : State) (m : Nat × Nat × Nat) : State :=
  let wa := m.2.1 % 2 ^ 29
  if !s.hasDie m.1 || !s.bankOn m.1 wa then s
  else
    let left := decide (s.fld (dieAddr m.1 (R.ST_REPAIR + 4 * bankOf wa)) 5 0 < 32)
    (s.useSpare m.1 (bankOf wa) (rowOf wa) 1).recordTest m.1 6 (wa / 32768) (if left then 2 else 3) (m.2.2 % 72) (b2n left) wa

/-- One copy of the repair record at a flash offset: SEQ and entries, none when it is not valid (R567). -/
def State.repairCopyAt (s : State) (off : Nat) : Option (Nat × List (Nat × Nat × Nat × Nat × Nat)) :=
  let h := s.flashBytes off 64
  let n := ofLe ((h.drop 8).take 4)
  if h.take 4 ≠ [0x4F, 0x56, 0x52, 0x50] ∨ 16384 < n then none
  else
    let body := s.flashBytes (off + 64) (8 * n)
    if crc32 (h.take 12 ++ body) ≠ ofLe ((h.drop 12).take 4) then none
    else some (ofLe ((h.drop 4).take 4), (List.range n).map (fun i =>
      let w := ofLe ((body.drop (8 * i)).take 4)
      (bitsOf w 2 0, bitsOf w 8 3, bitsOf w 19 9, bitsOf w 24 20, ofLe ((body.drop (8 * i + 4)).take 1))))

/-- SEQ a is higher than SEQ b, modulo 2^32. -/
def seqHigher (a b : Nat) : Bool := decide (a ≠ b ∧ (a + 2 ^ 32 - b) % 2 ^ 32 < 2 ^ 31)

/-- The flash offset of the repair region. -/
def repairBase (dir : List DirEntry) : Option Nat := (dir.find? (fun e => decide (e.typ = 4))).map (·.off)

/-- Apply the repair record: the valid copy with the higher SEQ; entries whose SPARE is in use or whose DIE is absent are skipped; REPAIRLOST without
a valid copy (R567). -/
def State.applyRepairs (s : State) (dir : List DirEntry) : State :=
  let a := (repairBase dir).bind s.repairCopyAt
  let b := (repairBase dir).bind (fun o => s.repairCopyAt (o + 135168))
  let pick := match a, b with
    | some x, some y => if seqHigher y.1 x.1 then some (1, y) else some (0, x)
    | some x, none => some (0, x)
    | none, some y => some (1, y)
    | none, none => none
  match pick with
  | none => s.setFlag R.HB_BOOTSTAT 21 true
  | some (n, q, l) =>
    let t := l.foldl (fun (t : State) e =>
      if !t.hasDie e.1 || t.spareBusy e.1 e.2.1 e.2.2.2.1 then t
      else { t.countSpare e.1 e.2.1 with repairs := t.repairs ++ [e] }) s
    { t with repairs := l, repairCopy := n, repairSeq := q }

/-- Boot fails at a step of Table 16-4 with a code of Table 16-6 (R569, R570). -/
def State.bootFails (s : State) (step code : Nat) : State :=
  ((s.setFld R.HB_BOOTSTAT 7 0 5).setFld R.HB_BOOTSTAT 11 8 step).setFld R.HB_BOOTSTAT 15 12 code

/-- A field of a profile descriptor (Table 13-15). -/
def descField (l : List Byte) (off n : Nat) : Nat := ofLe (sliceD l off n 0)

/-- The profile that a descriptor spells. -/
def profileOf (l : List Byte) : Profile :=
  let f := descField l
  { index := f 1 1, cls := f 2 1, berths := f 3 1, sharepool := f 4 2, cap := f 6 2, watch := f 8 1, qspeed := f 9 1, dclkmin := f 10 1
    inject := bitOf (f 11 1) 0, stagger := bitOf (f 11 1) 1, budget := bitOf (f 11 1) 2, sten := bitOf (f 11 1) 3
    k := f 12 1, budgetUs := f 14 2, vcore := [f 16 2, f 18 2, f 20 2], vcellar := f 22 2
    geo := ⟨f 24 2, f 26 2, f 28 2, f 30 2, f 32 2, f 34 2, f 36 2, f 38 2, f 40 4⟩, period := f 44 4 }

/-- The checks of Table 13-15. -/
def descOk (l : List Byte) : Bool :=
  let p := profileOf l
  let f := descField l
  decide (f 0 1 = 1 ∧ p.index ≤ 3 ∧ p.cls ≤ 2 ∧ 1 ≤ p.berths ∧ p.berths ≤ classBerths p.cls ∧
    128 + p.sharepool + p.cap * 16 * p.berths ≤ 16384 ∧ 2 ≤ p.cap ∧ 8 ≤ p.watch ∧ p.watch ≤ 32 ∧ p.qspeed ≤ 1 ∧ p.dclkmin ≤ 2 ∧
    f 11 1 < 16 ∧ 1 ≤ p.k ∧ p.k ≤ 16) &&
  (!p.budget || decide (1 ≤ p.budgetUs ∧ p.budgetUs ≤ 10000)) &&
  (p.vcore ++ [p.vcellar]).all (fun v => decide (600 ≤ v ∧ v ≤ 950)) && p.geo.valid p.cls &&
  (!p.sten || decide (1 ≤ p.period ∧ p.period ≤ 3600000)) && (sliceD l 80 48 0).all (fun b => decide (b = 0))

/-- Load what the profile gives the registers (P of R13): ST_CFG, ST_PERIOD, DCLKMIN of PW_THPOL. -/
def State.loadProfile (s : State) (p : Profile) : State :=
  let cfg := b2n p.sten + b2n p.stagger * 2 + b2n p.budget * 4 + p.k * 2 ^ 8 + p.budgetUs * 2 ^ 16
  (List.range s.part.dies).foldl (fun (t : State) d =>
    (t.setReg (dieAddr d R.ST_CFG) cfg).setReg (dieAddr d R.ST_PERIOD) p.period)
    ({ s with prof := p }.setFld R.PW_THPOL 17 16 p.dclkmin)

/-- Step 7: the profile of R485 and R486 is applied; slot 3 is extended; none when PRF0 is needed and not usable (code 5). -/
def State.applyProfile (s : State) (want : Nat) : Option State :=
  let get := fun (n : Nat) => s.profTable.getD n []
  let use := fun (n : Nat) (err : Bool) =>
    let t := (((s.loadProfile (profileOf (get n))).extend 0 3 (sha384 (get n))).setFld R.HB_PRFSEL 1 0 n).setFlag R.HB_PRFSEL 5 err
    some (t.setFld R.HB_PRFSEL 4 2 0)
  if descOk (get want) then use want false
  else if descOk (get 0) then use 0 true
  else none

/-- The exchanges of step 7 (R537): acknowledged, every die steps to 1.2 GHz; else a power fault, every die stays at 1.0 GHz. -/
def State.bootVolts (s : State) (ok : Bool) : State :=
  let slow := (List.range s.part.dies).foldl (fun (t : State) d => t.setFld (dieAddr d R.HB_CLKSTAT) 5 4 2) { s with pw := {} }
  let z := slow.setReg R.PW_PKGPWR (1500 * 65536)
  if ok then
    (((z.setFld R.PW_AVSTGT 31 16 s.prof.vcellar).setFld R.PW_AVSTGT 15 0 (s.prof.vcore.getD 0 0))).setSteps
  else
    let t := { z with pw := { z.pw with bootFault := true, holdAt := z.htime } }
    (((t.setFlag R.PW_AVSSTAT 2 true).setFlag R.PW_AVSSTAT 3 true).hicSet 0 426).logFault 11 0 none 0 0 [0, s.prof.vcore.getD 0 0]

/-- The fabric links of a booted part carry traffic. -/
def State.linksUp (s : State) : State :=
  (List.range s.part.dies).foldl (fun (t : State) d => (List.range 4).foldl (fun (t : State) p =>
    if (t.part.neighbour d p).isSome then t.setFlag (dieAddr d R.HB_FABSTAT) p true else t) t) s

/-- Step 4 of Table 16-4: the images in use are marked and measured, their payloads taken, and the recorded repairs applied (R564, R567). -/
def State.bootLoad (s : State) (dir : List DirEntry) (fw mc : Image) : State :=
  let prf := s.loadImage dir 3 0
  let cert := s.loadImage dir 5 0
  let s2 := ((s.setFlag R.HB_BOOTSTAT 17 (decide (fw.copy = 1))).setFlag R.HB_BOOTSTAT 18 (decide (mc.copy = 1))).setFlag
    R.HB_BOOTSTAT 19 (match prf with | some p => decide (p.copy = 1) | none => false)
  let s3 := (s2.setFlag R.HB_BOOTSTAT 20 cert.isNone).extend 0 1 fw.measure
  let s4 := match prf with
    | some p => s3.extend 0 2 p.measure
    | none => s3
  let s5 := match cert with
    | some p => s4.extend 0 7 p.measure
    | none => s4
  let table := match prf with
    | some p => (List.range 4).map (fun i => sliceD p.payload (128 * i) 128 0)
    | none => []
  { s5 with fwVer := fw.version, profTable := table, chain := cert.map (fun (m : Image) => m.payload) }.applyRepairs dir

/-- Step 6 of Table 16-4 for die d: slots 1 and 4 are extended and the docks loaded (R564). -/
def State.bootDie (s : State) (fw mc : Image) (d : Nat) : State :=
  let t1 := if d = 0 then s else s.extend d 1 fw.measure
  ((List.range 16).foldl (fun (v : State) k => v.loadDock d k) { t1 with dieImg := tput t1.dieImg d mc.payload [] }).extend d 4 mc.measure

/-- Steps 7 and 8 of Table 16-4: voltages, READY, and the endpoints and dies serve (R564). -/
def State.bootServe (s : State) (avs : Bool) : State :=
  let t := (s.bootVolts avs).setFld R.HB_BOOTSTAT 7 0 3
  let u := (List.range t.part.endpoints).foldl (fun (v : State) e => v.setFlag (ringBase e) 1 true) t
  (List.range u.part.dies).foldl (fun (v : State) d => v.setFlag (dieAddr d R.HB_CLKSTAT) 0 true) u

/-- The directory that the boot uses, and whether it is directory B (R559). -/
def State.bootDir (s : State) : Option (List DirEntry × Bool) :=
  match s.directory 0 with
  | some l => some (l, false)
  | none => (s.directory 0x10000).map (fun l => (l, true))

/-- Steps 3 to 8 of Table 16-4, for a cold boot and for a warm restart (R564, R565). -/
def State.bootSteps (s : State) (w : BootIn) (want : Nat) : State :=
  if w.answers = false then s.bootFails 3 1
  else match s.bootDir with
  | none => s.bootFails 3 2
  | some (dir, dirB) =>
    let s1 := s.setFlag R.HB_BOOTSTAT 16 dirB
    if s.otp.revoked % 16 = 15 then s1.bootFails 4 6
    else match s1.loadImage dir 1 0, s1.loadImage dir 2 0 with
    | none, _ => s1.bootFails 4 3
    | some _, none => s1.bootFails 4 4
    | some fw, some mc =>
      let s7 := w.marches.foldl State.marchFails (s1.bootLoad dir fw mc)
      if w.dies = false then s7.bootFails 6 7
      else
        let s8 := (List.range s7.part.dies).foldl (fun (t : State) d => t.bootDie fw mc d) s7.linksUp.setDetours
        match s8.applyProfile want with
        | none => s8.bootFails 7 5
        | some s9 => s9.bootServe w.avs

/-- The OTP security state without the device secret, as bytes (R561, R571). -/
def Otp.bytes (o : Otp) : List Byte :=
  o.hashes.flatten ++ [BitVec.ofNat 8 o.revoked] ++ o.svn.map (fun v => BitVec.ofNat 8 v) ++
    o.repairs.flatMap (fun r => leBytes 1 r.1 ++ leBytes 1 r.2.1 ++ leBytes 2 r.2.2) ++ [BitVec.ofNat 8 o.life]

/-- Step 2 of Table 16-4: OTP is read, the factory repairs applied, slot 0 extended, the attestation key derived and both kept (R561, R566,
R576). -/
def State.readOtp (s : State) : State :=
  let digest := sha384 s.otp.bytes
  let key := (List.range 48).map (Config.attestKey s.otp.secret)
  let t := s.otp.repairs.foldl (fun (t : State) r => t.useSpare r.1 r.2.1 r.2.2 0) s
  { t.extend 0 0 digest with keyStore := some (digest, key), attKey := some key, otp := { t.otp with shut := true } }

/-- COLD_BOOT: from the release of PORST_N the boot ROM verifies, loads, measures and reaches READY, or fails (R564, R569). -/
def execColdBoot (w : BootIn) (s : State) : Answer :=
  .next (
    if s.phase ≠ 1 ∨ s.keeper.phase ≠ .on then s
    else
      let t := s.advance w.took
      let u := t.setFld R.HB_PRFSEL 7 6 w.straps
      u.readOtp.bootSteps w (w.straps % 4))

/-- Registers that a warm restart keeps: the keeper's, what counts or is recorded since cold reset, and the state of clocks and fabric. -/
def warmKeeps (a : Nat) : Bool :=
  let o := a % 0x800000
  decide (0x70000 ≤ o ∧ o < 0x80000) || decide (o = R.HB_CLKSTAT ∨ o = R.HB_FABSTAT ∨ o = R.HB_PRFSEL ∨ o = R.HB_WDOG) ||
  decide (o = R.ST_ECCCNT ∨ o = R.ST_ECCSEQ ∨ o = R.ST_SEQ ∨ (R.ST_ECCLOGA ≤ o ∧ o < 0x50890) ∨ (R.ST_REPAIR ≤ o ∧ o < 0x50A00)) ||
  decide (o = R.LG_VLCOUNT ∨ (R.LG_VIOLOG0 ≤ o ∧ o < 0x60C00) ∨ o = R.PW_RETMASKLO ∨ o = R.PW_RETMASKHI) ||
  decide (0x100000 ≤ o ∧ o < 0x200000 ∧ (o % 0x10000 ∈ [R.DP_RELEASED, R.DP_LATE, R.DP_FETCHED, R.DP_SKIPPED, R.FY_DONE, R.FY_WORDS, R.LT_DONE])) ||
  decide (0x400000 ≤ o ∧ ((R.QY_TXPKTS ≤ o % 0x10000 ∧ o % 0x10000 ≤ R.QY_FECUNCORR) ∨
    (R.QY_INJDROPS ≤ o % 0x10000 ∧ o % 0x10000 ≤ R.QY_INJHOLDS)))

/-- The contents of a cellar word survive a warm restart: its group is in RET and its bank is kept (R533). -/
def State.retained (s : State) (w : Nat) : Bool :=
  let d := w / 2 ^ 29
  let b := bankOf (w % 2 ^ 29)
  decide (s.domain d (0x10 + b / 8) = 1) && bitOf (s.retByte d (b / 8)) (b % 8)

/-- The address is that of an index register, of which each requester has a copy (R87). -/
def isIndex (a : Nat) : Bool :=
  decide (a % 0x800000 = R.LG_PGIDX ∨ a % 0x800000 = R.LG_BSGIDX ∨ (0x400000 ≤ a % 0x800000 ∧ a % 0x10000 = R.QY_STIDX % 0x10000))

/-- What a warm restart leaves before step 3 (R24, R51, R394, R485, R533, R565): berths, streams, rings, timers and slot states cleared; the
keeper, retained cellar contents, logs, repairs, harbour time and the boot key store kept. -/
def State.warmBase (s : State) : State :=
  let c := State.cold s.part
  { c with
    pending := s.pending, htime := s.htime, draws := s.draws, bus := s.bus
    mem := s.mem.filter (fun e => s.retained (e.1 / 2)), ecc := s.ecc.filter (fun e => s.retained (e.1 * 4))
    regs := s.regs.filter (fun e => warmKeeps e.1)
    eps := s.eps.map (fun x => { link := x.link, perst := x.perst, d3hot := x.d3hot, training := x.training, cfg := x.cfg })
    bootAt := s.htime, faultLog := s.faultLog, faultSeq := s.faultSeq, testLog := s.testLog, pads := s.pads, sync := s.sync, outside := s.outside
    domains := s.domains.filter (fun e => decide (0x10 ≤ e.1 % 32 ∧ e.1 % 32 < 0x18 ∧ e.1 < 1000))
    prof := s.prof, keeper := s.keeper, otp := s.otp, flash := s.flash, keyStore := s.keyStore, scanned := s.scanned
    latches := s.latches.filter (fun e => !isIndex (e.1 / 16)), memRows := s.memRows, corr := s.corr
    newRepairs := s.newRepairs, repairs := s.repairs, repairCopy := s.repairCopy, repairSeq := s.repairSeq, wdogAt := s.wdogAt }

/-- Every slot that was RETIRED is TEST, and its slice is queued (R24). -/
def State.retiredToTest (s old : State) : State :=
  (List.range (s.part.dies * 16)).foldl (fun (t : State) i =>
    (List.range 17).foldl (fun (v : State) n =>
      if old.slot (i / 16) (i % 16) n = 3 then v.slotToTest (i / 16) (i % 16) n false else v) t) s

/-- A warm restart, through steps 3 to 8 of the boot (R485, R533, R565, R566). -/
def State.warmRestart (s : State) (w : BootIn) : State :=
  let want := s.keeper.pending.getD (s.fld R.HB_PRFSEL 1 0)
  let b := ((s.withPads State.warmBase).setReg R.HB_BOOTSTAT (4 + 2 ^ 22)).advance w.took
  let t := match b.keyStore with
    | some k => if b.scanned then b.setFlag R.HB_BOOTSTAT 23 true else { b.extend 0 0 k.1 with attKey := some k.2 }
    | none => b.setFlag R.HB_BOOTSTAT 23 true
  let u := { t with keeper := { t.keeper with pending := none } }
  (u.bootSteps w want).retiredToTest s

/-- REPAIR_RECORD_WRITE: the repairs not yet recorded are written to the copy that the boot ROM did not select, with SEQ one higher (R568). -/
def execRepairRecordWrite (at_ : Nat) (s : State) : Answer :=
  .next (
    let u := s.at at_
    let dirB := u.flag R.HB_BOOTSTAT 16
    match u.directory (if dirB then 0x10000 else 0) with
    | none => u
    | some dir => match repairBase dir with
      | none => u
      | some base =>
        if u.newRepairs.isEmpty ∨ !u.serving then u
        else
          let l := u.repairs ++ u.newRepairs
          let seq := (u.repairSeq + 1) % 2 ^ 32
          let body := l.flatMap (fun e =>
            le32 (e.1 + e.2.1 * 2 ^ 3 + e.2.2.1 * 2 ^ 9 + e.2.2.2.1 * 2 ^ 20) ++ [BitVec.ofNat 8 e.2.2.2.2, 0, 0, 0])
          let head : List Byte := [0x4F, 0x56, 0x52, 0x50] ++ le32 seq ++ le32 l.length
          let off := base + (1 - u.repairCopy) * 135168
          { u with
            flash := (off, head ++ le32 (crc32 (head ++ body)) ++ List.replicate 48 0 ++ body) :: u.flash
            repairs := l, newRepairs := [], repairSeq := seq, repairCopy := 1 - u.repairCopy })

/-- MEASURE_EXTEND: a write of MS_EXTGO extends slot SLOT of die d with MS_EXTDATA (R571, R572). -/
def execMeasureExtend (r : Requester) (d v at_ : Nat) (s : State) : Answer :=
  .next (s.rowWrite r (dieAddr d R.MS_EXTGO) at_ (fun u =>
    u.extend d (v % 16) ((List.range 12).flatMap (fun k => le32 (u.reg (dieAddr d (R.MS_EXTDATA + 4 * k)))))))

/-- The idle bank of a dock. -/
def State.idleBank (s : State) (d k : Nat) : Nat := 1 - s.fld (dockAddr d k R.MC_CTL) 0 0

/-- MC_LADDR_WRITE: the load address is set, and IDLEOK clears (R580). -/
def execMcLaddrWrite (r : Requester) (d k v at_ : Nat) (s : State) : Answer :=
  onDockReg k (s.rowWrite r (dockAddr d k R.MC_LADDR) at_ (fun u =>
    (u.setReg (dockAddr d k R.MC_LADDR) (v % 4096)).setFlag (dockAddr d k R.MC_CTL) 3 false))

/-- MC_LOAD_WORD: a write of MC_LDATA2 commits one word of the idle bank; while PENDING the old bank is not written (R580, R581). -/
def execMcLoadWord (r : Requester) (d k v at_ : Nat) (s : State) : Answer :=
  onDockReg k (s.rowWrite r (dockAddr d k R.MC_LDATA2) at_ (fun u =>
    let a := dockAddr d k R.MC_LADDR
    let w := u.reg (dockAddr d k R.MC_LDATA0) + u.reg (dockAddr d k R.MC_LDATA1) * 2 ^ 32 + v % 65536 * 2 ^ 64
    let n := u.idleBank d k
    let b := u.csBank d k n
    let t := if u.mcPending d k then u else u.setCsBank d k n { b with words := tput b.words (u.reg a) w 0, sigs := [] }
    (t.setReg a ((u.reg a + 1) % 4096)).setFlag (dockAddr d k R.MC_CTL) 3 false))

/-- MC_CRC_CHECK: a write of MC_LEND starts the CRC check of the idle bank: LBUSY sets, and the expected CRC is kept (R580). -/
def execMcCrcCheck (r : Requester) (d k v at_ : Nat) (s : State) : Answer :=
  onDockReg k (s.rowWrite r (dockAddr d k R.MC_LEND) at_ (fun u =>
    (u.setReg (dockAddr d k R.MC_LEND) v).setFlag (dockAddr d k R.MC_CTL) 4 true))

/-- The bytes of a control store bank, word by word (Table 16-9). -/
def CBank.bytes (b : CBank) : List Byte := (List.range 4096).flatMap (fun w => leBytes 10 (tget b.words w 0))

/-- MC_CRC_CHECK_DONE: the check ends; on a match IDLEOK sets and MC_IDLEVER takes MC_LVER (R580). -/
def execMcCrcCheckDone (d k at_ : Nat) (s : State) : Answer :=
  s.onDock d k (.next (
    let u := s.at at_
    let c := dockAddr d k R.MC_CTL
    if !u.flag c 4 then u
    else
      let t := u.setFlag c 4 false
      let n := u.idleBank d k
      let b := u.csBank d k n
      if crc32 b.bytes = u.reg (dockAddr d k R.MC_LEND) then
        let v := u.reg (dockAddr d k R.MC_LVER)
        ((t.setFlag c 3 true).setReg (dockAddr d k R.MC_IDLEVER) v).setCsBank d k n { b with ver := v }
      else t))

/-- The idle bank becomes active: slots without a berth that has berth time move with it (R581). -/
def State.switchBanks (s : State) (d k : Nat) : State :=
  let c := dockAddr d k R.MC_CTL
  let n := s.idleBank d k
  let t := ((s.setFld c 0 0 n).setReg (dockAddr d k R.MC_VER) (s.csBank d k n).ver).setReg (dockAddr d k R.MC_IDLEVER) (s.csBank d k (1 - n)).ver
  (s.dockBerths d k).foldl (fun (u : State) x =>
    if x.started then u else u.setBerth { x with side := { x.side with bank := n } }) (t.setFlag c 3 false)

/-- MC_SWITCH: a write of MC_CTL: SWITCH makes the idle bank active, or sets SWERR; SWERR clears where written 1 (R581). -/
def execMcSwitch (r : Requester) (d k v at_ : Nat) (s : State) : Answer :=
  onDockReg k (
    let c := dockAddr d k R.MC_CTL
    s.rowWrite r c at_ (fun u =>
      let t := if bitOf v 5 then u.setFlag c 5 false else u
      if !bitOf v 1 then t
      else if !t.flag c 3 ∨ t.mcPending d k then t.setFlag c 5 true
      else t.switchBanks d k))

/-- MC_RELOAD (R478, R583): the image is verified, each selected dock's idle bank loaded and, with SWITCH, switched; slot 6 of the die is extended
once. A dock that is not ON records the image. -/
def cmdMcReload (s : State) (c : Cmd) : Res :=
  let d := c.b 24
  let docks := (List.range 16).filter (fun k => bitOf (c.p 26 2) k)
  match s.directory (if s.flag R.HB_BOOTSTAT 16 then 0x10000 else 0) with
  | none => .err 2
  | some dir =>
    if !s.hasDie d then .err 3
    else if !dir.any (fun e => decide (e.typ = 2 ∧ e.index = c.b 25)) then .err 2
    else if docks.any (fun k => s.mcPending d k) then .err 8
    else match s.loadImage dir 2 (c.b 25) with
    | none => .err 12
    | some m =>
      let b := bankOfPayload m.payload
      let t := docks.foldl (fun (t : State) k =>
        let u := { t with dockImg := tins t.dockImg (d * 16 + k) m.payload }
        if t.domain d k ≠ 0 then u
        else
          let v := ((((u.setCsBank d k (u.idleBank d k) b).setReg (dockAddr d k R.MC_IDLEVER) b.ver).setReg (dockAddr d k R.MC_LVER) b.ver).setReg
            (dockAddr d k R.MC_LADDR) 0).setFlag (dockAddr d k R.MC_CTL) 3 true
          if bitOf (c.b 28) 0 then v.switchBanks d k else v) s
      .ok m.version [] ({ t with dieImg := tput t.dieImg d m.payload [] }.extend d 6 m.measure)

/-- MC_RELOAD: a microcode image is verified and loaded, and optionally switched to (R583). -/
def execMcReload (c : Cmd) (at_ : Nat) (s : State) : Answer := .next (s.host 0x07 c at_ cmdMcReload)

/-- MEASURE_READ (R573): the selected slots of a die, 48 bytes each. -/
def cmdMeasureRead (s : State) (c : Cmd) : Res :=
  let l := (List.range 16).filter (fun n => bitOf (c.p 26 2) n)
  if !s.hasDie (c.b 24) then .err 3
  else if c.dlen < 48 * l.length then .err 2
  else .ok l.length (l.flatMap (fun n => s.measurement (c.b 24) n)) s

/-- MEASURE_READ: measurement slots of a die are written (R573). -/
def execMeasureRead (c : Cmd) (at_ : Nat) (s : State) : Answer := .next (s.host 0x06 c at_ cmdMeasureRead)

end Sys2Proof.Machine
end

