-- ==== Sys2Proof/Machine/SelfTest.lean ====
section
/-! DEFINITION. Voted harbour cores, self-test scheduling and turns, scan entry, and the self-test commands (R514 to R522, R480). -/

namespace Sys2Proof.Machine

/-- Key of a member of a voted triple: the deputy's of die d, or the harbourmaster's. -/
def voteKey (d : Nat) (hm : Bool) (m : Nat) : Nat := d * 8 + (if hm then 4 else 0) + m

/-- The deputy of die d halts (R515): commands in flight that act on the die's berths, docks or quays complete with INTERNAL. -/
def State.haltDeputy (s : State) (d : Nat) : State :=
  let t := s.setFlag (dieAddr d R.ST_VOTE) 4 true
  let hit := fun (f : Flying) => (t.cmdDies f.op f.cmd).contains d
  (t.flying.filter hit).foldl (fun (u : State) f => u.internal f.op f.cmd)
    { t with flying := t.flying.filter (fun f => !hit f) }

/-- Member m of the deputy of die d, or of the harbourmaster, disagrees: outvoted and out of service, for good when it has rejoined within 1 s; within a
checked pair the core halts (R514, R515). -/
def State.outvote (s : State) (d : Nat) (hm : Bool) (m : Nat) : State :=
  let a := dieAddr d R.ST_VOTE
  let base := if hm then 8 else 0
  let ins := s.fld a (base + 2) base
  let halted := if hm then s.hmHalt else s.deputyHalted d
  if 3 ≤ m ∨ bitOf ins m = false ∨ halted = true then s
  else
    let c := s.addFld a (base + 23) (base + 16) 1
    if ins = 7 then
      let again := match tfind s.voteAt (voteKey d hm m) with
        | some t => decide (s.htime < t + 1000000000)
        | none => false
      let t := c.setFlag a (base + m) false
      let t1 := if again then t.setFlag a (base + 3) true else t
      (t1.hicSet d 429).logFault 8 d none 0 0 [b2n hm, m]
    else if hm then { c with hmHalt := true }
    else c.haltDeputy d

/-- VOTER_REJOIN: during the triple's WAIT the state is copied into the member out of service, which rejoins, unless it is excluded (R515). -/
def execVoterRejoin (d : Nat) (hm : Bool) (m at_ : Nat) (s : State) : Answer :=
  s.onDie d (if hm = true ∧ d ≠ 0 then .fault (.noSuchUnit "harbourmaster") else .next (
    let u := s.at at_
    let a := dieAddr d R.ST_VOTE
    let base := if hm then 8 else 0
    let halted := if hm then u.hmHalt else u.deputyHalted d
    if 3 ≤ m ∨ u.flag a (base + m) = true ∨ u.flag a (base + 3) = true ∨ halted = true then u
    else { u.setFlag a (base + m) true with voteAt := tins u.voteAt (voteKey d hm m) u.htime }))

/-- The units of die d, as KIND and UNIT (Table 14-8). -/
def unitsOf (d : Nat) : List (Nat × Nat) :=
  (List.range 16).flatMap (fun k => (List.range 17).map (fun n => (0, slotLoc d k n))) ++
  (List.range 16).map (fun k => (1, k)) ++ [(2, 0)] ++ (List.range 16).map (fun k => (3, k)) ++
  (List.range 16).map (fun k => (4, k)) ++ (List.range 18).map (fun q => (5, d * 18 + q)) ++ (List.range 16384).map (fun p => (6, p))

/-- SELFTEST_SCHEDULE: the deputy of die d places a slice of each unit in the queue, and marks slices that wait longer than PERIOD (R516). -/
def execSelftestSchedule (d at_ : Nat) (s : State) : Answer :=
  s.onDie d (.next (
    let u := s.at at_
    if u.flag (dieAddr d R.ST_CFG) 0 = false ∨ u.deputyHalted d = true ∨ u.serving = false then u
    else
      let wait := u.reg (dieAddr d R.ST_PERIOD) * 1000000
      let late := u.slices.any (fun z => decide (z.die = d) && !z.running && decide (z.queuedAt + wait < u.htime))
      let t := if late then u.setFlag (dieAddr d R.ST_STAT) 16 true else u
      (unitsOf d).foldl (fun (v : State) e => v.queueSlice d e.1 e.2 false) t))

/-- The unit of a slice lies in a domain that is ON (R526). -/
def State.sliceOn (s : State) (z : Slice) : Bool := match sliceDomain z.kind z.unit with
  | some c => decide (s.domain z.die c = 0)
  | none => true

/-- A turn of a slice may run (Table 14-8). -/
def State.mayTurn (s : State) (z : Slice) : Bool :=
  let d := z.die
  s.sliceOn z && (match z.kind with
  | 0 => decide (s.slot d (z.unit / 32 % 16) (z.unit % 32) = 2)
  | 1 => !(s.pipeOf d z.unit).testFailed && (decide (s.spareDock d = some z.unit) ||
      ((s.spareDock d).isNone && !s.spareFailed d && (s.pipeOf d z.unit).cur.isNone))
  | 2 => (s.spareDock d).isNone
  | 3 => (s.dockBerths d z.unit).all (fun x => x.fq.isEmpty)
  | 4 => (s.dockBerths d z.unit).all (fun x => x.lq.isEmpty)
  | 5 => !s.flag (quayAddr z.unit R.QY_CFG) 0
  | _ => decide (pageState (s.page d z.unit) = 0))

/-- Harbour time of the last slice that a slot passed, 0 where the log holds none. -/
def State.lastPass (s : State) (d unit : Nat) : Nat :=
  s.testLog.foldl (fun m r => if r.die = d ∧ r.kind = 0 ∧ r.unit = unit ∧ (r.result = 0 ∨ r.result = 2) then r.htime else m) 0

/-- The ACTIVE slot of a dock whose last passing slice is oldest, the lowest among equals (R519). -/
def State.oldestSlot (s : State) (d k : Nat) : Option Nat :=
  (s.slotsIn d k 1).foldl (fun (b : Option Nat) n => match b with
    | none => some n
    | some m => if s.lastPass d (slotLoc d k n) < s.lastPass d (slotLoc d k m) then some n else some m) none

/-- A slice of an ACTIVE slot may start a rotation (R519): the dock's slot chosen, its berth and the destination. -/
def State.mayRotate (s : State) (z : Slice) : Option (Berth × Nat) :=
  let d := z.die
  let k := z.unit / 32 % 16
  let n := z.unit % 32
  if z.kind ≠ 0 ∨ s.sliceOn z = false ∨ s.oldestSlot d k ≠ some n ∨ s.reg (dockAddr d k R.DK_FAULTTEST) ≠ 0 then none
  else if s.berths.any (fun e => decide (e.2.die = d ∧ e.2.dock = k) && (e.2.moving || e.2.parked || decide (e.2.reloc ≠ 0))) then none
  else match s.berthIn d k n, s.slotsIn d k 0 with
    | some x, m :: _ => some (x, m)
    | _, _ => none

/-- Ask for a move of a berth (R511, R512): its watch closes early; a berth without berth time is moving at once. cause: 2 ROTATION, 3 COMMAND,
4 CROSSDOCK. -/
def Berth.askMove (x : Berth) (cause k n : Nat) : Berth :=
  if x.hasTime then { x with reloc := cause, dest := some (x.die, k, n), closeReq := true }
  else { x with reloc := cause, dest := some (x.die, k, n), moving := true }

/-- Change the slice of a unit. -/
def State.modSlice (s : State) (z : Slice) (f : Slice → Slice) : State :=
  { s with slices := s.slices.map (fun y => if y.die = z.die ∧ y.kind = z.kind ∧ y.unit = z.unit then f y else y) }

/-- The key store of quay q is cleared before its scan, and ST_SECCLR says so (R522). -/
def State.clearKeys (s : State) (q : Nat) : State :=
  ({ s with quays := tput s.quays q { s.quay q with sas := [] } {} }).setFlag (dieAddr (quayDie q) R.ST_SECCLR) (q % 18) true

/-- SELFTEST_TURN_START: the first slice of the queue of die d whose unit allows it starts a turn, within K where STAGGER is set; a slice of an ACTIVE slot
starts a rotation (R516, R518, R519). -/
def execSelftestTurnStart (d at_ : Nat) (s : State) : Answer :=
  s.onDie d (.next (
    let u := s.at at_
    let cfg := dieAddr d R.ST_CFG
    let run := (u.slices.filter (fun z => decide (z.die = d) && z.running)).length
    if u.deputyHalted d = true ∨ u.serving = false ∨ (u.flag cfg 1 = true ∧ u.fld cfg 12 8 ≤ run) then u
    else match u.slices.find? (fun z => decide (z.die = d) && !z.running && (u.mayTurn z || (u.mayRotate z).isSome)) with
      | none => u
      | some z => match u.mayRotate z with
        | some (x, m) => u.setBerth (x.askMove 2 x.dock m)
        | none =>
          let t := u.modSlice z (fun y => { y with running := true, turnAt := u.htime })
          match z.kind with
          | 1 => (t.setFlag (dockAddr d z.unit R.DK_PIPE) 0 true).setPipe d z.unit
              { t.pipeOf d z.unit with testFault := (t.pipeOf d z.unit).testFault && z.left != sliceLen 1 }
          | 5 => t.clearKeys z.unit
          | _ => t))

/-- The running slice of a unit. -/
def State.runningSlice (s : State) (d kind unit : Nat) : Option Slice :=
  s.slices.find? (fun z => decide (z.die = d ∧ z.kind = kind ∧ z.unit = unit) && z.running)

/-- BUDGET of die d in ns, none where turns are not limited. -/
def State.budget (s : State) (d : Nat) : Option Nat :=
  if s.flag (dieAddr d R.ST_CFG) 2 then some (s.fld (dieAddr d R.ST_CFG) 31 16 * 1000) else none

/-- Nanoseconds that the rest of a slice takes at the die's DCLK (R516). -/
def State.sliceNeeds (s : State) (z : Slice) : Nat := (z.left * 1200 + s.dclk z.die - 1) / s.dclk z.die

/-- SELFTEST_BUDGET_END: a turn ends after BUDGET µs, and the slice, still unfinished, goes to the back of the queue (R518). -/
def execSelftestBudgetEnd (d kind unit at_ : Nat) (s : State) : Answer :=
  s.onDie d (.next (
    let u := s.at at_
    match u.runningSlice d kind unit, u.budget d with
    | some z, some b =>
      if u.htime < z.turnAt + b ∨ u.sliceNeeds z ≤ b then u
      else
        let y := { z with running := false, left := z.left - b * u.dclk d / 1200, queuedAt := u.htime }
        { u with slices := (u.dropSlice d kind unit).slices ++ [y] }
    | _, _ => u))

/-- What a march test leaves in a page is open: every byte is drawn (assumption log 9). -/
def State.scramble (s : State) (d p : Nat) : State :=
  (List.range 65536).foldl (fun (t : State) i =>
    let (v, u) := t.draw
    { u with mem := Memory.putByte u.mem (2 * pkgWord d (p * 32768) + i) (BitVec.ofNat 8 v) }) s

/-- The signature that the logic test of a unit must compact into (R517, R579): from the image that the unit's dock or slot runs, or for the spare
pipe and the quay engines from the image last loaded on the die. A bank changed word by word has none that the spec states: it is drawn (assumption
log 84). -/
def State.signature (s : State) (z : Slice) : Nat × State :=
  let k := if z.kind = 0 then z.unit / 32 % 16 else z.unit % 16
  let l := if z.kind = 2 ∨ z.kind = 5 then sigsOf (tget s.dieImg z.die [])
    else (s.csBank z.die k (s.fld (dockAddr z.die k R.MC_CTL) 0 0)).sigs
  match l[z.kind]? with
  | some v => (v, s)
  | none => (s.draw.1 % 2 ^ 32, s.draw.2)

/-- Key of the spare rows used of a memory of a unit: its index is the ADDR of the self-test record. -/
def memKey (z : Slice) (mem : Nat) : Nat := ((z.die * 8 + z.kind) * 2048 + z.unit) * 2 ^ 32 + mem % 2 ^ 32

/-- What the tests of a slice, but for a cellar page, find (R265, R517): RESULT and REPAIRS. A logic failure is a signature that differs, or a check of
the pipe during the turn; bit 255 says that no memory failed, else rows rows of the memory at addr did: those of a slot or a pipe are repaired while
the memory's two spare rows last. -/
def State.sliceFinds (s : State) (z : Slice) (sig bit addr rows : Nat) : (Nat × Nat) × State :=
  let (want, t) := s.signature z
  let used := tget t.memRows (memKey z addr) 0
  if sig % 2 ^ 32 ≠ want ∨ (z.kind = 1 ∧ (t.pipeOf z.die z.unit).testFault = true) then ((1, 0), t)
  else if bit = 255 then ((0, 0), t)
  else if z.kind ≤ 2 ∧ used + max 1 rows ≤ 2 then
    ((2, max 1 rows), { t with memRows := tput t.memRows (memKey z addr) (used + max 1 rows) 0 })
  else ((3, 0), t)

/-- The unit of an ended slice takes its state: a slot SPARE or RETIRED (R508, R519), a dock back on its own pipe (R265), an engine accepting items
again (R381), a cellar row repaired (R64, R66). The answer holds RESULT and REPAIRS. -/
def State.sliceOutcome (s : State) (z : Slice) (result rows addr : Nat) : (Nat × Nat) × State :=
  let d := z.die
  let ok := decide (result = 0 ∨ result = 2)
  match z.kind with
  | 0 =>
    let k := z.unit / 32 % 16
    let n := z.unit % 32
    ((result, rows), if ok then s.slotPassed d k n else s.slotRetired d k n)
  | 1 => ((result, rows),
      if ok then (s.ownPipe d z.unit).setPipe d z.unit {
        s.pipeOf d z.unit with failed := false, dead := false, testFault := false, lastRelease := s.htime }
      else s.setPipe d z.unit { s.pipeOf d z.unit with failed := true, testFault := false, testFailed := true })
  | 2 => ((result, rows), s.setSpareFailed d (!ok))
  | 3 => ((result, rows), if ok then s.setFlag (dockAddr d z.unit R.FY_STAT) 8 false else s)
  | 4 => ((result, rows), if ok then s.setFlag (dockAddr d z.unit R.LT_STAT) 8 false else s)
  | 5 => ((result, rows), s)
  | _ =>
    let t := s.scramble d z.unit
    if result = 0 then ((0, 0), t)
    else
      let left := decide (s.fld (dieAddr d (R.ST_REPAIR + 4 * bankOf addr)) 5 0 < 32)
      (if left then (2, 1) else (3, 0), t.useSpare d (bankOf addr) (rowOf addr) 2)

/-- SELFTEST_SLICE_END: the slice of a unit ends with a result, a record and the unit's new state (R517, R521, R579). sig is what the responses of the
logic test compacted into; bit is the first failing bit of the march test, 255 with none, at addr, and rows the rows of a slot's or a pipe's memory
that fail (assumption log 84). A dock moves back to its own pipe between two line compositions only. -/
def execSelftestSliceEnd (d kind unit sig bit addr rows at_ : Nat) (s : State) : Answer :=
  s.onDie d (.next (
    let u := s.at at_
    match u.runningSlice d kind unit with
    | none => u
    | some z =>
      let need := u.sliceNeeds z
      let cut := match u.budget d with
        | some b => decide (b < need)
        | none => false
      if u.deputyHalted d = true ∨ cut = true ∨ (kind = 1 ∧ (u.pipeOf d unit).cur.isSome = true) then u
      else
        let t := (u.at (z.turnAt + need)).dropSlice d kind unit
        let where_ := if kind = 6 then unit * 32768 + addr % 32768 else addr
        let f := if kind = 6 then ((b2n (decide (bit ≠ 255)), 0), t) else t.sliceFinds z sig bit where_ rows
        let o := f.2.sliceOutcome z f.1.1 f.1.2 where_
        if o.1.1 ≤ 1 then o.2.recordTest d kind unit o.1.1 255 0 0 else o.2.recordTest d kind unit o.1.1 bit o.1.2 where_))

/-- JTAG_SCAN_ENTER: a JTAG scan instruction clears every quay key store, the SPDM session keys, the attestation key and the boot key store; slot 5 of die 0
is extended when one is first entered (R522, Table 16-7). -/
def execJtagScanEnter (at_ : Nat) (s : State) : Answer :=
  .next (
    let u := s.at at_
    if !u.tapUp then u else
    let t := (List.range (u.part.dies * 18)).foldl (fun (t : State) q => t.clearKeys q) u
    let jtag : List Byte := [0x4A, 0x54, 0x41, 0x47, 0x2D, 0x53, 0x43, 0x41, 0x4E]
    let t1 := if u.scanned then t else t.extend 0 5 (sha384 jtag)
    { t1 with sessions := [], attKey := none, keyStore := none, scanned := true })

/-- SELFTEST_POLICY (R516): ST_CFG and ST_PERIOD of the dies named. -/
def cmdSelftestPolicy (s : State) (c : Cmd) : Res :=
  let d := c.b 24
  let k := c.b 26
  let b := c.p 28 2
  if d ≠ 0xFF ∧ s.hasDie d = false then .err 3
  else if k < 1 ∨ 16 < k ∨ (bitOf (c.b 25) 2 = true ∧ (b < 1 ∨ 10000 < b)) then .err 2
  else
    let dies := if d = 0xFF then List.range s.part.dies else [d]
    .ok 0 [] (dies.foldl (fun (t : State) n =>
      (t.setReg (dieAddr n R.ST_CFG) (c.b 25 % 8 + k * 2 ^ 8 + b * 2 ^ 16)).setReg (dieAddr n R.ST_PERIOD) (c.p 32 4)) s)

/-- SELFTEST_POLICY: the self-test settings of one die or of all (R516). -/
def execSelftestPolicy (c : Cmd) (at_ : Nat) (s : State) : Answer := .next (s.host 0x38 c at_ cmdSelftestPolicy)

/-- A self-test record as SELFTEST_REPORT writes it (Table 13-12). -/
def TestRec.bytes (r : TestRec) : List Byte :=
  le32 r.seq ++ leBytes 1 r.die ++ leBytes 1 r.kind ++ leBytes 2 r.unit ++ leBytes 1 r.result ++ leBytes 1 r.bit ++
    leBytes 2 r.repairs ++ le32 r.addr ++ leBytes 8 r.htime ++ leBytes 8 0

/-- SELFTEST_REPORT (R480): the records from FROMSEQ, oldest first, as many as DLEN holds. -/
def cmdSelftestReport (s : State) (c : Cmd) : Res :=
  let d := c.b 24
  if d ≠ 0xFF ∧ s.hasDie d = false then .err 3
  else
    let fails := bitOf (c.b 25) 0
    let l := (s.testLog.filter (fun r => decide ((d = 0xFF ∨ r.die = d) ∧ c.p 28 4 ≤ r.seq) &&
      (!fails || decide (r.result = 1 ∨ r.result = 3)))).take (c.dlen / 32)
    let oldest := fun (n : Nat) => match s.testLog.find? (fun r => decide (r.die = n)) with
      | some r => r.seq
      | none => s.reg (dieAddr n R.ST_SEQ)
    let first := if d = 0xFF then (List.range s.part.dies).foldl (fun m n => min m (oldest n)) (oldest 0) else oldest d
    .ok (l.length + first * 2 ^ 32) (l.flatMap TestRec.bytes) s

/-- SELFTEST_REPORT: self-test records are written (R480). -/
def execSelftestReport (c : Cmd) (at_ : Nat) (s : State) : Answer := .next (s.host 0x39 c at_ cmdSelftestReport)

end Sys2Proof.Machine
end

