-- ==== Sys2Proof/Machine/Keeper.lean ====
section
/-! DEFINITION. The keeper: power-up, shutdown, supply return, wakes, the calendar and its alarm; the thermal trip and cold reset
(R546 to R556, R607). -/

namespace Sys2Proof.Machine

/-- A register of the KP_ block. -/
def kpReg (a : Nat) : Bool := decide (0x70000 ≤ a ∧ a < 0x80000)

/-- What is left when DCLK and the links stop and the core supplies go (R549, R551, R566): the keeper, the flash, OTP and the pads. -/
def State.unpower (s : State) : State :=
  { State.cold s.part with
    pending := s.pending, draws := s.draws, pads := s.pads, sync := s.sync, outside := s.outside, flash := s.flash, otp := { s.otp with shut := false }
    regs := s.regs.filter (fun e => kpReg e.1), keeper := { s.keeper with pending := none }, thermTrip := s.thermTrip
    eps := [{ perst := (s.ep 0).perst }, { perst := (s.ep 1).perst }] }

/-- The core supplies are good and PORST_N is low: the device is in reset, its quays idle and its endpoints absent (R48, Table 1-8). -/
def State.inReset (s : State) : State := s.withPads (fun u => { u.unpower with keeper := { u.keeper with phase := .reset, pending := none } })

/-- The core supplies are good and PORST_N has been released (R49, R547): the cold state, with link training where PERST_N is high (R447). -/
def State.released (s : State) : State :=
  s.withPads (fun u =>
    let t := u.unpower
    { t with keeper := { t.keeper with phase := .on, pending := none }, eps := t.eps.map (fun x => { x with training := !x.perst }) })

/-- The keeper asserts PWREN0 to PWREN3 and waits for PWRGD (R547). -/
def State.powerUp (s : State) : State :=
  { s with keeper := { s.keeper with phase := .wait, held := false, trip := false, pwren := 15 } }

/-- Step 1 of a shutdown (R549); one in progress goes on as it is. -/
def State.startShutdown (s : State) (trip : Bool) : State :=
  if s.keeper.phase = .off ∨ s.keeper.phase = .shut then s
  else
    let t := s.withPads (fun u => let v := u.unpower; { v with keeper := { v.keeper with phase := .shut, trip := trip, held := false } })
    t.setFlag R.KP_STAT 7 true

/-- Harbour time reaches t where it runs. -/
def State.kat (s : State) (t : Nat) : State := if s.keeper.phase = .on then s.at t else s

/-- A wake or alarm with its power bit: it powers the package up, or is held during a shutdown (R547, R550). -/
def State.callPower (s : State) (p : Bool) : State :=
  if !p then s
  else match s.keeper.phase with
    | .off => s.powerUp
    | .shut => { s with keeper := { s.keeper with held := true } }
    | _ => s

/-- A detected wake of pin WAKEn (R552). -/
def State.wake (s : State) (n : Nat) : State :=
  (s.withLevel 0 498 (fun t => t.setFlag R.KP_WAKESTAT n true)).callPower (s.flag R.KP_WAKECFG (4 * n + 2))

/-- KEEPER_WAKE: pin WAKEn is sampled at a level; an edge or a low level of its MODE is a wake (R552). -/
def execKeeperWake (n : Nat) (level : Bool) (at_ : Nat) (s : State) : Answer :=
  if 4 ≤ n then .fault (.noSuchUnit "wake pin")
  else .next (
    let u := s.kat at_
    if !u.keeper.vkeep then u
    else
      let old := u.flag R.KP_WAKESTAT (8 + n)
      let t := u.setFlag R.KP_WAKESTAT (8 + n) level
      let hit := match u.fld R.KP_WAKECFG (4 * n + 1) (4 * n) with
        | 1 => !old && level
        | 2 => old && !level
        | 3 => !level
        | _ => false
      if hit then t.wake n else t)

/-- A Gregorian leap year (R553). -/
def leapYear (y : Nat) : Bool := decide (y % 4 = 0 ∧ (y % 100 ≠ 0 ∨ y % 400 = 0))

/-- Days of a month (R553). -/
def daysIn (y m : Nat) : Nat :=
  match m with
  | 2 => if leapYear y then 29 else 28
  | 4 => 30
  | 6 => 30
  | 9 => 30
  | 11 => 30
  | _ => 31

/-- The day of the week, 0 for Monday (R553). -/
def weekDay (y m d : Nat) : Nat :=
  let n := y - 2000
  let years := 365 * n + (n + 3) / 4 - (n + 99) / 100 + (n + 399) / 400
  let months := (List.range (m - 1)).foldl (fun a i => a + daysIn y (i + 1)) 0
  (5 + years + months + (d - 1)) % 7

/-- A date and time of the calendar. -/
structure Cal where
  y : Nat
  mo : Nat
  d : Nat
  h : Nat
  mi : Nat
  se : Nat
  deriving DecidableEq, Repr

/-- The date and time in a pair of calendar registers. -/
def calOf (t d : Nat) : Cal := ⟨bitsOf d 27 16, bitsOf d 11 8, bitsOf d 4 0, bitsOf t 16 12, bitsOf t 11 6, bitsOf t 5 0⟩

/-- The staged value is accepted (R554). -/
def Cal.ok (c : Cal) : Bool :=
  decide (2000 ≤ c.y ∧ c.y ≤ 2999 ∧ 1 ≤ c.mo ∧ c.mo ≤ 12 ∧ 1 ≤ c.d ∧ c.d ≤ daysIn c.y c.mo ∧ c.h ≤ 23 ∧ c.mi ≤ 59 ∧ c.se ≤ 59)

/-- The last second of the calendar (R553). -/
def Cal.last (c : Cal) : Bool := decide (c = ⟨2999, 12, 31, 23, 59, 59⟩)

/-- One second later (R553). -/
def Cal.next (c : Cal) : Cal :=
  if c.se < 59 then { c with se := c.se + 1 }
  else if c.mi < 59 then { c with se := 0, mi := c.mi + 1 }
  else if c.h < 23 then { c with se := 0, mi := 0, h := c.h + 1 }
  else if c.d < daysIn c.y c.mo then { c with se := 0, mi := 0, h := 0, d := c.d + 1 }
  else if c.mo < 12 then { c with se := 0, mi := 0, h := 0, d := 1, mo := c.mo + 1 }
  else { y := c.y + 1, mo := 1, d := 1, h := 0, mi := 0, se := 0 }

/-- The calendar's registers. -/
def State.cal (s : State) : Cal := calOf (s.reg R.KP_CALTIME) (s.reg R.KP_CALDATE)

/-- Set the calendar with a SUBSEC; WDAY is derived (R553). -/
def State.setCal (s : State) (c : Cal) (sub : Nat) : State :=
  (s.setReg R.KP_CALTIME (c.se + c.mi * 2 ^ 6 + c.h * 2 ^ 12 + sub * 2 ^ 17)).setReg R.KP_CALDATE
    (c.d + c.mo * 2 ^ 8 + weekDay c.y c.mo c.d * 2 ^ 12 + c.y * 2 ^ 16)

/-- The first keeper cycle of a second: CALEND at the last one, and the alarm's match (R553, R556). -/
def State.newSecond (s : State) : State :=
  let c := s.cal
  let t := if c.last then s.setFlag R.KP_STAT 2 true else s
  let a := t.reg R.KP_ALARM
  let day := bitsOf a 21 17
  if bitOf a 31 ∧ bitsOf a 5 0 = c.se ∧ bitsOf a 11 6 = c.mi ∧ bitsOf a 16 12 = c.h ∧ (day = 0 ∨ day = c.d) then
    (t.withLevel 0 498 (fun v => v.setFlag R.KP_WAKESTAT 4 true)).callPower (t.flag R.KP_WAKECFG 16)
  else t

/-- Seconds pass; the calendar stops at its last second (R553). -/
def State.seconds (s : State) : Nat → State
  | 0 => s
  | n + 1 => if s.cal.last then s.setFlag R.KP_STAT 2 true else ((s.setCal s.cal.next 0).newSecond).seconds n

/-- CALENDAR_TICK: n keeper cycles pass, as TRIM corrects them: SUBSEC counts, the calendar carries, and low-level wakes set their bits again
(R552, R553, R556). 32,768 cycles are one second. -/
def execCalendarTick (n at_ : Nat) (s : State) : Answer :=
  .next (
    let u := s.kat at_
    if !u.keeper.vkeep ∨ n = 0 then u
    else
      let sub := u.fld R.KP_CALTIME 31 17 + n
      let t := if u.cal.last then u.setFlag R.KP_STAT 2 true
        else
          let v := u.seconds (sub / 32768)
          v.setFld R.KP_CALTIME 31 17 (if v.cal.last ∧ 0 < sub / 32768 then 0 else sub)
      (List.range 4).foldl (fun (v : State) i =>
        if v.fld R.KP_WAKECFG (4 * i + 1) (4 * i) = 3 ∧ v.flag R.KP_WAKESTAT (8 + i) = false then v.wake i else v) t)

/-- CAL_LOAD: a write of KP_CALCTL: TRIM, and with LOAD the staged date and time are checked whole and loaded, or CALERR is set (R554). -/
def execCalLoad (r : Requester) (v at_ : Nat) (s : State) : Answer :=
  .next (s.rowWrite r R.KP_CALCTL at_ (fun u =>
    let t := u.setReg R.KP_CALCTL (bitsOf v 15 8 * 2 ^ 8)
    let c := calOf (t.reg R.KP_CALNTIME) (t.reg R.KP_CALNDATE)
    if !bitOf v 0 ∨ !u.keeper.vkeep then t
    else if c.ok then (((t.setCal c 0).setFlag R.KP_STAT 0 true).setFlag R.KP_STAT 2 false).newSecond
    else t.setFlag R.KP_STAT 1 true))

/-- KEEPER_SHUTDOWN: a write of KP_SHUT: RESTART, and with GO the shutdown starts (R548, R549). -/
def execKeeperShutdown (r : Requester) (v at_ : Nat) (s : State) : Answer :=
  .next (s.rowWrite r R.KP_SHUT at_ (fun u =>
    let t := u.setReg R.KP_SHUT (bitsOf v 1 1 * 2)
    if bitOf v 0 ∧ t.keeper.vkeep then t.startShutdown false else t))

/-- PWRGD_RISE: the board raises PWRGD during a power-up: the core supplies are good, and the package is in reset until PORST_N rises, which COLD_RESET
gives (R48, R547). A rise during a shutdown is ignored (R550). -/
def execPwrgdRise (s : State) : Answer := .next (if s.keeper.phase = .wait then s.inReset else s)

/-- PWRGD_TIMEOUT: PWRGD has not risen within PGTO: PGFAIL, and a shutdown (R547). -/
def execPwrgdTimeout (s : State) : Answer :=
  .next (if s.keeper.phase = .wait then (s.setFlag R.KP_STAT 6 true).startShutdown false else s)

/-- SUPPLY_LOSS: PWRGD falls without a shutdown: SUPLOSS, and a shutdown (R548). -/
def execSupplyLoss (at_ : Nat) (s : State) : Answer :=
  .next (if s.keeper.phase = .on ∨ s.keeper.phase = .reset then ((s.kat at_).setFlag R.KP_STAT 5 true).startShutdown false else s)

/-- Milliseconds from a shutdown's start to its hold-off (Table 15-7). -/
def State.holdoffAt (s : State) : Nat :=
  let q := s.reg R.KP_SEQ
  1 + bitsOf q 23 16 + bitsOf q 15 8 + bitsOf q 7 0

/-- PWREN0 to PWREN3 ms after the start of a shutdown: PWREN3 goes after 1 ms, the others in turn after DLY23, DLY12 and DLY01 (Table 15-7). -/
def State.enablesAt (s : State) (ms : Nat) : Nat :=
  let q := s.reg R.KP_SEQ
  let a := 1 + bitsOf q 23 16
  let b := a + bitsOf q 15 8
  if ms < 1 then 15 else if ms < a then 7 else if ms < b then 3 else if ms < b + bitsOf q 7 0 then 1 else 0

/-- SHUTDOWN_HOLDOFF_END: ms after its start a shutdown stands where Table 15-7 puts it: the enables gone and the hold-off begun, or the hold-off ended, which
a held wake or RESTART follows with a power-up unless a thermal trip was the cause (R549, R550). -/
def execShutdownHoldoffEnd (ms : Nat) (s : State) : Answer :=
  .next (
    if s.keeper.phase ≠ .shut then s
    else if ms < s.holdoffAt then { s with keeper := { s.keeper with pwren := s.enablesAt ms } }
    else
      let t := { s with thermTrip := false, keeper := { s.keeper with pwren := 0 } }.setFlag R.KP_STAT 8 true
      if ms < s.holdoffAt + 10 then t
      else
        let u := (t.setFlag R.KP_STAT 7 false).setFlag R.KP_STAT 8 false
        let v := { u with keeper := { u.keeper with phase := .off } }
        if !v.keeper.trip && (v.keeper.held || v.flag R.KP_SHUT 1) then v.powerUp
        else { v with keeper := { v.keeper with held := false, trip := false } })

/-- VKEEP_LOSS: VKEEP falls below 1.6 V (R551): the keeper stops. -/
def execVkeepLoss (s : State) : Answer := .next { s with keeper := { s.keeper with vkeep := false } }

/-- VKEEP_APPLY: VKEEP rises after a loss: the keeper takes its reset values, scratch is undefined (drawn, assumption log 9), and AUTOON powers the
package up (R547, R551). -/
def execVkeepApply (s : State) : Answer :=
  .next (
    if s.keeper.vkeep then s
    else
      let t := { s.unpower with regs := [], keeper := { phase := .off, pwren := 0 }, thermTrip := false }
      let u := (List.range 64).foldl (fun (t : State) i =>
        let (v, w) := t.draw
        w.setReg (R.KP_SCRATCH + 4 * i) v) t
      u.powerUp)

/-- THERMAL_TRIP: a sensor of die d reads tj: at 115 °C THERMTRIP_N is driven low, DCLK stops and the shutdown starts (R546). -/
def execThermalTrip (d tj at_ : Nat) (s : State) : Answer :=
  s.onDie d (.next (
    if (s.keeper.phase ≠ .on ∧ s.keeper.phase ≠ .reset) ∨ tj < 115 then s
    else
      let t := ((s.kat at_).setFlag R.KP_STAT 4 true).startShutdown true
      { t with thermTrip := true }))

/-- COLD_RESET: PORST_N is low for dur ns: 10 µs or more is a cold reset, which leaves the keeper unchanged; under 1 µs nothing happens; between, the
spec says neither, and the choice is drawn (assumption log 9) (R607). In a package that is in reset since its power-up PORST_N rises after dur ns, and
the reset ends (R547). -/
def execColdReset (dur : Nat) (s : State) : Answer :=
  .next (
    if s.keeper.phase = .reset then s.released
    else if s.keeper.phase ≠ .on ∨ dur < 1000 then s
    else
      let p := s.draw
      if 10000 ≤ dur then s.released
      else if p.1 % 2 = 0 then p.2 else p.2.released)

end Sys2Proof.Machine
end

