-- ==== Sys2Proof/Machine/Pins.lean ====
section
/-! DEFINITION. The watchdog, GPIO pins, the ADC, the reference monitor, GENLOCK and the fan tachometers (R588 to R603, R608 to R610). -/

namespace Sys2Proof.Machine

/-- A write of HB_WDOG by the harbourmaster; any other requester's is ignored and is not a denial (R608). -/
def State.wdogWrite (s : State) (r : Requester) (at_ : Nat) (f : State → State) : State :=
  let u := s.at at_
  if u.enters r R.HB_WDOG true = false ∨ u.hasReq r = false then u.respond .unsupported
  else if r = .master ∧ u.hmHalt = false then (f u).respond .done else u.respond .done

/-- The 32-bit write of HB_WDOG of v: TIMEOUT is written, which restarts the count (R608). -/
def State.wdogSet (s : State) (v : Nat) : State := { s.setFld R.HB_WDOG 15 0 v with wdogAt := s.htime }

/-- WDOG_KICK: a write of HB_WDOG with KICK 0xA5 restarts the count (R608). -/
def execWdogKick (r : Requester) (v at_ : Nat) (s : State) : Answer :=
  .next (s.wdogWrite r at_ (fun u => if bitsOf v 23 16 = 0xA5 then u.wdogSet v else u))

/-- WDOG_TIMEOUT_SET: a write of HB_WDOG writes TIMEOUT and restarts the count (R608). -/
def execWdogTimeoutSet (r : Requester) (v at_ : Nat) (s : State) : Answer :=
  .next (s.wdogWrite r at_ (fun u => u.wdogSet v))

/-- TIMEOUT in ns: values below 100 ms act as 100 (R608, HB_WDOG). -/
def State.wdogLimit (s : State) : Nat := max 100 (s.fld R.HB_WDOG 15 0) * 1000000

/-- WATCHDOG_EXPIRY: the count has reached TIMEOUT, or the harbourmaster has halted: a warm restart, with a FIRMWARE record once firmware serves; a second
expiry before READY is set writes GO and RESTART to KP_SHUT (R608 to R610). -/
def execWatchdogExpiry (w : BootIn) (at_ : Nat) (s : State) : Answer :=
  .next (
    let u := s.kat at_
    if u.keeper.phase ≠ .on ∨ (u.hmHalt = false ∧ u.htime < u.wdogAt + u.wdogLimit) then u
    else if u.wdogFired = true ∧ u.serving = false then (u.setReg R.KP_SHUT 2).startShutdown false
    else
      let t := u.addFld R.HB_WDOG 31 24 1
      let v := { t.warmRestart w with wdogAt := u.htime }
      if v.serving then v.logFault 13 0 none 0 0 [0] else { v with wdogFired := true })

/-- Pins with an alternate function (Table 17-2). -/
def hasAlt (n : Nat) : Bool := decide (n ≤ 6 ∨ (8 ≤ n ∧ n ≤ 25))

/-- A write of GP_CFGn of v is discarded (R589). -/
def State.cfgRefused (s : State) (n v : Nat) : Bool :=
  let f := v % 4
  decide (f = 3 ∨ (f = 1 ∧ hasAlt n = false) ∨ (f = 2 ∧ n < 40) ∨ (f ≠ 1 ∧ n ≤ 1)) || s.flag (R.LG_PIN + 4 * n) 11

/-- Requester r may change bit n of GP_OUT and GP_OE (Table 17-3); the ledger has passed the write of JTAG. -/
def State.mayDrive (s : State) (r : Requester) (n : Nat) : Bool :=
  let a := R.LG_PIN + 4 * n
  !s.flag a 11 && (match r with
    | .ep _ => s.flag a 12
    | .deputy d => decide (d = 0)
    | .master => true
    | .jtag => true)

/-- The place of a requester in the order of writes of GP_OUT and GP_OE in one cycle (R593); releases come first. -/
def pinRank : Requester → Nat
  | .deputy _ => 1
  | .master => 2
  | .ep _ => 3
  | .jtag => 4

/-- The bits of a register that writers later in the order of R593 have written in this cycle. -/
def State.laterBits (s : State) (a rank : Nat) : Nat :=
  (List.range 5).foldl (fun m k => if rank < k then m ||| tget s.cyc.bits (a * 8 + k) 0 else m) 0

/-- GPIO_OUT_WRITE: a write of v to GP_OUTLO, GP_OUTHI, GP_OELO or GP_OEHI (j = 0 to 3) replaces the bits that its writer may change, and of several writes
in one cycle the later of the order of R593 wins a bit (R592, R593); the pads follow (R591). -/
def execGpioOutWrite (r : Requester) (j v at_ : Nat) (s : State) : Answer :=
  .next (
    let a := R.GP_OUTLO + 4 * (j % 4)
    s.rowWrite r a at_ (fun u =>
      let may := bits32 (fun n => (j % 2 = 0 || n < 16) && u.mayDrive r (j % 2 * 32 + n))
      let m := may - (may &&& u.laterBits a (pinRank r))
      let old := u.reg a
      let key := a * 8 + pinRank r
      u.withPads (fun t => { t.setReg a (old - (old &&& m) + (v &&& m)) with
        cyc := { u.cyc with bits := tput u.cyc.bits key (tget u.cyc.bits key 0 ||| m) 0 } })))

/-- A write of v to GP_CFGn that is not discarded (R600, R601): a change of FUNC starts a switch, whose edges harbour time brings; a write during one joins
it; any other field changes at once. -/
def State.writeCfg (s : State) (n v : Nat) : State :=
  let a := R.GP_CFG + 4 * n
  match s.switchOf n with
  | some w => s.newCfg n (fun t => (t.setReg a v).setSwitch { w with last := s.htime })
  | none =>
    if v % 4 = s.fld a 1 0 then s.withPads (fun t => t.newCfg n (fun u => u.setReg a v))
    else { s.setReg a v with switches := s.switches ++ [{ pin := n, old := s.reg a, first := s.htime, last := s.htime }] }

/-- GPIO_FUNCTION_SWITCH: a write of GP_CFGn: the pin's function is switched and its settings change, or CFGERR is set (R589, R600, R601). -/
def execGpioFunctionSwitch (r : Requester) (n v at_ : Nat) (s : State) : Answer :=
  if 48 ≤ n then .fault (.noSuchUnit "pin")
  else .next (
    s.rowWrite r (R.GP_CFG + 4 * n) at_ (fun u => if u.cfgRefused n v then u.setFlag R.GP_STAT 0 true else u.writeCfg n (v % 4096)))

/-- GPIO_EVENT: the board gives the pad of pin n a level (R591, R595). -/
def execGpioEvent (n : Nat) (level : Bool) (at_ : Nat) (s : State) : Answer :=
  if 48 ≤ n then .fault (.noSuchUnit "pin") else .next ((s.at at_).boardLevel n level)

/-- GENLOCK_EDGE: a rising edge on GPIO25, which the GENLOCK function counts and stamps (R588). -/
def execGenlockEdge (at_ : Nat) (s : State) : Answer :=
  .next (((s.at at_).boardLevel 25 false).boardLevel 25 true)

/-- The ADC channel converted next: the enabled analogue channels in ascending order, each in turn (R590). -/
def State.nextChannel (s : State) : Option Nat :=
  let on := (List.range 8).filter (fun c => s.flag R.GP_ADCCTL c && s.analogPin (40 + c))
  match on.find? (fun c => decide (s.adcAt ≤ c)) with
  | some c => some c
  | none => on.head?

/-- ADC_CONVERSION: the next enabled channel converts a voltage of uv µV: floor(4,096 × V / 1.5 V), at most 4,095 (R590). -/
def execAdcConversion (uv at_ : Nat) (s : State) : Answer :=
  .next (
    let u := s.at at_
    match u.nextChannel with
    | none => u
    | some c =>
      let a := R.GP_ADC + 4 * c
      { (u.setFld a 11 0 (min 4095 (4096 * uv / 1500000))).addFld a 31 16 1 with adcAt := c + 1 })

/-- REFCLK_LOSS: REFCLK stops or glitches: holdover starts, and REFLOSS is set on every die (R38, R603). -/
def execRefclkLoss (at_ : Nat) (s : State) : Answer :=
  .next (
    let u := s.at at_
    (List.range u.part.dies).foldl (fun (t : State) d =>
      let a := dieAddr d R.HB_CLKSTAT
      t.withLevel d 425 (fun v => ((v.setFlag a 0 false).setFlag a 1 true).setFlag a 3 true)) u)

/-- REFCLK_REQUALIFY: after 1 ms of clean periods REFOK returns and holdover ends; the offset then found, in ps, is any (R104, R603, assumption
log 102). -/
def execRefclkRequalify (at_ : Nat) (s : State) : Answer :=
  .next (
    let u := s.at at_
    let v := if u.flag R.HB_CLKSTAT 1 then
        let (o, w) := u.drawInt
        w.setCorr (w.corr + o * 5)
      else u
    v.eachClkstat (fun t a => (t.setFlag a 0 true).setFlag a 1 false))

/-- FAN_TACH_SECOND: harbour time reaches its next whole second: each GP_TACHk takes the falling edges counted in it, and STALL sets after two seconds
with none (R588). -/
def execFanTachSecond (s : State) : Answer :=
  .next (
    let u := s.at ((s.htime / 1000000000 + 1) * 1000000000)
    (List.range 4).foldl (fun (t : State) k =>
      let n := tget t.toggles k 0
      let idle := if n = 0 then min 2 (tget t.toggles (4 + k) 0 + 1) else 0
      let v := { t with toggles := tput (tput t.toggles k 0 0) (4 + k) idle 0 }
      v.setReg (R.GP_TACH + 4 * k) (min 65535 n + b2n (decide (idle = 2)) * 2 ^ 16)) u)

end Sys2Proof.Machine
end

