-- ==== Sys2Proof/Machine/HostCmd.lean ====
section
/-! DEFINITION. Host commands that act on no page: ECHO, profiles, clocks, the fault log and the berth status block (R463, R476, R479, R485,
R488). -/

namespace Sys2Proof.Machine

/-- ECHO: its result is its data (Table 13-7). -/
def cmdEcho (s : State) (c : Cmd) : Res := .ok (c.p 24 8) [] s

/-- ECHO: the command that returns its data. -/
def execEcho (c : Cmd) (at_ : Nat) (s : State) : Answer := .next (s.host 0x01 c at_ cmdEcho)

/-- The descriptor in slot n of the profile table, 128 bytes. -/
def State.profileBytes (s : State) (n : Nat) : List Byte := sliceD (s.profTable.getD n []) 0 128 0

/-- A profile slot holds a descriptor: it is neither all zero nor erased (R486). -/
def State.hasProfile (s : State) (n : Nat) : Bool :=
  !(s.profileBytes n).all (fun b => decide (b = 0)) && !(s.profileBytes n).all (fun b => decide (b = 255))

/-- PROFILE_QUERY: the descriptor and its marks PRESENT, ACTIVE, PENDING (R488). -/
def cmdProfileQuery (s : State) (c : Cmd) : Res :=
  let n := c.b 24
  if 3 < n ∨ c.dlen < 128 then .err 2
  else
    .ok (b2n (s.hasProfile n) + 2 * b2n (decide (s.prof.index = n)) + 4 * b2n (decide (s.keeper.pending = some n))) (s.profileBytes n) s

/-- PROFILE_QUERY: a profile descriptor is written. -/
def execProfileQuery (c : Cmd) (at_ : Nat) (s : State) : Answer := .next (s.host 0x02 c at_ cmdProfileQuery)

/-- PROFILE_SELECT: the pending index is recorded (R485, R486). -/
def cmdProfileSelect (s : State) (c : Cmd) : Res :=
  let n := c.b 24
  if 3 < n then .err 2
  else if !s.hasProfile n then .err 13
  else
    .ok (s.fld R.HB_PRFSEL 3 2) []
      (({ s with keeper := { s.keeper with pending := some n } }.setFld R.HB_PRFSEL 3 2 n).setFlag R.HB_PRFSEL 4 true)

/-- The command is fetched now and answers OK. -/
def State.wouldDo (s : State) (op : Nat) (c : Cmd) (body : State → Cmd → Res) : Bool :=
  s.canFetch op c && !reservedSet op c && (!scopeD op || c.memOk) && !s.noDeputy op c &&
  (match body s c with
    | .ok _ _ _ => true
    | _ => false)

/-- PROFILE_SELECT: a pending profile is recorded; with RESTART the warm restart begins once the completion is posted (R485). w is what the
boot of that restart meets. One with RESTART that FENCE holds back is fetched once it may start (assumption log 136). -/
def execProfileSelect (c : Cmd) (w : BootIn) (at_ : Nat) (s : State) : Answer :=
  .next (
    let u := s.at at_
    let t := u.host 0x03 c at_ cmdProfileSelect
    if !bitOf (c.b 25) 0 then t
    else if u.wouldDo 0x03 c cmdProfileSelect then t.warmRestart w
    else if c.opcode = 0x03 ∧ u.mayStart 0x03 c = false then u
    else t)

/-- Harbour time is set to t (R36, R103, R393, R476): forward in one step, in which each enabled harbour timer advances by the units skipped, and
backward as a correction that a reduced count rate applies; beams take either as an offset, and it replaces a correction still to be applied. -/
def State.jumpTime (s : State) (t : Nat) : State :=
  if t ≤ s.htime then s.setCorr (((t : Int) - s.htime) * 5000)
  else
    let old := s.htime
    let s0 := s.setCorr (((t : Int) - old) * 5000)
    let s1 := { s0 with htime := t, corr := 0, cyc := {} }
    let s2 := s.liveTimers.foldl (fun (u : State) a =>
      let p := 2 ^ s.fld a 7 4
      u.timerAt a (t / p - old / p) none) s1
    (match s.htT with
      | some z => if old < z ∧ z ≤ t then s2.htRelease z else s2
      | none => s2).timeUp

/-- Name the time-receiver quays, and their class of harbour traffic (R422, R440). -/
def State.setPtp (s : State) (l : List Nat) (cls : Nat) : State :=
  l.foldl (fun (t : State) q => t.setFld (quayAddr q R.QY_CFG) 10 8 cls) { s with ptp := l }

/-- The governor registers of a berth (R100, R101). -/
def Berth.setGov (x : Berth) (mode num den phase : Nat) : Berth :=
  (((x.setReg R.BM_GOVCFG (mode % 2)).setReg R.BM_FPNUM num).setReg R.BM_FPDEN (den % 65536)).setReg R.BM_FPPHASE phase

/-- CLOCK_CONFIG: harbour time, the PTP quays and a berth's governor registers (R476). -/
def cmdClockConfig (s : State) (c : Cmd) : Res :=
  let f := c.b 24
  let q2 := c.b 26
  let quays := if q2 = 0xFF then [c.b 25] else [c.b 25, q2]
  if bitOf f 1 && quays.any (fun q => !s.hasQuay q) then .err 3
  else
    let s1 := if bitOf f 0 then s.jumpTime (c.p 28 8) else s
    let s2 := if bitOf f 1 then s1.setPtp quays (c.b 27 % 8) else s1
    if bitOf f 2 then
      s.onBerth c [0, 1, 2, 3, 4] (fun _ =>
        .ok (s2.htime % 2 ^ 64) [] (s2.modBerth c.berth (fun x => x.setGov (c.b 36) (c.p 40 4) (c.p 38 2) (c.p 44 4))))
    else .ok (s2.htime % 2 ^ 64) [] s2

/-- CLOCK_CONFIG as it is fetched: with GOV it acts at the berth's commit (R460). -/
def runClockConfig (s : State) (c : Cmd) : Res :=
  if bitOf (c.b 24) 2 then s.atCommit c (cmdClockConfig s c) else cmdClockConfig s c

/-- CLOCK_CONFIG: harbour time, PTP quays and a governor are set. -/
def execClockConfig (c : Cmd) (at_ : Nat) (s : State) : Answer := .next (s.host 0x04 c at_ runClockConfig)

/-- A fault record as FAULT_LOG_READ writes it (Table 13-11); DETAIL as 32-bit values, least significant byte first. -/
def FaultRec.bytes (r : FaultRec) : List Byte :=
  let b := match r.berth with
    | some n => n + 2 ^ 15
    | none => 0
  le32 r.seq ++ leBytes 1 r.code ++ leBytes 1 r.die ++ leBytes 2 b ++ leBytes 8 r.htime ++ leBytes 2 r.slot ++ leBytes 2 r.unit ++
    sliceD (r.detail.flatMap le32) 0 12 0

/-- FAULT_LOG_READ: the records from FROMSEQ, oldest first, as many as DLEN holds (R479). -/
def cmdFaultLogRead (s : State) (c : Cmd) : Res :=
  let l := (s.faultLog.filter (fun r => decide (c.p 24 4 ≤ r.seq))).take (c.dlen / 32)
  let oldest := match s.faultLog with
    | r :: _ => r.seq
    | [] => s.faultSeq
  .ok (l.length + oldest * 2 ^ 32) (l.flatMap FaultRec.bytes) s

/-- FAULT_LOG_READ: fault records are written. -/
def execFaultLogRead (c : Cmd) (at_ : Nat) (s : State) : Answer := .next (s.host 0x05 c at_ cmdFaultLogRead)

/-- The status block of a berth (Table 13-10). -/
def State.statusBlock (s : State) (x : Berth) : List Byte :=
  let k := x.side.core
  let loc := s.bloc x.id
  leBytes 1 x.stateNo ++ leBytes 1 (k.st.code + 4 * b2n k.double) ++ leBytes 2 (loc % 4096) ++ leBytes 2 x.locGen ++
    leBytes 1 (if x.parked then x.parkCause else 0) ++ [0] ++ leBytes 8 x.side.bt ++ leBytes 2 x.side.beam.frame ++ leBytes 2 x.side.beam.l ++
    leBytes 4 (s.slotView x R.BM_GOVSTAT / 256) ++ leBytes 2 (s.slotView x R.BM_CORESTAT / 65536) ++ leBytes 2 k.xcause.toNat ++
    leBytes 4 x.relocs ++ leBytes 4 x.uLines ++ leBytes 4 x.lateLines ++ leBytes 4 x.stalls ++ leBytes 4 x.storeWaits ++
    leBytes 4 x.ovLines ++ leBytes 4 x.qLines ++ leBytes 8 0

/-- BERTH_STATUS: the status block, 64 bytes (R463, Table 13-10). -/
def cmdBerthStatus (s : State) (c : Cmd) : Res :=
  if c.dlen < 64 then .err 2
  else s.onBerth c [0, 1, 2, 3, 4] (fun x => .ok 0 (s.statusBlock x) s)

/-- BERTH_STATUS: the berth status block is written. -/
def execBerthStatus (c : Cmd) (at_ : Nat) (s : State) : Answer := .next (s.host 0x1C c at_ cmdBerthStatus)

end Sys2Proof.Machine
end

