-- ==== Sys2Proof/Machine/BerthMake.lean ====
section
/-! DEFINITION. Host commands that make and remove berths and act on their pages: BERTH_CREATE, BERTH_DESTROY, SEG_DEFINE, CELLAR_WRITE,
CELLAR_READ, PAGE_SHARE (R464 to R468). -/

namespace Sys2Proof.Machine

/-- Frame buffer pages per buffer and STRIDE for a class and a format (Table 8-1). -/
def fbSize (cls : Nat) (fb32 : Bool) : Nat × Nat :=
  match cls, fb32 with
  | 0, false => (14, 768)
  | 0, true => (27, 1536)
  | 1, false => (64, 1920)
  | 1, true => (127, 3840)
  | _, false => (254, 3840)
  | _, true => (507, 7680)

/-- Page p of die d is FREE, in a cellar group that is ON, and not in a list of pages already taken. -/
def State.pageFree (s : State) (d : Nat) (taken : List Nat) (p : Nat) : Bool :=
  decide (pageState (s.page d p) = 0) && decide (s.domain d (0x10 + p / 2048) = 0) && !taken.contains p

/-- The lowest-numbered run of n pages that meet a test, searched over the k pages from p on; run is how many just before p meet it. -/
def findRun (ok : Nat → Bool) (n p run : Nat) : Nat → Option Nat
  | 0 => none
  | k + 1 =>
    if ok p then (if run + 1 = n then some (p + 1 - n) else findRun ok n (p + 1) (run + 1) k) else findRun ok n (p + 1) 0 k

/-- First fit of n FREE pages of die d outside a list (R464); a run of none starts at page 0. -/
def State.firstRun (s : State) (d n : Nat) (taken : List Nat) : Option Nat :=
  if n = 0 then some 0 else findRun (s.pageFree d taken) n 0 0 16384

/-- Write zeros to every word of a page (R71). -/
def State.zeroPage (s : State) (d p : Nat) : State :=
  let w := pkgWord d (p * 32768)
  { s with
    mem := s.mem.filter (fun e => !decide (2 * w ≤ e.1 ∧ e.1 < 2 * w + 65536))
    ecc := s.ecc.filter (fun e => !decide (w / 4 ≤ e.1 ∧ e.1 < w / 4 + 8192)) }

/-- A fence of die d, awaited: LG_FENCE shows DONE (R80). -/
def State.fenced (s : State) (d : Nat) : State := s.setFlag (dieAddr d R.LG_FENCE) 1 true

/-- Take n pages from page p: after a fence a slice of one is abandoned, each is zeroed, and its entry written (R71, R80, R464, R520). -/
def State.takePages (s : State) (d p n v : Nat) : State :=
  (List.range n).foldl (fun (t : State) i => ((t.abandonSlice d 6 (p + i)).zeroPage d (p + i)).setPage d (p + i) v) (s.fenced d)

/-- The docks of die d that BERTH_CREATE and BERTH_MIGRATE may choose among: ON, below the profile's count, with a SPARE slot (R23, R464). -/
def State.openDock (s : State) (d k : Nat) : Bool :=
  decide (s.domain d k = 0) && decide ((s.slotsIn d k 1).length < s.prof.berths) && !(s.slotsIn d k 0).isEmpty

/-- The dock of a die with the fewest ACTIVE slots, the lowest number among equals, among docks that meet a test. -/
def State.fewestDock (s : State) (d : Nat) (ok : Nat → Bool) : Option Nat :=
  ((List.range 16).filter ok).foldl (fun (b : Option Nat) k => match b with
    | none => some k
    | some m => if (s.slotsIn d k 1).length < (s.slotsIn d m 1).length then some k else some m) none

/-- The dock that BERTH_CREATE uses, or the status that refuses it (R464, Table 13-4). -/
def State.createDock (s : State) (c : Cmd) : Nat ⊕ Nat :=
  let d := c.b 24 % 8
  if bitOf (c.b 24) 7 then
    if s.domain d (c.b 25) ≠ 0 then .inr 8 else if s.openDock d (c.b 25) then .inl (c.b 25) else .inr 7
  else match s.fewestDock d (fun k => decide (s.domain d k = 0)) with
    | some k => if s.openDock d k then .inl k else .inr 7
    | none => .inr 7

/-- The registers that BERTH_CREATE gives a berth (R464, Table 8-1). -/
def createRegs (c : Cmd) (prof : Profile) (first second page : Nat) (x : Berth) : Berth :=
  let f := c.b 27
  let cfg := f % 4 + (fbSize prof.cls (bitOf f 0)).2 * 2 ^ 16
  let x1 := (x.setReg R.DP_FBCFG cfg).setReg R.DP_FB0BASE (first * 512)
  let x2 := if bitOf f 2 then x1.setReg R.DP_FB1BASE (second * 512) else x1
  let x3 := x2.setReg R.DP_OUTCFG (putBits (x2.reg R.DP_OUTCFG) 2 2 (b2n (bitOf f 2)))
  let x4 := x3.setGov (b2n (bitOf f 3)) (c.p 36 4) (c.p 40 2) (c.p 44 4)
  (x4.setReg R.BM_WATCHCFG (if c.b 26 = 0 then prof.watch else c.b 26)).setReg R.BM_WATCHPAGE page

/-- BERTH_CREATE once its fields have been checked: pages are found and taken, and the berth stands STOPPED (R464). -/
def State.create (s : State) (c : Cmd) (k : Nat) : Res :=
  let d := c.b 24 % 8
  let f := c.b 27
  let own := c.p 28 2
  let per := (fbSize s.prof.cls (bitOf f 0)).1
  let fb := if bitOf f 2 then 2 * per else per
  if s.prof.cap < own + fb + 1 then .err 7
  else match s.firstRun d own [] with
  | none => .err 7
  | some a =>
    let t1 := (List.range own).map (· + a)
    match s.firstRun d fb t1 with
    | none => .err 7
    | some b =>
      let t2 := t1 ++ (List.range fb).map (· + b)
      match s.firstRun d 1 t2 with
      | none => .err 7
      | some h =>
        let (free, s0) := s.draw
        let s1 := s0.takePages d a own (pageEntry c.berth 0 true true true true true false false 1)
        let s2 := s1.takePages d b fb (pageEntry c.berth 0 true false false true true false false 4)
        let s3 := s2.takePages d h 1 (pageEntry (free % 2048) 0 false false false true true false false 3)
        let n := (s3.slotsIn d k 0).headD 0
        let groups := c.p 30 2 + c.p 32 2 * 2 ^ 10 + c.p 34 2 * 2 ^ 20
        let s4 := { s3 with groups := tput s3.groups (d * 2048 + c.berth) (w32 groups) 0 }
        let side : BSide := { beam := { geo := s.prof.geo }, bank := s.fld (dockAddr d k R.MC_CTL) 0 0 }
        let x : Berth := { id := c.berth, die := d, dock := k, slot := n, side := side.setShadowGeo s.prof.geo }
        let y := createRegs c s.prof b (b + per) h x
        let (open_, s5) := s4.draw
        .ok (slotLoc d k n + (if own = 0 then open_ % 65536 else a) * 2 ^ 16 + b * 2 ^ 32) []
          ((s5.setSlot d k n 1).setBerth y)

/-- BERTH_CREATE: the checks of Table 13-4, then the creation. -/
def cmdBerthCreate (s : State) (c : Cmd) : Res :=
  let d := c.b 24 % 8
  let w := c.b 26
  if s.part.berthIds ≤ c.berth ∨ s.hasDie d = false ∨ (bitOf (c.b 24) 7 = true ∧ 16 ≤ c.b 25) then .err 3
  else if (s.berth c.berth).isSome then .err 5
  else if (w ≠ 0 ∧ (w < 8 ∨ 32 < w)) ∨ (bitOf (c.b 27) 3 = true ∧ c.p 40 2 = 0) ∨ 1023 < c.p 30 2 ∨ 1023 < c.p 32 2 ∨ 1023 < c.p 34 2 then
    .err 2
  else match s.createDock c with
    | .inr e => .err e
    | .inl k => s.create c k

/-- BERTH_CREATE: a STOPPED berth is placed and its pages are allocated. -/
def execBerthCreate (c : Cmd) (at_ : Nat) (s : State) : Answer := .next (s.host 0x10 c at_ cmdBerthCreate)

/-- Remove the entries of berth b that meet a test from every stream table. -/
def State.dropEntries (s : State) (b : Nat) (p : Nat → Bool) : State :=
  { s with quays := s.quays.map (fun e =>
      (e.1, { e.2 with table := e.2.table.filter (fun r => !(bitOf (r.2.getD 0 0) 11 && decide (bitsOf (r.2.getD 0 0) 10 0 = b) && p r.1)) })) }

/-- The share groups that some berth of die d names. -/
def State.namedGroups (s : State) (d : Nat) : List Nat :=
  (s.groups.filter (fun e => decide (e.1 / 2048 = d))).flatMap (fun e => s.groupsOf d (e.1 % 2048))

/-- A page leaves a destroyed berth for FREE: its OWNED and FRAME pages and its HARBOUR page; SHARED pages whose group no berth of the die names any
longer (R74). -/
def State.leaves (s : State) (x : Berth) (key v : Nat) : Bool :=
  decide (key / 16384 = x.die) &&
  ((decide (pageState v = 1 ∨ pageState v = 4) && decide (bitsOf v 10 0 = x.id)) ||
   (decide (pageState v = 3) && decide (key % 16384 = x.watchPage)) ||
   (decide (pageState v = 2) && !(s.namedGroups x.die).contains (bitsOf v 20 11)))

/-- Return the pages of a destroyed berth to FREE, the reset value of an entry (R74). -/
def State.freePages (s : State) (x : Berth) : State :=
  let t := { s.fenced x.die with groups := tdel s.groups (x.die * 2048 + x.id) }
  { t with pages := t.pages.filter (fun e => !t.leaves x e.1 e.2.toNat) }.settleRetire

/-- The line of berth b in the line buffer of its dock is discarded. -/
def State.dropLine (s : State) (x : Berth) : State :=
  match (s.pipeOf x.die x.dock).cur with
  | some c => if c.berth = x.id then s.dropCur x.die x.dock else s
  | none => s

/-- BERTH_DESTROY: the berth stops at once, its bindings and items go, its pages and its slot are returned (R465). -/
def State.destroy (s : State) (x : Berth) : State :=
  let s1 := (s.dropEntries x.id (fun _ => true)).dropLine x
  let s2 := (s.lentPins x.id).foldl (fun (t : State) n =>
    t.withLevel 0 (448 + n) (fun u => u.setFlag (R.LG_PIN + 4 * n) 11 false)) s1
  let s3 := { s2 with berths := tdel s2.berths x.id }.freePages x
  if x.parked then s3 else s3.slotToTest x.die x.dock x.slot false

/-- BERTH_DESTROY. -/
def cmdBerthDestroy (s : State) (c : Cmd) : Res := s.onBerth c [0, 1, 2, 3, 4] (fun x => .ok 0 [] (s.destroy x))

/-- BERTH_DESTROY: a berth is removed. -/
def execBerthDestroy (c : Cmd) (at_ : Nat) (s : State) : Answer := .next (s.host 0x11 c at_ cmdBerthDestroy)

/-- A page is OWNED or FRAME for a berth. -/
def State.pageOf (s : State) (x : Berth) (p : Nat) : Bool :=
  let v := s.page x.die p
  decide (pageState v = 1 ∨ pageState v = 4) && decide (bitsOf v 10 0 = x.id)

/-- A page is SHARED in one of a berth's groups. -/
def State.pageShared (s : State) (x : Berth) (p : Nat) : Bool :=
  let v := s.page x.die p
  decide (pageState v = 2 ∧ bitsOf v 20 11 ≠ 0) && (s.groupsOf x.die x.id).contains (bitsOf v 20 11)

/-- The pages of a run of words, one or more. -/
def pagesOf (wa n : Nat) : List Nat :=
  (List.range ((wa + n - 1) / 32768 + 1 - wa / 32768)).map (· + wa / 32768)

/-- Apply a change to a berth's own state from outside: to what runs, to the checkpoint, and to the states that commits will save. -/
def Berth.amend (x : Berth) (f : BSide → BSide) : Berth :=
  { x with
    side := f x.side, ckpt := x.ckpt.map (fun k => { k with side := f k.side })
    ended := x.ended.map (fun r => { r with side := f r.side }) }

/-- The descriptor that SEG_DEFINE names. -/
def segDesc (c : Cmd) : Desc :=
  let f := c.b 25
  { base := c.p 28 4, limit := c.p 26 2, r := bitOf f 0, w := bitOf f 1, x := bitOf f 2, shared := bitOf f 3 }

/-- SEG_DEFINE: the checks of R128 and R466, then the descriptor: at once while the berth has no berth time, else with the next watch (R129). -/
def cmdSegDefine (s : State) (c : Cmd) : Res :=
  let n := c.b 24 % 16
  let z := segDesc c
  s.onBerth c [0, 1, 2, 3, 4] (fun x =>
    if z.base % 64 ≠ 0 ∨ 2 ^ 29 ≤ z.base + z.limit ∨ (z.shared = true ∧ z.w = true) then .err 2
    else if (pagesOf z.base (z.limit + 1)).any (fun p => !s.pageOf x p && !s.pageShared x p) then .err 9
    else if x.hasTime then .later .commit (s.setBerth { x with segDefs := x.segDefs ++ [(n, z)] })
    else .ok 0 [] (s.setBerth (x.amend (fun y => { y with desc := y.desc.set (⟨n % 16, Nat.mod_lt _ (by decide)⟩ : Fin 16) z }))))

/-- SEG_DEFINE: a descriptor is checked and written. -/
def execSegDefine (c : Cmd) (at_ : Nat) (s : State) : Answer := .next (s.host 0x12 c at_ cmdSegDefine)

/-- The cellar groups of a run of words that are not ON. -/
def State.groupsDown (s : State) (d wa n : Nat) : List Nat :=
  (List.range 8).filter (fun g => decide (wa / 2 ^ 26 ≤ g ∧ g ≤ (wa + n - 1) / 2 ^ 26) && decide (s.domain d (0x10 + g) ≠ 0))

/-- The checks that CELLAR_WRITE and CELLAR_READ share (R467), with the return to ON of a group in RET or OFF (R526). -/
def State.cellarCmd (s : State) (c : Cmd) (x : Berth) (ok : Nat → Bool) (body : Nat → Res) : Res :=
  let wa := c.p 24 4
  let n := c.dlen / 2
  if c.dlen % 2 = 1 ∨ c.dlen < 2 ∨ 16777216 < c.dlen then .err 2
  else if 2 ^ 29 < wa + n then .err 3
  else if (pagesOf wa n).any (fun p => !ok p) then .err 9
  else
    let down := s.groupsDown x.die wa n
    if down.isEmpty then body n
    else .later .domain (down.foldl (fun (t : State) g => t.startReturn x.die (0x10 + g)) s)

/-- The harbourmaster's rights on the words of a transfer (R78, R467): a denial is logged and the command answers DENIED with no word moved. -/
def State.asMaster (s : State) (d wa n : Nat) (k : Kind) (body : Res) : Res :=
  match s.firstDenied { cls := 8 } k ((List.range n).map (fun i => pkgWord d (wa + i))) with
  | some (w, t, c) => .fail 9 (s.logViol d { cls := 8 } k t c w)
  | none => body

/-- CELLAR_WRITE: the words of the data block are written as the harbourmaster (R467). -/
def cmdCellarWrite (s : State) (c : Cmd) : Res :=
  s.onBerth c [0, 2, 3, 4] (fun x => s.cellarCmd c x (s.pageOf x) (fun n =>
    let l := sliceD c.data 0 (2 * n) 0
    let ws := (List.range n).map (fun i => w16 (ofLe ((l.drop (2 * i)).take 2)))
    s.asMaster x.die (c.p 24 4) n .write (.ok n [] (s.bankWriteRun x.die (c.p 24 4) ws { cls := 8 }))))

/-- CELLAR_WRITE as it is fetched (R460). -/
def runCellarWrite (s : State) (c : Cmd) : Res := s.atCommit c (cmdCellarWrite s c)

/-- CELLAR_WRITE: host data is written into a berth's pages. -/
def execCellarWrite (c : Cmd) (at_ : Nat) (s : State) : Answer := .next (s.host 0x13 c at_ runCellarWrite)

/-- CELLAR_READ: the words as the cellar holds them at this moment; poisoned ones as 0 with POISON (R467). -/
def cmdCellarRead (s : State) (c : Cmd) : Res :=
  s.onBerth c [0, 1, 2, 3, 4] (fun x => s.cellarCmd c x (fun p => s.pageOf x p || s.pageShared x p) (fun n =>
    let r := (List.range n).foldl (fun (a : (List Byte × Bool) × State) i =>
      match a.2.bankRead x.die (c.p 24 4 + i) { cls := 8 } with
      | (.ok v, t) => ((a.1.1 ++ leBytes 2 v.toNat, a.1.2), t)
      | (.poison, t) => ((a.1.1 ++ [0, 0], true), t)) (([], false), s)
    s.asMaster x.die (c.p 24 4) n .read (.ok (n + b2n r.1.2 * 2 ^ 32) r.1.1 r.2)))

/-- CELLAR_READ: a berth's pages are read to the host. -/
def execCellarRead (c : Cmd) (at_ : Nat) (s : State) : Answer := .next (s.host 0x14 c at_ cmdCellarRead)

/-- A descriptor with W = 1 maps page p. -/
def Desc.mapsW (z : Desc) (p : Nat) : Bool := z.w && decide (z.base / 32768 ≤ p ∧ p ≤ (z.base + z.limit) / 32768)

/-- SHARED pages of a die. -/
def State.sharedPages (s : State) (d : Nat) : Nat :=
  (s.pages.filter (fun e => decide (e.1 / 16384 = d ∧ pageState e.2.toNat = 2))).length

/-- PAGE_SHARE: OWNED pages move to SHARED in a group (R73, R468). -/
def cmdPageShare (s : State) (c : Cmd) : Res :=
  let p := c.p 24 2
  let n := c.p 26 2
  let g := c.p 28 2
  s.onBerth c [0, 2, 3, 4] (fun x =>
    let l := (List.range n).map (· + p)
    let maps := x.side.desc.toList ++ x.segDefs.map (·.2)
    if n = 0 ∨ g = 0 ∨ 1023 < g then .err 2
    else if 16384 < p + n then .err 3
    else if l.any (fun q => !(s.pageOf x q && decide (pageState (s.page x.die q) = 1))) then .err 9
    else if maps.any (fun z => l.any z.mapsW) then .err 6
    else if s.prof.sharepool < s.sharedPages x.die + n then .err 7
    else .ok 0 [] (l.foldl (fun (t : State) q =>
      t.setPage x.die q (putBits (putBits (t.page x.die q) 30 28 2) 20 11 g)) s))

/-- PAGE_SHARE as it is fetched: groups of its pages that are not ON return to ON first (R526); then as R460 gives. -/
def runPageShare (s : State) (c : Cmd) : Res :=
  match cmdPageShare s c with
  | .err e => .err e
  | r => match s.berth c.berth with
    | none => r
    | some x =>
      let down := s.groupsDown x.die (c.p 24 2 * 32768) (c.p 26 2 * 32768)
      if down.isEmpty then s.atCommit c r
      else .later .domain (down.foldl (fun (t : State) g => t.startReturn x.die (0x10 + g)) s)

/-- PAGE_SHARE: OWNED pages move to SHARED. -/
def execPageShare (c : Cmd) (at_ : Nat) (s : State) : Answer := .next (s.host 0x15 c at_ runPageShare)

end Sys2Proof.Machine
end

