-- ==== Sys2Proof/Machine/BerthTime.lean ====
section
/-! DEFINITION. What berth time brings about while a core waits, has halted or stalls: line starts, frame boundaries, sample instants, timer
matches, moderation; and where an HTIME berth aligns (R90, R97, R100, R159, R307, R387, R409). -/

namespace Sys2Proof.Machine

/-- BEAM_LINE_START: up to k idle microcycles, ending with the first microcycle of a new line (R159). -/
def execBeamLineStart (b k : Nat) (s : State) : Answer :=
  .next (s.idleUntil b (fun x y => decide (x.side.beam.lineBt ≠ y.side.beam.lineBt)) k)

/-- FRAME_BOUNDARY: up to k idle microcycles, ending with a frame boundary (R97, R113). -/
def execFrameBoundary (b k : Nat) (s : State) : Answer :=
  .next (s.idleUntil b (fun x y => decide (x.side.beam.frame ≠ y.side.beam.frame)) k)

/-- SAMPLE_INSTANT: up to k idle microcycles, ending with a sample instant (R307). -/
def execSampleInstant (b k : Nat) (s : State) : Answer :=
  .next (s.idleUntil b (fun x y => decide (x.side.au.scount ≠ y.side.au.scount)) k)

/-- BERTH_TIMER_MATCH: up to k idle microcycles, ending with a match of berth timer n (R387). -/
def execBerthTimerMatch (b : Nat) (n : Fin 4) (k : Nat) (s : State) : Answer :=
  .next (s.idleUntil b (fun x y =>
    bitOf (y.side.setBits (0xA00 + 16 * n.val)) 4 || (!x.side.timers[n].mat && y.side.timers[n].mat)) k)

/-- BI_MODERATION_RELEASE: up to k idle microcycles, ending when the held BI group is released (R406, R409). -/
def execBiModerationRelease (b k : Nat) (s : State) : Answer :=
  .next (s.idleUntil b (fun x y => !x.side.bi.mod.released && y.side.bi.mod.released) k)

/-- Reference time in ps from grid point k to the beam's current position (R100). -/
def Berth.gridOff (x : Berth) (k : Int) : Int :=
  let p := { x.gov with gridK := k }.per x.side.beam.geo
  ((x.side.bt : Int) - x.side.beam.frameBt) * p.1 / p.2

/-- The grid point that the beam's current frame takes up when it is aligned, and the reference time in ps, not before now, at which the beam's current
position falls on it (R100). -/
def State.alignPoint (s : State) (x : Berth) : Int × Int :=
  let g := x.gov
  let k := gridAfter g.fpphase g.fpnum g.fpden ((s.refNow - x.gridOff g.gridK + 999) / 1000)
  (k, max s.refNow (gridPoint g.fpphase g.fpnum g.fpden k * 1000 + x.gridOff k))

/-- Harbour time at which the reference stands at t ps. -/
def State.refToNs (s : State) (t : Int) : Nat := ((t - s.corr / 5 + 999) / 1000).toNat

/-- An HTIME berth that was frozen for alignment, aligned to grid point k at reference time t (R100); frame 0 of a start keeps what is fixed for it
from here. -/
def Berth.alignedAt (x : Berth) (k t : Int) : Berth :=
  let g := { x.gov with
    gridK := k, refBt := x.side.beam.frameBt, offset := 0, clk := t * 3 / 1000
    frameT := gridPoint x.gov.fpphase x.gov.fpnum x.gov.fpden k * 1000 }
  { x.setReference g with
    freezes := [], gapCause := none
    frames := if x.side.bt = 0 then x.frames.map (fun (i : FrameInfo) => { i with gov := g }) else x.frames }

/-- Release a berth from the pause kind of freeze: its lag is discarded, and in HTIME mode it is frozen for alignment, its gap going on until then
(R100); its LOCKED timeline starts again with the next beam frame (R274). -/
def State.resumeBerth (s : State) (x : Berth) (drop : Freeze) : Berth :=
  let f := x.freezes.filter (fun z => decide (z ≠ drop) && decide (z ≠ .align))
  s.dropLag { x with
    freezes := if x.htimeMode then f ++ [.align] else f, gapCause := if x.htimeMode then x.gapCause else none
    gen := { x.gen with restart := true, nextF := if x.gen.free then x.gen.nextF else x.side.beam.frame + 1 } }

end Sys2Proof.Machine
end

