-- ==== Sys2Proof/Machine/Scanout.lean ====
section
/-! DEFINITION. The output timing generator: output frame starts, source line reads and the segments of SCAN video (R271 to R283, R287, R288,
R297, R300, R301). -/

namespace Sys2Proof.Machine

/-- Visible output width and height of the output frame in progress (R279). -/
def Berth.outSize (x : Berth) : Nat × Nat :=
  let r := x.gen.ras
  if x.gen.free then (r.2.1, r.2.2.2)
  else
    let g := x.gen.geo.getD x.side.beam.geo
    (x.gen.scale * g.hvis, x.gen.scale * g.vvis)

/-- Latch the settings that take effect at an output frame start: mode, FREE output, segments, the FREE raster and grid, ABLKS (DP_OUTCFG, DP_SEGCFG,
R275, R296). -/
def Berth.latchOut (x : Berth) : Berth :=
  let c := x.reg R.DP_OUTCFG
  let vm := if bitsOf c 1 0 = 3 then 0 else bitsOf c 1 0
  let free := bitOf c 2
  let nf := if x.gen.free && !free then x.side.beam.frame + 1 else x.gen.nextF
  let h := x.reg R.DP_OHORZ
  let v := x.reg R.DP_OVERT
  let grid := (x.reg R.DP_OFPNUM, bitsOf (x.reg R.DP_OFPDEN) 15 0, x.reg R.DP_OFPPHASE)
  let same := x.gen.free && decide (grid = (x.gen.fnum, x.gen.fden, x.gen.fphase))
  { x with gen := { x.gen with
      vmode := vm, free := free, segBytes := bitsOf (x.reg R.DP_SEGCFG) 13 0, nextF := nf, ablks := bitsOf (x.reg R.DP_SEGCFG) 19 16
      ras := (bitsOf h 12 0, bitsOf h 28 16, bitsOf v 12 0, bitsOf v 28 16), fnum := grid.1, fden := grid.2.1, fphase := grid.2.2
      foff := if same then x.gen.foff else 0 } }

/-- The start of the next LOCKED output frame, or of the next frame of a gap (R271, R274). -/
def Berth.lockedNext (x : Berth) : Nat :=
  let g := x.gen
  if x.gapCause.isSome then g.startT + x.framePeriod x.side.beam.geo
  else max (x.readTime g.nextF 0) (if g.restart then g.endT else 0)

/-- Harbour time of the next output frame start; none where there is none (R271, R274, R275). A generator that is stopped in FREE output follows its
registers as they stand. -/
def Berth.nextStart (x : Berth) (now : Nat) : Option Nat :=
  if !x.gen.started then none
  else if x.gen.free && !x.gen.stopped then some x.gen.freeNext
  else
    let y := if x.gen.free then x.latchOut else x
    if !y.gen.free then some y.lockedNext
    else if y.gen.stopped then none
    else some ({ y.gen with foff := 0 }.freeAfter now)

/-- Visible output lines that an output frame of a stream is made of (R301). -/
def Berth.visibleLines (x : Berth) : Nat :=
  let g := x.side.beam.geo
  match x.gen.vmode with
  | 2 => if x.gen.free then x.gen.ras.2.2.2 else x.scale * g.vvis
  | 1 => g.vvis
  | _ => 0

/-- An output frame that is not sent, with its GAP packet (R300, R301). -/
def Berth.gapFrame (x : Berth) (reason : Nat) : Berth := ((x.addLoss x.visibleLines 1 0 reason).queueGap reason).countFrame

/-- The start of an output frame that shows beam frame f at time t, or nothing where f is none (R271, R277, R297). -/
def Berth.beginFrame (x : Berth) (f : Option Nat) (t : Nat) (rep : Bool) : Berth :=
  let i := match f with
    | some n => x.frameInfo n
    | none => x.frameInfo x.side.beam.frame
  let y : Berth := { x with gen := { x.gen with
    frame := f, geo := some i.geo, scale := i.scale, startT := t, again := rep, row := none, oline := 0, seg := 0 } }
  if y.gen.vmode = 2 then
    let size := y.outSize
    let per := if y.gen.free then x.gen.fnum / x.gen.fden else x.framePeriod i.geo
    (y.newControl (y.controlPacket (f.getD 0) size.1 size.2 i.scale (if y.gen.free then 2 else 1) t
      (if f.isSome then i.startBt else 0) per rep)).countFrame
  else y

/-- An output frame start in LOCKED output at time t (R271, R274, R284). -/
def Berth.lockedStart (x : Berth) (t : Nat) : Berth :=
  let f := x.gen.nextF
  let i := x.frameInfo f
  let y := { x with gen := { x.gen with
    nextF := f + 1, restart := false, endT := t + x.framePeriod i.geo, startT := t, frame := none, row := none } }
  if i.skip then y.gapFrame 2 else y.beginFrame (some f) t false

/-- An output frame start in FREE output at time t: the switch of R277. -/
def Berth.freeStartAt (x : Berth) (t : Nat) : Berth :=
  let other := 1 - x.gen.buf
  let ready := match x.gen.hold other with
    | some (f, n) => (match x.gen.shown with | some g => decide (g < f) | none => true) && decide (bitsOf (x.reg R.DP_SWLINE) 11 0 ≤ n)
    | none => false
  if ready then
    let sh := (x.gen.hold other).map (fun (e : Nat × Nat) => e.1)
    let y : Berth := { x with gen := { x.gen with buf := other, shown := sh } }
    let z := y.setReg R.DP_OSTAT (putBits (y.reg R.DP_OSTAT) 13 13 other)
    z.beginFrame z.gen.shown t false
  else
    let c := x.reg R.DP_OFRAMES
    let y := if x.gen.shown.isSome then x.setReg R.DP_OFRAMES (putBits c 15 0 (bitsOf c 15 0 + 1)) else x
    y.beginFrame y.gen.shown t y.gen.shown.isSome

/-- OUTPUT_FRAME_START: the generator of berth b reaches its next output frame start (R271, R274, R275, R277, R297, R300). A switch
from LOCKED to FREE begins its first FREE frame there, off the FREE grid (DESIGN CHOICE, assumption log 146). -/
def execOutputFrameStart (b : Nat) (s : State) : Answer :=
  .next (match s.berth b with
    | none => s
    | some x => match x.nextStart s.htime with
      | none => s
      | some t =>
        let u := s.at t
        match u.berth b with
        | none => u
        | some y0 =>
          let off := y0.gen.slewed y0.gen.ras.2.2.1
          let y := { y0 with gen := { y0.gen with foff := off } }.latchOut
          match y.gapCause with
          | some c =>
            let z := { y with gen := { y.gen with
              startT := t, endT := t + y.framePeriod y.side.beam.geo, frame := none, row := none } }
            u.setBerth (z.gapFrame c)
          | none => u.setBerth (if y.gen.free then y.freeStartAt t else y.lockedStart t))

/-- Harbour time at which output line o of the frame in progress begins (R271, R275, R279). -/
def Berth.outLineTime (x : Berth) (o : Nat) : Nat :=
  let g := x.gen
  if g.free then
    let den := g.fden * g.ras.2.2.1
    (((g.startT + (if den = 0 then 0 else o * g.fnum / den) : Nat) : Int) + (g.slewed o - g.foff) / 1000).toNat
  else
    let f := g.frame.getD 0
    let k := max 1 g.scale
    let a := x.readTime f (o / k)
    a + (o % k) * (x.readTime f (o / k + 1) - a) / k

/-- Harbour time at which the last pixel of an output line's part up to column p ends (R279, R287). -/
def Berth.pixelTime (x : Berth) (o p : Nat) : Nat :=
  let a := x.outLineTime o
  let len := x.outLineTime (o + 1) - a
  let total := if x.gen.free then x.gen.ras.1 else x.gen.scale * (x.gen.geo.getD x.side.beam.geo).htotal
  a + (if total = 0 then 0 else p * len / total)

/-- Read the words of a source line in bursts of 32 as master class 0x4: what was read before the first denied or poisoned burst (R281,
R282). -/
def State.readBursts (s : State) (x : Berth) (wa : Nat) (len : Nat) : Nat → List Word → List Word × State
  | 0, acc => (acc, s)
  | n + 1, acc =>
    if len ≤ acc.length then (acc, s)
    else
      let m : Master := { cls := 4, id := x.id }
      let r := (List.range (min 32 (len - acc.length))).foldl (fun (a : Option (List Word) × State) i =>
        match a.1 with
        | none => a
        | some l => match a.2.cellRead x.die x.die (wa + acc.length + i) m with
          | (.ok v, t) => (some (l ++ [v]), t)
          | (_, t) => (none, t)) (some [], s)
      match r.1 with
      | some l => r.2.readBursts x wa len n (acc ++ l)
      | none => (acc, r.2)

/-- The pixel value that a pixel's words spell. -/
def pixVal (w : List Word) : Nat := (w.getD 0 0).toNat + 65536 * (w.getD 1 0).toNat

/-- The next source line of the output frame in progress, when it is due: its segments are queued line by line before it. -/
def Berth.dueLine (x : Berth) : Option Nat :=
  let g := x.gen
  let k := max 1 g.scale
  let src := g.oline / k
  let have_ := match g.row with
    | some r => decide (r.1 = src)
    | none => false
  if g.vmode = 2 ∧ g.geo.isSome ∧ (g.frame.isSome ∨ g.free) ∧ g.seg = 0 ∧ !have_ ∧ g.oline < x.outSize.2 then some src else none

/-- SCANOUT_LINE_READ: at its read time the generator checks the line's tag and reads the source line, filling it on a mismatch or a denied or
poisoned burst (R281 to R283). -/
def execScanoutLineRead (b : Nat) (s : State) : Answer :=
  .next (match s.berth b with
    | none => s
    | some x => match x.dueLine with
      | none => s
      | some l =>
        let u := s.at (x.outLineTime (l * max 1 x.gen.scale))
        let g := x.gen.geo.getD x.side.beam.geo
        let fill := (List.range g.hvis).map (fun c => pixVal (x.fillWords l c))
        match u.berth b with
        | none => u
        | some y =>
          if g.vvis ≤ l then u.setBerth { y with gen := { y.gen with row := some (l, [], false) } }
          else
            let buf := if y.gen.free then y.gen.buf else 0
            let hit := match y.gen.frame with
              | some f => decide (tfind (y.gen.tags buf) l = some f)
              | none => false
            let p := y.pixLen
            let r := if hit then u.readBursts y (y.fbLine buf l) (g.hvis * p) (g.hvis * p) [] else ([], u)
            let got := r.1.length / p
            let px := (List.range g.hvis).map (fun c =>
              if c < got then pixVal ((r.1.drop (c * p)).take p) else fill.getD c 0)
            let bad := decide (got < g.hvis)
            let c := y.reg R.DP_UNDERRUN
            let y1 := if bad then
                { y.setReg R.DP_UNDERRUN (putBits (putBits c 15 0 (bitsOf c 15 0 + 1)) 27 16 l) with uLines := y.uLines + 1, lossAt := r.2.htime } else y
            r.2.setBerth { y1 with gen := { y1.gen with row := some (l, px, bad) } })

/-- The bytes of output line o, pixel by pixel from the source line read, FILL outside the source frame (R279, R288). -/
def Berth.outBytes (x : Berth) (o : Nat) (px : List Nat) (from_ n : Nat) : List Byte :=
  let k := max 1 x.gen.scale
  let p := x.pixLen
  let row := px.toArray
  ((List.range n).map (fun i =>
    let c := (from_ + i) / k
    let v := if c < row.size then row.getD c 0 else pixVal (x.fillWords (o / k) c)
    beBytes (2 * p) v)).flatten

/-- SCAN_SEGMENT_QUEUE: the next segment of the output line in progress is queued in the pixel time of its last pixel (R287, R288, R425). -/
def execScanSegmentQueue (b : Nat) (s : State) : Answer :=
  .next (match s.berth b with
    | none => s
    | some x => match x.gen.row with
      | none => s
      | some (l, px, bad) =>
        let g := x.gen
        let k := max 1 g.scale
        let size := x.outSize
        let per := g.segBytes / (2 * x.pixLen)
        if g.vmode ≠ 2 ∨ g.oline / k ≠ l ∨ size.2 ≤ g.oline ∨ per = 0 then s
        else
          let from_ := g.seg * per
          let n := min per (size.1 - from_)
          let last := decide (size.1 ≤ from_ + n)
          let u := s.at (x.pixelTime g.oline (from_ + n))
          match u.berth b with
          | none => u
          | some y =>
            let y1 := if g.seg = 0 then y.openLine (u.leadQ y) else y
            let f := g.frame.getD 0
            let bt := if g.frame.isSome then (y.frameInfo f).lineBt (min l ((g.geo.getD y.side.beam.geo).vvis - 1)) else 0
            let y2 := y1.queueSegment {
              typ := 1, seg := g.seg, frame := f % 65536, pf := y.reg R.DP_FBCFG % 2, line := g.oline, btime := bt
              payload := y.outBytes g.oline px from_ n
              flags := (if last then 2 else 0) + (if last ∧ g.oline + 1 = size.2 then 4 else 0) + (if bad then 16 else 0) +
                (if g.again then 32 else 0)
              last := last }
            (u.noteDrop y y1).setBerth { y2 with gen := { y2.gen with
              seg := if last then 0 else g.seg + 1
              oline := if last then g.oline + 1 else g.oline } })

end Sys2Proof.Machine
end

