-- ==== Sys2Proof/Machine/BerthRun.lean ====
section
/-! DEFINITION. Starting, pausing, resuming and moving a berth: BERTH_START, BERTH_PAUSE, BERTH_RESUME, BERTH_MIGRATE (R100, R158, R309, R469, R470,
R495, R511, R512). -/

namespace Sys2Proof.Machine

/-- Ports that BERTH_START leaves as INPUT_BIND wrote them: PD_CFG, PD_BASE, AU_SnCTL and AU_SnBASE of the input voice (R309, R473). -/
def Berth.keptPorts (x : Berth) : List Nat :=
  [0xC02, 0xC03] ++ (match x.side.au.inputVoice with
    | some n => [0x8A0 + 8 * n, 0x8A1 + 8 * n]
    | none => [])

/-- A berth's own state at BERTH_START, before vector 0 (R158, R309, R321, R436): the descriptors stay, and the input voice's DIRECT is held. -/
def Berth.freshSide (x : Berth) (geo : Geometry) (bank : Nat) : BSide :=
  let z : BSide := { beam := { geo := geo }, desc := x.side.desc, bank := bank, au := { inputVoice := x.side.au.inputVoice } }
  let z1 := x.keptPorts.foldl (fun (y : BSide) p => y.setPort p (x.side.port p)) (z.setShadowGeo geo)
  let z2 := match x.side.au.inputVoice with
    | some n => z1.setPort (0x800 + 4 * n) (z1.port (0x800 + 4 * n) ||| 4)
    | none => z1
  { z2 with core := { z2.core with st := .run } }

/-- A berth as BERTH_START leaves it before its first microcycle (R158, R489, R495): a new generation of its own state, what waited for the old
one discarded, the governor and the generator at the start of frame 0. -/
def State.fresh (s : State) (x : Berth) : Berth :=
  let geo := s.prof.geo
  let side := s.samplePins x.id (x.freshSide geo (s.fld (dockAddr x.die x.dock R.MC_CTL) 0 0))
  let y : Berth := { x with
    started := true, side := side, cur := {}, ended := [], closeReq := false, freezes := [], stallStamp := none, outside := [], pipe := {}, segDefs := [],
    parkReq := none, gapCause := none, deadt := 0, frames := [], fq := [], lq := [], padWp := 0, padRet := 0, inWp := 0, inRet := 0,
    deadJobs := [], nextJob := 0, stores := [],
    gov := { refT := s.refNow, frameT := s.refNow, clk := s.refNow * 3 / 1000 }, gen := { started := true, startT := s.htime } }
  let z := (s.outFrame (y.govFrame geo)).latchOut
  { z with ckpt := some { side := side, seq := 0xFFFFFFFF, buffer := 0, cause := 0, at_ := s.htime, gov := z.gov } }

/-- BERTH_START takes effect (R158, R469, R495): the start checkpoint is written; an HTIME berth stays frozen until it is aligned. -/
def State.startBerth (s : State) (x : Berth) : State :=
  let y := s.fresh x
  let z := if y.htimeMode then { y with freezes := [.align] } else y
  let w := (s.dropLine x).writeHeader z 0 0xFFFFFFFF 0 (s.htime % 2 ^ 64) 0
  let v := if w.1 then w.2.voidHeader z 1 else w
  let t := v.2.setBerth z
  if v.1 then t else t.parkHere z 4

/-- A power fault at boot holds starts back (R537): the profile's lowest step is above 1.0 GHz, or its VCORE for 1.0 GHz is above the boot value of
Table 17-6. -/
def State.startHeld (s : State) : Bool :=
  s.pw.bootFault && (decide (s.prof.dclkmin < 2) || decide (700 < s.prof.vcore.getD 2 0))

/-- BERTH_START now: its completion waits for the alignment of an HTIME berth (R469). -/
def cmdBerthStart (s : State) (c : Cmd) : Res :=
  s.onBerth c [0, 3] (fun x =>
    if s.startHeld then .err 8
    else
      let t := s.startBerth x
      match t.berth c.berth with
      | some y => if y.freezes = [.align] then .later .align t else .ok (s.htime % 2 ^ 64) [] t
      | none => .ok (s.htime % 2 ^ 64) [] t)

/-- The cellar groups that are not ON and hold a page that a berth owns or shares. -/
def State.berthDown (s : State) (x : Berth) : List Nat :=
  (List.range 8).filter (fun g => decide (s.domain x.die (0x10 + g) ≠ 0) && s.usesGroup x g)

/-- BERTH_START as it is fetched: at harbour time AT, or now (R469), its groups in RET returned to ON first (R526); a halted berth starts again at its next
commit (R460). -/
def runBerthStart (s : State) (c : Cmd) : Res :=
  match cmdBerthStart s c with
  | .err e => .err e
  | r =>
    let down := match s.berth c.berth with
      | some x => (s.berthDown x).map (fun g => (x.die, 0x10 + g))
      | none => []
    if s.htime % 2 ^ 64 < c.p 24 8 then .later .time s
    else if down.isEmpty then s.atCommit c r
    else .later .domain (down.foldl (fun (t : State) g => t.startReturn g.1 g.2) s)

/-- BERTH_START: a berth is started at vector 0. -/
def execBerthStart (c : Cmd) (at_ : Nat) (s : State) : Answer := .next (s.host 0x18 c at_ runBerthStart)

/-- BERTH_PAUSE (R469): a running berth's watch closes early, and the command completes when the berth is frozen; on a paused berth it has no effect. -/
def runBerthPause (s : State) (c : Cmd) : Res :=
  s.onBerth c [1, 2] (fun x =>
    if x.stateNo = 2 then .ok (x.side.bt % 2 ^ 64) [] s else .later .commit (s.setBerth { x with closeReq := true }))

/-- BERTH_PAUSE: a berth is frozen at its next watch commit. -/
def execBerthPause (c : Cmd) (at_ : Nat) (s : State) : Answer := .next (s.host 0x19 c at_ runBerthPause)

/-- BERTH_RESUME (R100, R469): the pause ends with its lag discarded; an HTIME berth waits for its grid point. -/
def runBerthResume (s : State) (c : Cmd) : Res :=
  s.onBerth c [2] (fun x =>
    let y := s.resumeBerth x .pause
    if y.freezes.contains .align then .later .align (s.setBerth y) else .ok (s.htime % 2 ^ 64) [] (s.setBerth y))

/-- BERTH_RESUME: a pause ends. -/
def execBerthResume (c : Cmd) (at_ : Nat) (s : State) : Answer := .next (s.host 0x1A c at_ runBerthResume)

/-- The active bank of dock k holds the image that the checkpoint of a berth records (R582). A berth that has not started has none; one in a slot is moved
with the checkpoint of its next watch boundary, under the active bank of its own dock. -/
def State.imageFits (s : State) (x : Berth) (k : Nat) : Bool :=
  !x.started || decide (s.reg (dockAddr x.die k R.MC_VER) = if x.parked then x.parkVer else s.reg (dockAddr x.die x.dock R.MC_VER))

/-- The dock that BERTH_MIGRATE uses for 0xFF: the berth's own while it can take it, else the one with the fewest ACTIVE slots that can. -/
def State.migrateDock (s : State) (x : Berth) (want : Nat) : Option Nat :=
  if want ≠ 0xFF then some want
  else if decide (s.domain x.die x.dock = 0) && !(s.slotsIn x.die x.dock 0).isEmpty &&
      (!x.parked || decide ((s.slotsIn x.die x.dock 1).length < s.prof.berths)) then some x.dock
  else s.fewestDock x.die (fun k => s.openDock x.die k && s.imageFits x k)

/-- The bank that berth x uses is the active one of dock k. -/
def State.inBank (s : State) (x : Berth) (k : Nat) : Berth := x.amend (fun q => { q with bank := s.fld (dockAddr x.die k R.MC_CTL) 0 0 })

/-- A commit of a placed berth that waits for the stamp store waits anew in its new dock (R117). -/
def Berth.waitAnew (x : Berth) : Berth :=
  { x with ended := x.ended.map (fun r => { r with waiting := r.waiting.map (fun _ => 0) }) }

/-- The placement of a parked berth (R100, R470): it takes the slot, its lag is zero, and it runs, an HTIME berth once aligned, under the image of its
checkpoint (R582). -/
def State.placeParked (s : State) (x : Berth) (k n : Nat) : State :=
  let y := if x.started then s.resumeBerth x .parked else { x with freezes := [], gapCause := none }
  let z := s.inBank { y.waitAnew with parked := false, relocs := y.relocs + 1 } k
  s.place (s.thaw z) k n

/-- BERTH_MIGRATE (R470, R511, R512, R583): the destination is checked, then a parked berth is placed, and any other asks for its move. -/
def runBerthMigrate (s : State) (c : Cmd) : Res :=
  let slot := c.b 25
  s.onBerth c [0, 1, 2, 3, 4] (fun x =>
    if (c.b 24 ≠ 0xFF ∧ 16 ≤ c.b 24) ∨ (slot ≠ 0xFF ∧ 17 ≤ slot) then .err 3
    else match s.migrateDock x (c.b 24) with
    | none => .err 7
    | some k =>
      let own := decide (k = x.dock) && !x.parked
      if s.domain x.die k ≠ 0 ∨ !s.imageFits x k then .err 8
      else if own = false ∧ s.prof.berths ≤ (s.slotsIn x.die k 1).length then .err 7
      else match (if slot = 0xFF then (s.slotsIn x.die k 0).head? else if s.slot x.die k slot = 0 then some slot else none) with
      | none => .err 7
      | some n =>
        if x.parked then .ok (slotLoc x.die k n) [] (s.placeParked x k n)
        else .later .move (s.setBerth (x.askMove (if own then 3 else 4) k n)))

/-- BERTH_MIGRATE: a berth is relocated, migrated or placed. -/
def execBerthMigrate (c : Cmd) (at_ : Nat) (s : State) : Answer := .next (s.host 0x1B c at_ runBerthMigrate)

/-- The flying command of a berth that waits for a reason. -/
def State.waiter (s : State) (b : Nat) (y : Why) : Option Flying :=
  s.flying.find? (fun f => scopeB f.op f.cmd && decide (f.cmd.berth = b ∧ f.why = y))

/-- Complete a flying command with OK and a result. -/
def State.land (s : State) (f : Flying) (result : Nat) : State := { s with flying := s.flying.erase f }.answer f.cmd 0 result []

/-- Complete a flying command with an error. -/
def State.landErr (s : State) (f : Flying) (e : Nat) : State := { s with flying := s.flying.erase f }.answer f.cmd e 0 []

/-- An HTIME berth frozen for alignment runs from its grid point (R100), and the command that waits for it completes (R469). -/
def State.aligned (s : State) (b : Nat) : State :=
  match s.berth b with
  | none => s
  | some x =>
    if x.freezes = [.align] then
      let z := s.alignPoint x
      let u := (s.at (s.refToNs z.2)).setBerth (x.alignedAt z.1 z.2)
      match u.waiter b .align with
      | some f => u.land f (u.htime % 2 ^ 64)
      | none => u
    else s

end Sys2Proof.Machine
end

