-- ==== Sys2Proof/Machine/StreamCmd.lean ====
section
/-! DEFINITION. Host commands on streams, inputs and quays: STREAM_BIND, STREAM_UNBIND, INPUT_BIND, QUAY_CONFIG, QUAY_INJECT, MACSEC_KEY (R414, R416, R420,
R421, R428, R471 to R475). -/

namespace Sys2Proof.Machine

/-- SCALE as it acts: 0 and 7 act as 1 (DP_OUTCFG). -/
def scaleOf (n : Nat) : Nat := if n = 0 ∨ n = 7 then 1 else n

/-- The largest visible output width that a binding allows, 0 for VMODE NONE (R288). -/
def bindWidth (cls : Nat) (c : Cmd) : Nat :=
  let m := c.d 2 1
  let w := (classLimits cls).1
  match m % 4 with
  | 1 => w
  | 2 => if bitOf m 2 then c.d 50 2 else min 7680 (w * scaleOf (bitsOf m 6 4))
  | _ => 0

/-- A reserved bit of the STREAM_BIND block is set (R452, Table 13-9). -/
def bindReserved (c : Cmd) : Bool :=
  let m := c.d 2 1
  decide (bitsOf m 3 3 ≠ 0 ∨ bitsOf m 7 7 ≠ 0 ∨ bitOf (c.d 3 1) 7 = true ∨ 4096 ≤ c.d 4 2 ∨ 16 ≤ c.d 8 1 ∨ 64 ≤ c.d 10 1 ∨ 4096 ≤ c.d 12 2) ||
  decide (2 ^ 20 ≤ c.d 40 4 ∨ 2 ^ 30 ≤ c.d 44 4 ∨ 8192 ≤ c.d 48 2 ∨ 8192 ≤ c.d 50 2 ∨ 8192 ≤ c.d 52 2 ∨ 8192 ≤ c.d 54 2 ∨ 4096 ≤ c.d 62 2) ||
  decide (c.d 68 28 ≠ 0 ∨ (bitOf (c.d 3 1) 4 = false ∧ c.d 28 12 ≠ 0))

/-- The checks of R288, R419 and R424 on a binding whose pixels take bytes bytes. -/
def bindFits (cls bytes : Nat) (c : Cmd) : Bool :=
  let seg := c.d 6 2
  let q := c.d 9 1
  let line := bindWidth cls c * bytes
  let n := if seg = 0 then 0 else (line + seg - 1) / seg
  let f := c.d 3 1
  let big := 14 + (if bitOf f 6 then 32 else 0) + (if bitOf f 3 then 4 else 0) + (if bitOf f 4 then 40 else 20) + 8 + 16 + seg + 4
  decide (seg % 64 = 0 ∧ 256 ≤ seg ∧ seg ≤ 8960 ∧ n ≤ 32 ∧ 1 ≤ q ∧ q ≤ 64 ∧ q * (line + 16 * n) ≤ 131072 ∧ big ≤ 9216)

/-- The lowest entry of quay q from lo to hi − 1 that is not VALID and not in a list. -/
def State.freeEntry (s : State) (q lo n : Nat) (taken : List Nat) : Option Nat :=
  ((List.range n).map (· + lo)).find? (fun e => !bitOf (s.entryWord q e 0) 11 && !taken.contains e)

/-- The words of a transmit entry (Table 12-3). -/
def txEntry (c : Cmd) (active : Bool) (partner pentry : Nat) : List Nat :=
  let f := c.d 3 1
  let six := bitOf f 4
  let mac := ofBe (sliceD c.data 18 6 0)
  let ip := fun (i : Nat) => ofBe (sliceD c.data (24 + 4 * i) 4 0)
  [c.berth + 2 ^ 11 + b2n active * 2 ^ 12 + f % 8 * 2 ^ 13 + b2n (bitOf f 3) * 2 ^ 16 + b2n six * 2 ^ 17 + b2n (bitOf f 5) * 2 ^ 18 +
      b2n (bitOf f 6) * 2 ^ 19 + c.d 10 1 * 2 ^ 20,
    c.d 12 2 + c.d 11 1 * 2 ^ 12, mac % 2 ^ 32, mac / 2 ^ 32 + c.d 14 2 * 2 ^ 16, c.d 16 2] ++
  (if six then [ip 3, ip 2, ip 1, ip 0] else [ip 0, 0, 0, 0]) ++
  [c.d 40 4, partner + pentry * 2 ^ 8, c.d 9 1 % 64]

/-- The SWLINE that R278 recommends for a raster of num / den ns a frame: VVIS times what the output frame is shorter than the beam's, and LEADMIN. -/
def Berth.swLine (x : Berth) (num den : Nat) : Nat :=
  let g := x.side.beam.geo
  let p := x.framePeriod g * den
  let gain := if p ≤ num then 0 else (g.vvis * (p - num) + p - 1) / p
  min 4095 (gain + leadMin g x.watchUs)

/-- The scan-out registers that STREAM_BIND writes (R471, Table 13-9). -/
def Berth.bindRegs (x : Berth) (c : Cmd) : Berth :=
  let m := c.d 2 1
  let sw := if c.d 62 2 = 0 then x.swLine (c.d 56 4) (c.d 60 2) else c.d 62 2
  ((((((((x.setReg R.DP_OUTCFG (m % 128 + c.d 4 2 * 2 ^ 16)).setReg R.DP_SEGCFG (c.d 6 2 + c.d 8 1 * 2 ^ 16)).setReg R.DP_FILL (c.d 44 4)).setReg
    R.DP_OHORZ (c.d 48 2 + c.d 50 2 * 2 ^ 16)).setReg R.DP_OVERT (c.d 52 2 + c.d 54 2 * 2 ^ 16)).setReg R.DP_OFPNUM (c.d 56 4)).setReg
    R.DP_OFPDEN (c.d 60 2)).setReg R.DP_OFPPHASE (c.d 64 4)).setReg R.DP_SWLINE sw

/-- Pages that count against a berth's CAP (Table 13-14): its OWNED and FRAME pages and its HARBOUR page. -/
def State.capUse (s : State) (x : Berth) : Nat :=
  1 + (s.pages.filter (fun e => decide (e.1 / 16384 = x.die ∧ (pageState e.2.toNat = 1 ∨ pageState e.2.toNat = 4) ∧ bitsOf e.2.toNat 10 0 = x.id))).length

/-- The berth has a second frame buffer (R472): page 0 is never one. -/
def Berth.twoBuffers (x : Berth) : Bool := decide (x.reg R.DP_FB1BASE ≠ 0)

/-- The second buffer that a STREAM_BIND naming FREE needs (R472): the status that refuses it, or the state with it. -/
def State.secondBuffer (s : State) (x : Berth) (free : Bool) : Nat ⊕ State :=
  if !free || x.twoBuffers then .inr s
  else if x.stateNo ≠ 0 then .inl 6
  else
    let n := (fbSize s.prof.cls (bitOf (x.reg R.DP_FBCFG) 0)).1
    if s.prof.cap < s.capUse x + n then .inl 7
    else match s.firstRun x.die n [] with
      | none => .inl 7
      | some p =>
        .inr ((s.takePages x.die p n (pageEntry x.id 0 true false false true true false false 4)).setBerth (x.setReg R.DP_FB1BASE (p * 512)))

/-- The stream of a berth after a binding: a stream that was held keeps its SEQ and its counts and reports REBIND first (R290, R301, R431); its OFRAME goes on
too (assumption log 133). -/
def Stream.bindTo (m : Stream) (q e : Nat) : Stream :=
  if m.bound then
    { m with held := false, quay := q, entry := e, queue := [], opened := [], cur := none, rebound := true, report := true, reason := 6, spent := false }
  else { bound := true, quay := q, entry := e }

/-- The transmit entries of a stream on quay q and its standby sb (0xFF: none): the lowest free ones, or none where a table is full (R471). -/
def State.bindEntries (s : State) (c : Cmd) (q sb : Nat) : Option ((Nat × Nat) × State) :=
  match s.freeEntry q 0 512 [] with
  | none => none
  | some e =>
    if sb = 0xFF then some ((e, 0xFFFF), s.setEntry q e (fun _ => txEntry c true 0xFF 0))
    else match s.freeEntry sb 0 512 (if sb = q then [e] else []) with
      | none => none
      | some z => some ((e, z), (s.setEntry q e (fun _ => txEntry c true sb z)).setEntry sb z (fun _ => txEntry c false q e))

/-- STREAM_BIND (R471, R472): transmit entries, then the scan-out registers. -/
def cmdStreamBind (s : State) (c : Cmd) : Res :=
  let q := c.d 0 1
  let sb := c.d 1 1
  let free := bitOf (c.d 2 1) 2
  s.onBerth c [0, 1, 2, 3, 4] (fun x =>
    if c.dlen < 96 then .err 2
    else if !s.hasQuay q ∨ (sb ≠ 0xFF ∧ s.hasQuay sb = false) then .err 3
    else if s.failingOver x then .later .failover s
    else if x.stream.bound ∧ !x.stream.held then .err 8
    else if bindReserved c ∨ !bindFits s.prof.cls (2 * x.pixLen) c then .err 2
    else if !s.flag (quayAddr q R.QY_CFG) 0 ∨ !s.quayUp q ∨ (sb ≠ 0xFF ∧ s.flag (quayAddr sb R.QY_CFG) 0 = false) then .err 10
    else match s.secondBuffer x free with
    | .inl e => .err e
    | .inr s1 =>
      match (s1.dropEntries c.berth (fun e => decide (e < 512))).bindEntries c q sb with
      | none => .err 7
      | some r =>
        .ok (r.1.1 + r.1.2 * 2 ^ 16) [] (r.2.modBerth c.berth (fun y =>
          let w := y.bindRegs c
          { w with stream := w.stream.bindTo q r.1.1 })))

/-- A command on a stream as it is fetched: one that is being failed over is waited for first (R459), then the berth's next commit (R460). -/
def State.streamCmd (s : State) (c : Cmd) (r : Res) : Res :=
  match r with
  | .later y t => .later y t
  | _ => s.atCommit c r

/-- STREAM_BIND as it is fetched (R459, R460). -/
def runStreamBind (s : State) (c : Cmd) : Res := s.streamCmd c (cmdStreamBind s c)

/-- STREAM_BIND: a stream's entries and scan-out registers are written. -/
def execStreamBind (c : Cmd) (at_ : Nat) (s : State) : Answer := .next (s.host 0x20 c at_ runStreamBind)

/-- STREAM_UNBIND (R301, R471): both entries and the queued packets go, VMODE is NONE; the result is the next SEQ. -/
def cmdStreamUnbind (s : State) (c : Cmd) : Res :=
  s.onBerth c [0, 1, 2, 3, 4] (fun x =>
    if s.failingOver x then .later .failover s
    else
    let t := s.dropEntries c.berth (fun e => decide (e < 512))
    let y := x.setReg R.DP_OUTCFG (putBits (x.reg R.DP_OUTCFG) 1 0 0)
    .ok x.stream.seq [] (t.setBerth { y with stream := {} }))

/-- STREAM_UNBIND as it is fetched (R459, R460). -/
def runStreamUnbind (s : State) (c : Cmd) : Res := s.streamCmd c (cmdStreamUnbind s c)

/-- STREAM_UNBIND: a stream's entries are removed. -/
def execStreamUnbind (c : Cmd) (at_ : Nat) (s : State) : Answer := .next (s.host 0x21 c at_ runStreamUnbind)

/-- The receive entry of berth b with a target on quay q (R473). -/
def State.inputEntry (s : State) (q b tgt : Nat) : Option Nat :=
  ((List.range 512).map (· + 512)).find? (fun e =>
    let w := s.entryWord q e 0
    bitOf w 11 && decide (bitsOf w 10 0 = b ∧ bitsOf w 14 12 = tgt))

/-- A berth has a receive entry with a target on some quay. -/
def State.hasInput (s : State) (b tgt : Nat) : Bool :=
  s.quays.any (fun e => (s.inputEntry e.1 b tgt).isSome)

/-- The die-local word address of the ring that INPUT_BIND names: RBASE, or the descriptor's base with OFFSET (R473). -/
def ringStart (x : Berth) (c : Cmd) (tgt : Nat) : Nat :=
  if 1 ≤ tgt ∧ tgt ≤ 4 then c.p 28 4 else (x.side.descN (c.b 33 % 16)).base + 64 * c.p 34 2

/-- The ring of an INPUT_BIND is one that R473 accepts: its size, its alignment, its pages OWNED with BRIGHTS W. -/
def State.ringFits (s : State) (x : Berth) (c : Cmd) (tgt : Nat) : Bool :=
  let k := c.b 32
  let a := ringStart x c tgt
  let size := if tgt = 0 then decide (8 ≤ k ∧ k ≤ 15) else if tgt ≤ 4 then decide (5 ≤ k ∧ k ≤ 20) else decide (6 ≤ k ∧ k ≤ 15)
  size && decide (a % 64 = 0 ∧ a + 2 ^ k ≤ 2 ^ 29) &&
  (pagesOf a (2 ^ k)).all (fun p =>
    let v := s.page x.die p
    decide (pageState v = 1 ∧ bitsOf v 10 0 = x.id) && bitOf v 22)

/-- The words of a receive entry (Table 12-3). -/
def rxWords (c : Cmd) (tgt base : Nat) : List Nat :=
  let f := c.b 25
  let ip := fun (i : Nat) => ofBe (sliceD c.params (36 + 4 * i - 24) 4 0)
  [c.berth + 2 ^ 11 + tgt * 2 ^ 12 + b2n (bitOf f 3) * 2 ^ 15 + b2n (bitOf f 4) * 2 ^ 16, c.p 26 2, base, c.b 32, 0] ++
  (if bitOf f 3 then [ip 3, ip 2, ip 1, ip 0] else [ip 0, 0, 0, 0]) ++ [0, 0, 0]

/-- What INPUT_BIND sets in the berth for a target (R473). -/
def Berth.inputOn (x : Berth) (c : Cmd) (tgt base : Nat) : Berth :=
  let k := c.b 32
  let sel := c.b 33 % 16
  if tgt = 0 then
    let y := x.amend (fun z =>
      { (z.setPort 0xC02 (k + sel * 2 ^ 4 + 2 ^ 8)).setPort 0xC03 (c.p 34 2) with pad := { z.pad with wp := 0, rp := 0 } })
    { y with padWp := 0, padRet := 0, cur := { y.cur with padRp := none } }
  else if tgt ≤ 4 then
    let p := match x.rx.getD (tgt - 1) none with
      | some r => r.prod
      | none => 0
    { x with rx := x.rx.set (tgt - 1) (some { base := base, k := k, prod := p, cons := p }) }
  else
    let n := c.b 33 / 16
    let y := x.amend (fun z =>
      let old := z.port (0x8A0 + 8 * n)
      let v := putBits (putBits (putBits old 2 2 0) 7 4 sel) 11 8 k
      let z1 := ((z.setPort (0x8A0 + 8 * n) v).setPort (0x8A1 + 8 * n) (c.p 34 2)).setPort (0x8A2 + 8 * n) 0
      let z2 := z1.setPort (0x800 + 4 * n) (z1.port (0x800 + 4 * n) ||| 4)
      let q := z2.au.sv.getD n {}
      { z2 with au := { z2.au with
          inputVoice := some n, sv := z2.au.sv.set n { q with rp := 0, fp := 0, buf := [], sub := 0, ready := false } } })
    { y with inWp := 0, inRet := 0 }

/-- What the removal of a berth's last entry of a target undoes in the berth. -/
def Berth.inputOff (x : Berth) (tgt : Nat) : Berth :=
  if tgt = 0 then x.amend (fun z => (z.setPort 0xC02 0).setPort 0xC03 0)
  else if tgt ≤ 4 then { x with rx := x.rx.set (tgt - 1) none }
  else x.amend (fun z => { z with au := { z.au with inputVoice := none } })

/-- INPUT_BIND (R421, R473). -/
def cmdInputBind (s : State) (c : Cmd) : Res :=
  let q := c.b 24
  let tgt := c.b 25 % 8
  s.onBerth c [0, 1, 2, 3, 4] (fun x =>
    if !s.hasQuay q then .err 3
    else if 5 < tgt then .err 2
    else
      let mine := s.inputEntry q c.berth tgt
      if bitOf (c.b 25) 7 then
        match mine with
        | none => .err 2
        | some e =>
          let t := s.modQuay q (fun k => { k with table := tdel k.table e })
          .ok e [] (if t.hasInput c.berth tgt then t else t.setBerth (x.inputOff tgt))
      else if !s.ringFits x c tgt then .err 2
      else if ((List.range 512).map (· + 512)).any (fun e =>
          let w := s.entryWord q e 0
          bitOf w 11 && decide (some e ≠ mine) && decide (bitOf w 15 = bitOf (c.b 25) 3 ∧ bitsOf (s.entryWord q e 1) 15 0 = c.p 26 2)) then
        .err 8
      else match (match mine with
        | some e => some e
        | none => s.freeEntry q 512 512 []) with
      | none => .err 7
      | some e =>
        let base := pkgWord x.die (ringStart x c tgt)
        .ok e [] ((s.setEntry q e (fun _ => rxWords c tgt base)).setBerth (x.inputOn c tgt base)))

/-- INPUT_BIND as it is fetched (R460). -/
def runInputBind (s : State) (c : Cmd) : Res := s.atCommit c (cmdInputBind s c)

/-- INPUT_BIND: a receive entry is written or removed. -/
def execInputBind (c : Cmd) (at_ : Nat) (s : State) : Answer := .next (s.host 0x22 c at_ runInputBind)

/-- The registers that QUAY_CONFIG writes (R414, R620). -/
def State.quayRegs (s : State) (c : Cmd) : State :=
  let q := c.b 24
  let mac := ofBe (sliceD c.params 4 6 0)
  let ip6 := fun (i : Nat) => ofBe (sliceD c.params (16 + 4 * i) 4 0)
  let t := (((s.setReg (quayAddr q R.QY_CFG) (c.b 25 + c.b 26 * 2 ^ 8)).setReg (quayAddr q R.QY_MACLO) (mac % 2 ^ 32)).setReg
    (quayAddr q R.QY_MACHI) (mac / 2 ^ 32)).setReg (quayAddr q R.QY_IP4) (ofBe (sliceD c.params 12 4 0))
  let u := (List.range 4).foldl (fun (v : State) i => v.setReg (quayAddr q (R.QY_IP6W + 4 * i)) (ip6 (3 - i))) t
  u.setReg (quayAddr q R.QY_PFC) (c.b 56 + c.b 57 * 2 ^ 8 + c.b 58 * 2 ^ 16)

/-- QUAY_CONFIG (R414, R416, R526): a group that is not ON returns to ON first; a quay is configured and leaves electrical idle, or fails over its
streams and returns to it. -/
def cmdQuayConfig (s : State) (c : Cmd) : Res :=
  let q := c.b 24
  let d := quayDie q
  let g := 0x18 + q % 18 / 6
  if !s.hasQuay q then .err 3
  else if bitOf (c.b 25) 0 then
    if s.domain d g ≠ 0 then .later .domain (s.startReturn d g)
    else .ok 0 [] (((s.abandonSlice d 5 q).quayRegs c).setFlag (quayAddr q R.QY_STAT) 2 false)
  else
    let busy := (s.quay q).table.any (fun e => decide (e.1 < 512) && bitOf (e.2.getD 0 0) 11 && bitOf (e.2.getD 0 0) 12)
    let s1 := if s.flag (quayAddr q R.QY_CFG) 0 ∧ busy then (s.loseLock q 5).failover q else s.setLink q false false
    .ok 0 [] (((s1.quayRegs c).setFlag (quayAddr q R.QY_STAT) 2 true).modQuay q (fun k => { k with held := none }))

/-- QUAY_CONFIG: a quay is configured. -/
def execQuayConfig (c : Cmd) (at_ : Nat) (s : State) : Answer := .next (s.host 0x28 c at_ cmdQuayConfig)

/-- QUAY_INJECT (R441, R474): the injection registers, and XW of the quay's ledger entry. -/
def cmdQuayInject (s : State) (c : Cmd) : Res :=
  let q := c.b 24
  if !s.hasQuay q then .err 3
  else if !s.prof.inject then .err 9
  else
    let r := fun (t : State) (off v : Nat) => t.setReg (quayAddr q off) v
    let seed := c.p 44 4
    let t := r (r (r (r (r s R.QY_INJCTL (c.p 28 4 &&& 0x07FF001F)) R.QY_INJSEL (c.p 32 4)) R.QY_INJCORR (c.p 36 4 &&& 0x3FFFF)) R.QY_INJREORD
      (c.p 40 4 % 16)) R.QY_INJSEED seed
    .ok 0 [] ((t.modQuay q (fun k => { k with lfsr := if seed = 0 then 1 else seed, count := 0 })).setFlag
      (dieAddr (quayDie q) (R.LG_REGLED + 4 * (32 + q % 18))) 1 (bitOf (c.b 25) 0))

/-- QUAY_INJECT: injection is set up and gated. -/
def execQuayInject (c : Cmd) (at_ : Nat) (s : State) : Answer := .next (s.host 0x29 c at_ cmdQuayInject)

/-- The SA that MACSEC_KEY names: transmit for SC 0, else receive. -/
def Sa.named (a : Sa) (c : Cmd) : Bool :=
  decide (a.sc = c.b 25 ∧ a.an = c.b 26) && decide (a.tx = decide (c.b 25 = 0))

/-- MACSEC_KEY (R412, R413, R475): an SA is installed, made the active one of its channel, or deleted. -/
def cmdMacsecKey (s : State) (c : Cmd) : Res :=
  let q := c.b 24
  let sc := c.b 25
  let act := c.b 27
  if !s.hasQuay q then .err 3
  else if 4 < sc ∨ 3 < c.b 26 ∨ 2 < act then .err 2
  else
    let k := s.quay q
    let others := k.sas.filter (fun a => !a.named c)
    if act = 0 then
      if c.dlen < 64 then .err 2
      else if 2 ≤ (others.filter (fun a => decide (a.sc = sc))).length then .err 7
      else
        let f := fun (o n : Nat) => sliceD c.data o n 0
        let pn := c.d 56 8
        let a : Sa := {
          tx := decide (sc = 0), sc := sc, an := c.b 26, key := f 0 32, salt := f 32 12, ssci := c.d 44 4, sci := (f 48 8).reverse, pn := pn
          active := false, replay := if sc = 0 then 0 else pn }
        .ok 0 [] ((s.modQuay q (fun k => { k with sas := others ++ [a] })).setFlag (dieAddr (quayDie q) R.ST_SECCLR) (q % 18) false)
    else if !k.sas.any (fun a => a.named c) then .err 2
    else if act = 1 then
      .ok 0 [] (s.modQuay q (fun k => { k with sas := k.sas.map (fun a =>
        if a.sc = sc then { a with active := a.named c } else a) }))
    else .ok 0 [] (s.modQuay q (fun k => { k with sas := others }))

/-- MACSEC_KEY: a MACsec SA is installed, activated or deleted. -/
def execMacsecKey (c : Cmd) (at_ : Nat) (s : State) : Answer := .next (s.host 0x2A c at_ cmdMacsecKey)

end Sys2Proof.Machine
end

