-- ==== Sys2Proof/Machine/Mctp.lean ====
section
/-! DEFINITION. MCTP: vendor messages, control messages and the SPDM responder (R482 to R484, R574 to R576). Message codes and layouts that the spec takes
from the DMTF standards are PRESUMED (assumption log 24). -/

namespace Sys2Proof.Machine

/-- Something answers MCTP on transport t, 0 SMBus, else the VDM of endpoint t − 1: the device is powered, the harbourmaster has not halted, and the
endpoint has its link (R447, R482, R484, R515). -/
def State.answersMctp (s : State) (t : Nat) : Bool :=
  decide (s.keeper.phase = .on) && !s.hmHalt &&
    (decide (t = 0) || (decide (t ≤ s.part.endpoints) && (s.ep (t - 1)).link && !(s.ep (t - 1)).perst))

/-- Send an MCTP response on a transport. -/
def State.sendMctp (s : State) (t : Nat) (l : List Byte) : State := { s with mctp := s.mctp ++ [(t, l)] }

/-- An MCTP request on transport t at a time: nothing happens where nothing answers; its message sets HIC source 497 of die 0 (Table 11-2). -/
def State.onMctp (s : State) (t at_ : Nat) (f : State → State) : Answer :=
  .next (let u := s.at at_; if u.answersMctp t then f (u.hicSet 0 497) else u)

/-- The body of a command that MCTP accepts (R483). -/
def mctpBody (op : Nat) : Option (State → Cmd → Res) :=
  match op with
  | 0x01 => some cmdEcho
  | 0x02 => some cmdProfileQuery
  | 0x1C => some cmdBerthStatus
  | 0x06 => some cmdMeasureRead
  | 0x05 => some cmdFaultLogRead
  | 0x39 => some cmdSelftestReport
  | 0x30 => some cmdPowerSet
  | 0x31 => some runThermalPolicy
  | _ => none

/-- MCTP_COMMAND: a permitted command is carried out for the MCTP requester, with its completion and data inline; others give BADOPCODE, and one that
must wait under R456 waits (R483). -/
def execMctpCommand (t : Nat) (c : Cmd) (at_ : Nat) (s : State) : Answer :=
  s.onMctp t at_ (fun u =>
    let z := { c with ep := 2, ring := t, memOk := true }
    let op := c.opcode
    if !u.serving then u
    else match mctpBody op with
    | none => u.answer z 1 0 []
    | some f =>
      if !u.mayStart op z then u.makeWait op z
      else u.begin op z f)

/-- MCTP_STATUS: PHASE, the active and the pending profile, HB_PARTID and the firmware version (R483). -/
def execMctpStatus (v : Via) (s : State) : Answer :=
  s.onMctp v.t v.at_ (fun u =>
    u.sendMctp v.t (leBytes 1 u.phase ++ leBytes 1 (u.fld R.HB_PRFSEL 1 0) ++ leBytes 1 (u.fld R.HB_PRFSEL 3 2) ++ [0] ++ le32 (u.reg R.HB_PARTID) ++
      le32 u.fwVer))

/-- SET_ENDPOINT_ID on transport t, 0 SMBus, else the VDM of an endpoint: EIDs 0 and 0xFF are refused (R482). -/
def execSetEndpointId (t eid at_ : Nat) (s : State) : Answer :=
  s.onMctp t at_ (fun u =>
    let e := eid % 256
    if e = 0 ∨ e = 255 then u.sendMctp t [1, 2]
    else ({ u with eids := tput u.eids t e 0 }).sendMctp t [1, 0, 0, BitVec.ofNat 8 e, 0])

/-- GET_ENDPOINT_ID on transport t (R482). -/
def execGetEndpointId (t at_ : Nat) (s : State) : Answer :=
  s.onMctp t at_ (fun u => u.sendMctp t [2, 0, BitVec.ofNat 8 (tget u.eids t 0), 0, 0])

/-- GET_MCTP_VERSION_SUPPORT (R482): the version numbers are open values (assumption log 24). -/
def execGetMctpVersionSupport (v : Via) (s : State) : Answer :=
  s.onMctp v.t v.at_ (fun u =>
    let (n, w) := u.draw
    w.sendMctp v.t ([4, 0, 1] ++ le32 n))

/-- GET_MESSAGE_TYPE_SUPPORT: control, SPDM and vendor-defined by IANA (R482). -/
def execGetMessageTypeSupport (v : Via) (s : State) : Answer := s.onMctp v.t v.at_ (fun u => u.sendMctp v.t [5, 0, 3, 0, 5, 0x7F])

/-- n open bytes of a response to a request. -/
def State.spdmOpen (s : State) (req : List Byte) (n : Nat) : List Byte := (List.range n).map (Config.spdmByte req s.spdmSeq)

/-- An SPDM ERROR (R574). -/
def spdmError (code : Byte) : List Byte := [0x12, 0x7F, code, 0]

/-- An SPDM request: Busy before PHASE 0x03, else what f answers (R574). -/
def State.onSpdm (s : State) (t at_ : Nat) (f : State → List Byte × State) : Answer :=
  s.onMctp t at_ (fun u =>
    let r := if u.serving then f u else (spdmError 3, u)
    { r.2.sendMctp t r.1 with spdmSeq := u.spdmSeq + 1 })

/-- GET_VERSION: 1.2 only (Table 16-8). -/
def execGetVersion (v : Via) (s : State) : Answer := s.onSpdm v.t v.at_ (fun u => ([0x10, 0x04, 0, 0, 0, 1, 0, 0x12], u))

/-- GET_CAPABILITIES: CERT, CHAL, MEAS signed, MEAS_FRESH, ENCRYPT, MAC, KEY_EX (Table 16-8). -/
def execGetCapabilities (v : Via) (req : List Byte) (s : State) : Answer :=
  s.onSpdm v.t v.at_ (fun u => ([0x12, 0x61, 0, 0] ++ u.spdmOpen req 4 ++ le32 0x2F6 ++ u.spdmOpen req 8, u))

/-- NEGOTIATE_ALGORITHMS: ECDSA P-384, SHA-384, secp384r1, AES-256-GCM (Table 16-8). -/
def execNegotiateAlgorithms (v : Via) (req : List Byte) (s : State) : Answer :=
  s.onSpdm v.t v.at_ (fun u => ([0x12, 0x63, 0, 0] ++ le32 0x80 ++ le32 2 ++ leBytes 2 0x10 ++ leBytes 2 2 ++ u.spdmOpen req 20, u))

/-- GET_DIGESTS: the digest of the chain in slot 0 (Table 16-8). -/
def execGetDigests (v : Via) (s : State) : Answer :=
  s.onSpdm v.t v.at_ (fun u => match u.chain with
    | some l => ([0x12, 0x01, 0, 1] ++ sha384 l, u)
    | none => (spdmError 5, u))

/-- GET_CERTIFICATE: length bytes of the chain of slot 0 from an offset (Table 16-8). -/
def execGetCertificate (v : Via) (slot off len : Nat) (s : State) : Answer :=
  s.onSpdm v.t v.at_ (fun u => match u.chain with
    | some l =>
      let p := (l.drop off).take len
      if slot ≠ 0 then (spdmError 1, u) else ([0x12, 0x02, 0, 0] ++ leBytes 2 p.length ++ leBytes 2 (l.length - off - p.length) ++ p, u)
    | none => (spdmError 5, u))

/-- CHALLENGE: answered with a signature by the attestation key, while there is one (R576). -/
def execChallenge (v : Via) (req : List Byte) (s : State) : Answer :=
  s.onSpdm v.t v.at_ (fun u => match u.attKey with
    | some _ => ([0x12, 0x03, 0, 1] ++ u.spdmOpen req 224, u)
    | none => (spdmError 5, u))

/-- The value type of a measurement slot (Table 16-7). -/
def slotType (n : Nat) : Byte :=
  match n with
  | 0 => 2
  | 2 => 3
  | 3 => 3
  | 5 => 2
  | 7 => 3
  | _ => 1

/-- The measurement block of an index, 16 d + slot + 1 (R575): slots 8 to 15 report zero. -/
def State.measureBlock (s : State) (i : Nat) : List Byte :=
  let d := (i - 1) / 16
  let n := (i - 1) % 16
  [BitVec.ofNat 8 i, 1, 51, 0, slotType n, 48, 0] ++ (if n < 8 then s.measurement d n else List.replicate 48 0)

/-- GET_MEASUREMENTS: the count, one block or all of them (R575), signed while there is a key (R576). -/
def execGetMeasurements (v : Via) (signed : Bool) (idx : Nat) (req : List Byte) (s : State) : Answer :=
  s.onSpdm v.t v.at_ (fun u =>
    let n := 16 * u.part.dies
    let sig := if signed then u.spdmOpen req 130 else []
    if signed = true ∧ u.attKey = none then (spdmError 5, u)
    else if idx = 0 then ([0x12, 0x60, BitVec.ofNat 8 n, 0, 0, 0, 0, 0] ++ sig, u)
    else
      let l := if idx = 0xFF then (List.range n).map (· + 1) else if idx ≤ n then [idx] else []
      if l.isEmpty then (spdmError 1, u)
      else
        let b := l.flatMap (fun i => u.measureBlock i)
        ([0x12, 0x60, 0, 0, BitVec.ofNat 8 l.length] ++ leBytes 3 b.length ++ b ++ sig, u))

/-- KEY_EXCHANGE: a session opens, at most four at once (Table 16-8); the responder's half of the session ID is an open value. -/
def execKeyExchange (v : Via) (half : Nat) (req : List Byte) (s : State) : Answer :=
  s.onSpdm v.t v.at_ (fun u =>
    if u.attKey = none then (spdmError 5, u)
    else if 4 ≤ u.sessions.length then (spdmError 3, u)
    else
      let (n, t) := u.draw
      let rsp := n % 65536
      ([0x12, 0x64, 0, 0] ++ leBytes 2 rsp ++ u.spdmOpen req 320,
        { t with sessions := t.sessions ++ [{ id := half % 65536 + rsp * 65536 }] }))

/-- FINISH: the establishment of a session completes (R574). -/
def execFinish (v : Via) (id : Nat) (req : List Byte) (s : State) : Answer :=
  s.onSpdm v.t v.at_ (fun u =>
    if u.sessions.any (fun z => decide (z.id = id) && !z.done) then
      ([0x12, 0x65, 0, 0] ++ u.spdmOpen req 48,
        { u with sessions := u.sessions.map (fun z => if z.id = id then { z with done := true } else z) })
    else (spdmError 2, u))

/-- END_SESSION: a session ends (R574). -/
def execEndSession (v : Via) (id : Nat) (s : State) : Answer :=
  s.onSpdm v.t v.at_ (fun u =>
    if u.sessions.any (fun z => decide (z.id = id) && z.done) then
      ([0x12, 0x6C, 0, 0], { u with sessions := u.sessions.filter (fun z => decide (z.id ≠ id)) })
    else (spdmError 2, u))

end Sys2Proof.Machine
end

