-- ==== Sys2Proof/Machine/Starts.lean ====
section
/-! DEFINITION. The commands that wait to start, and the events that end a wait without a watch commit (R455 to R459, R469, R515, R528 to R531). -/

namespace Sys2Proof.Machine

/-- What a command does once it starts, by its opcode. -/
def bodyOf (op : Nat) : State → Cmd → Res :=
  match op with
  | 0x01 => cmdEcho
  | 0x02 => cmdProfileQuery
  | 0x03 => cmdProfileSelect
  | 0x04 => runClockConfig
  | 0x05 => cmdFaultLogRead
  | 0x06 => cmdMeasureRead
  | 0x07 => cmdMcReload
  | 0x10 => cmdBerthCreate
  | 0x11 => cmdBerthDestroy
  | 0x12 => cmdSegDefine
  | 0x13 => runCellarWrite
  | 0x14 => cmdCellarRead
  | 0x15 => runPageShare
  | 0x18 => runBerthStart
  | 0x19 => runBerthPause
  | 0x1A => runBerthResume
  | 0x1B => runBerthMigrate
  | 0x1C => cmdBerthStatus
  | 0x20 => runStreamBind
  | 0x21 => runStreamUnbind
  | 0x22 => runInputBind
  | 0x28 => cmdQuayConfig
  | 0x29 => cmdQuayInject
  | 0x2A => cmdMacsecKey
  | 0x30 => cmdPowerSet
  | 0x31 => runThermalPolicy
  | 0x38 => cmdSelftestPolicy
  | 0x39 => cmdSelftestReport
  | _ => fun _ _ => .err 1

/-- The commands that a waiting command must let start first: those that have started, and those fetched before it. -/
def State.beforeIt (s : State) (f : Flying) : List Flying :=
  s.flying.filter (fun g => decide (g.why ≠ .start)) ++ (s.flying.takeWhile (fun g => decide (g ≠ f))).filter (fun g => decide (g.why = .start))

/-- Start one waiting command, if it may start. -/
def State.tryStart (s : State) (f : Flying) : State :=
  if s.flying.contains f && s.mayStartAfter (s.beforeIt f) f.op f.cmd then
    { s with flying := s.flying.erase f }.begin f.op f.cmd (bodyOf f.op)
  else s

/-- Every command that waits to start and now may, starts, in the order in which they were fetched (R455 to R459). -/
def State.startWaiting (s : State) : State := (s.flying.filter (fun f => decide (f.why = .start))).foldl State.tryStart s

/-- PCIE_FLR: a Function Level Reset of endpoint e (R446). -/
def execPcieFlr (e at_ : Nat) (s : State) : Answer := s.onEp e (.next ((s.at at_).flr e).startWaiting)

/-- PCIE_D3HOT_EXIT: endpoint e leaves D3hot, with the effect of a Function Level Reset (R446). -/
def execPcieD3hotExit (e at_ : Nat) (s : State) : Answer :=
  s.onEp e (.next (
    let u := s.at at_
    if (u.ep e).d3hot then ((u.modEp e (fun x => { x with d3hot := false })).flr e).startWaiting else u))

/-- PERST_ASSERT: PERST_N of endpoint e is low for dur ns, and stays low (R447). -/
def execPerstAssert (e dur at_ : Nat) (s : State) : Answer := s.onEp e (.next ((s.at at_).perstLow e dur).startWaiting)

/-- GOVERNOR_ALIGN: an HTIME berth frozen for alignment runs from its grid point (R100). -/
def execGovernorAlign (b : Nat) (s : State) : Answer := .next (s.aligned b).startWaiting

/-- SPARE_PIPE_TAKEOVER: a failed pipe's dock goes to the spare pipe, or its berths are parked (R263, R264). -/
def execSparePipeTakeover (d k at_ : Nat) (s : State) : Answer := s.onDock d k (.next ((s.at at_).takeOver d k).startWaiting)

/-- VOTER_DISAGREE: a member of a triple is outvoted, or a checked pair halts (R514, R515). -/
def execVoterDisagree (d : Nat) (hm : Bool) (m at_ : Nat) (s : State) : Answer :=
  s.onDie d (if hm = true ∧ d ≠ 0 then .fault (.noSuchUnit "harbourmaster") else .next ((s.at at_).outvote d hm m).startWaiting)

/-- DOMAIN_ENTRY: the deputy of die d waits: an armed entry starts or is committed (R528). -/
def execDomainEntry (d ap1 at_ : Nat) (s : State) : Answer := s.onDie d (.next ((s.at at_).enterDomain d ap1).startWaiting)

/-- DOMAIN_ENTRY_ABANDON: a wake event of HIC source src (R529 to R531). -/
def execDomainEntryAbandon (d src at_ : Nat) (s : State) : Answer := s.onDie d (.next ((s.at at_).wakeEntry d src).startWaiting)

end Sys2Proof.Machine
end

