-- ==== Sys2Proof/Machine/Commit.lean ====
section
/-! DEFINITION. Watch commits with the commands that wait for them, recovery, relocation, migration, and the ends of waits for a time or a domain (R117,
R460, R469, R499 to R513, R526, R527). -/

namespace Sys2Proof.Machine

/-- What a command that waited for a commit does at it (R460). SEG_DEFINE's descriptor has come with the watch (R129). -/
def commitBody (op : Nat) : State → Cmd → Res :=
  match op with
  | 0x04 => cmdClockConfig
  | 0x31 => cmdThermalPolicy
  | 0x13 => cmdCellarWrite
  | 0x15 => cmdPageShare
  | 0x18 => cmdBerthStart
  | 0x20 => cmdStreamBind
  | 0x21 => cmdStreamUnbind
  | 0x22 => cmdInputBind
  | _ => fun s _ => .ok 0 [] s

/-- What a command that waited for a domain, its time or a failover does then, as if it were fetched now. -/
def rerunBody (op : Nat) : State → Cmd → Res :=
  match op with
  | 0x13 => runCellarWrite
  | 0x14 => cmdCellarRead
  | 0x15 => runPageShare
  | 0x18 => runBerthStart
  | 0x20 => runStreamBind
  | 0x21 => runStreamUnbind
  | 0x28 => cmdQuayConfig
  | _ => fun s _ => .ok 0 [] s

/-- A flying command ends, or waits on, with what it now answers. -/
def State.finish (s : State) (f : Flying) (r : State → Cmd → Res) : State :=
  let t := { s with flying := s.flying.erase f }
  t.conclude2 f.op f.cmd (r t f.cmd)

/-- The command was fetched no later than the watch of sequence number n ended. -/
def Flying.before (f : Flying) (n : Nat) : Bool := decide ((n + 2 ^ 32 - f.seq) % 2 ^ 32 < 2 ^ 31)

/-- The commands of berth b that take effect at the commit of watch n (R460). -/
def State.atThisCommit (s : State) (b n : Nat) : List Flying :=
  s.flying.filter (fun f => scopeB f.op f.cmd && decide (f.cmd.berth = b ∧ f.why = .commit ∧ f.op ≠ 0x19) && f.before n)

/-- A watch closed for a pause or a move has committed: the pause freezes the berth and completes, the move begins (R469, R500, R511, R512). -/
def State.carryOut (s : State) (b : Nat) : State :=
  match s.berth b with
  | none => s
  | some x =>
    if !x.freezes.contains .closed ∨ !x.ended.isEmpty then s
    else
      let f0 := x.freezes.filter (fun z => decide (z ≠ .closed))
      let pz := s.flying.find? (fun f => decide (f.op = 0x19 ∧ f.cmd.berth = b))
      let f1 := if pz.isSome then f0 ++ [.pause] else f0
      let g1 := if pz.isSome then some 3 else x.gapCause
      let y := match x.dest with
        | none => s.thaw { x with freezes := f1, gapCause := g1 }
        | some (_, k, _) =>
          if k = x.dock then { x with freezes := f1 ++ [.recovery], moving := true, gapCause := g1 }
          else s.dropLag { x with freezes := f1 ++ [.migrate], moving := true, gapCause := if pz.isSome then g1 else some 5 }
      let t := s.setBerth y
      match pz with
      | some f => t.land f (x.side.bt % 2 ^ 64)
      | none => t

/-- The descriptors that wait for a watch's commit are written (R129). -/
def Berth.applySegs (x : Berth) : Berth :=
  x.segDefs.foldl (fun (y : Berth) e => y.amend (fun z => { z with desc := z.desc.set (⟨e.1 % 16, Nat.mod_lt _ (by decide)⟩ : Fin 16) e.2 }))
    { x with segDefs := [] }

/-- A berth without berth time has no watch commit: the commands that wait for one take effect at once, a pause holding after a placement (R460, R469). -/
def State.atOnce (s : State) (b : Nat) : State :=
  match s.berth b with
  | none => s
  | some x =>
    if x.hasTime then s
    else (s.flying.filter (fun f => scopeB f.op f.cmd && decide (f.cmd.berth = b ∧ f.why = .commit))).foldl (fun (t : State) f =>
      if f.op = 0x19 then (t.modBerth b (fun y => { y with freezes := y.freezes ++ [.pause] })).land f (x.side.bt % 2 ^ 64)
      else t.finish f (commitBody f.op)) (s.setBerth x.applySegs)

/-- After the outputs of watch n of berth b have been released: the commands that waited take effect and complete (R460), the pause or move the watch was
closed for is carried out, and the core goes on. -/
def State.afterCommit (s : State) (b n : Nat) : State :=
  ((((s.atThisCommit b n).foldl (fun (t : State) f => t.finish f (commitBody f.op)) s).carryOut b).atOnce b).settle b

/-- Steps 3 to 5 of the oldest ended watch of berth b (Table 14-4). -/
def State.commitOldest (s : State) (b : Nat) : State :=
  match s.berth b with
  | none => s
  | some x => match x.ended with
    | [] => s
    | r :: rest =>
      if r.headerDone ∨ r.acc.mismatch ∨ x.parked then s
      else match s.commitHeader x r rest with
      | (false, t) => t
      | (true, t) => match t.berth b with
        | none => t
        | some y =>
          let r1 := { r with headerDone := true }
          if t.storeFits y r.acc.stamps.length none then (t.releaseOutputs y r1 rest).afterCommit b r.acc.seq else t.waitStore y r1 rest

/-- WATCH_COMMIT: 2 µs or more after its boundary the oldest ended watch of berth b commits (R499, R502). For a berth that has lost its berth time the
commands that waited for a commit take effect (R460). -/
def execWatchCommit (b at_ : Nat) (s : State) : Answer :=
  .next (State.startWaiting (match s.berth b with
    | none => s
    | some x => if !x.hasTime then (s.at at_).atOnce b else match x.ended with
      | [] => s
      | r :: _ =>
        if r.headerDone ∨ r.acc.mismatch ∨ x.parked then s else (s.at (max at_ (r.at_ + 2000))).commitOldest b))

/-- The place of a berth's waiting commit in the order of its dock, none where it holds none (R117). -/
def Berth.storePlace (x : Berth) : Option Nat :=
  match x.ended with
  | r :: _ => match r.waiting with
    | some (k + 1) => some (k + 1)
    | _ => none
  | [] => none

/-- The waiting commit of dock k that is first in the order. -/
def State.firstWaiter (s : State) (d k : Nat) : Option (Berth × Nat) :=
  (s.dockBerths d k).foldl (fun (m : Option (Berth × Nat)) x => match x.storePlace, m with
    | some p, none => some (x, p)
    | some p, some (y, q) => if p < q then some (x, p) else some (y, q)
    | none, m => m) none

/-- STAMP_STORE_ADMIT: commits held back by their own share alone join the order once it has room, and the first waiting commit of dock k is admitted when
its stamps fit (R117). -/
def execStampStoreAdmit (d k at_ : Nat) (s : State) : Answer :=
  s.onDock d k (.next (State.startWaiting (
    let u := s.at at_
    let t := (u.dockBerths d k).foldl (fun (v : State) x => v.joinOrder x.id) u
    match t.firstWaiter d k with
    | none => t
    | some (x, p) => match x.ended with
      | r :: rest =>
        if t.storeFits x r.acc.stamps.length (some p) then (t.releaseOutputs x { r with waiting := none } rest).afterCommit x.id r.acc.seq else t
      | [] => t)))

/-- A lockstep mismatch may strike berth x: it runs, or is being moved (R503, R513). -/
def Berth.mayMismatch (x : Berth) : Bool :=
  x.started && !x.parked && x.parkReq.isNone &&
  x.freezes.all (fun f => decide (f ≠ .pause) && decide (f ≠ .align) && (decide (f ≠ .recovery) || x.moving))

/-- The mismatch of a berth whose deputy has halted: no recovery, the berth stays frozen (R515). It is attributed to the watch in progress, or to the n-th
ended watch counted back from it. -/
def Berth.stuck (x : Berth) (n : Nat) : Berth :=
  let y : Berth := { x with freezes := x.freezes ++ [.recovery] }
  if n = 0 then { y with cur := { y.cur with mismatch := true } }
  else { y with ended := y.ended.modify (y.ended.length - n) (fun r => { r with acc := { r.acc with mismatch := true } }) }

/-- Commit the n oldest ended watches of berth b (R504). -/
def State.commitFirst (s : State) (b : Nat) : Nat → State
  | 0 => s
  | n + 1 => (s.commitOldest b).commitFirst b n

/-- Steps 4 to 6 of a recovery: berth b goes into slot n of dock k (Table 14-6, R508). -/
def State.recoverInto (s : State) (b k n fr : Nat) : State :=
  match s.berth b with
  | none => s
  | some z =>
    let paused := s.flying.any (fun f => decide (f.op = 0x19 ∧ f.cmd.berth = b))
    let y : Berth := s.thaw { (if k = z.dock then z else s.inBank z k) with relocs := z.relocs + 1, reloc := 0, dest := none, closeReq := paused, gapCause := none }
    let t := (s.place y k n).hurtSlot z.die z.dock z.slot
    let old := slotLoc z.die z.dock z.slot
    let u := (t.postMoved b old (slotLoc z.die k n) 1 ((z.locGen + 1) % 65536) fr z.die).logFault 1 z.die (some b) old z.dock [slotLoc z.die k n]
    let w := match u.waiter b .move with
      | some f => u.land f (slotLoc z.die k n)
      | none => u
    w.settle b

/-- The ended watches of a berth whose header is not written: those a rollback can take back. -/
def Berth.uncommitted (x : Berth) : Nat := (x.ended.filter (fun r => !r.headerDone)).length

/-- LOCKSTEP_MISMATCH: a core or checker mismatch of berth b, attributed to its watch in progress or to the back-th uncommitted watch before it: the watches
before that one commit, then recovery by Table 14-6, with a freeze of fr ns, at most 6 µs, and fails further mismatches in the slots tried (R503 to R508, R513). -/
def execLockstepMismatch (b back fails fr at_ : Nat) (s : State) : Answer :=
  .next (State.startWaiting (
    let u := s.at at_
    match u.berth b with
    | none => u
    | some x =>
      if !x.mayMismatch then u
      else
        let s1 := u.hicSet x.die (64 + 17 * x.dock + x.slot)
        let n := min back x.uncommitted
        if u.deputyHalted x.die then s1.setBerth (x.stuck n)
        else
          let s2 := s1.commitFirst b (x.uncommitted - n)
          match s2.berth b with
          | none => s2
          | some y => match s2.rollback y with
            | (some c, t) => (match t.berth b with
              | some z => t.parkHere z c
              | none => t)
            | (none, t) =>
              let k := match y.dest with
                | some (_, m, _) => if y.moving ∧ t.imageFits y m then m else y.dock
                | none => y.dock
              if k ≠ y.dock ∧ 16 ≤ (t.slotsIn y.die k 1).length then t.parkNoSpare b
              else match t.pickAfter y.die k (min fails 17) with
                | (none, v) => v.parkNoSpare b
                | (some m, v) => (v.at (at_ + min fr 6000)).recoverInto b k m (min fr 6000)))

/-- A berth whose migration ends runs on, aligned anew in HTIME mode, unless it is paused (R100, R512). -/
def State.endMigrate (s : State) (x : Berth) : Berth :=
  if x.freezes.contains .migrate ∧ !x.freezes.contains .pause then s.resumeBerth x .migrate
  else { x with freezes := x.freezes.filter (fun z => decide (z ≠ .migrate)) }

/-- A move that its destination cannot take is given up: the command gets error e, NOSPACE where no SPARE slot is left or the dock has reached its count, BUSY
where its image is another (R470, R582). -/
def State.dropMove (s : State) (x : Berth) (e : Nat) : State :=
  let z := s.endMigrate x
  let y : Berth := s.thaw { z with
    moving := false, reloc := 0, dest := none
    freezes := z.freezes.filter (fun f => decide (f ≠ .recovery))
    gapCause := if z.gapCause = some 5 then none else z.gapCause }
  let t := s.setBerth y
  match t.waiter x.id .move with
  | some f => t.landErr f e
  | none => t

/-- The slot that a move takes: the one named while it is SPARE, else the lowest SPARE slot of the dock. -/
def State.moveSlot (s : State) (d k n : Nat) : Option Nat := if s.slot d k n = 0 then some n else (s.slotsIn d k 0).head?

/-- A moved berth stands in slot n of dock k: its old slot is TEST, the event is posted, and the command completes with LOC (R511, R512). -/
def State.moved (s : State) (x : Berth) (y : Berth) (k n fr : Nat) : State :=
  let old := slotLoc x.die x.dock x.slot
  let new := slotLoc x.die k n
  let z : Berth := { y with relocs := y.relocs + 1, reloc := 0, dest := none }
  let t := (s.place z k n).slotToTest x.die x.dock x.slot false
  let u := t.postMoved x.id old new x.reloc ((x.locGen + 1) % 65536) fr x.die
  let w := match u.waiter x.id .move with
    | some f => u.land f new
    | none => u
  w.settle x.id

/-- A berth that was parked while it was to be moved: the BERTH_MIGRATE that waits is its placement (R470). -/
def State.placeWaiter (s : State) (b : Nat) : State :=
  match s.waiter b .move with
  | some f => s.finish f runBerthMigrate
  | none => s

/-- FAULT_FREE_RELOCATION: a berth that is moving within its dock runs on in a SPARE slot after a freeze of fr ns, at most 6 µs, with no rewind (R511). -/
def execFaultFreeRelocation (b fr at_ : Nat) (s : State) : Answer :=
  .next (State.startWaiting (
    let u := s.at at_
    match u.berth b with
    | none => u
    | some x => if x.parked then u.placeWaiter b else match x.dest with
      | none => u
      | some (_, k, n) =>
        if !x.moving ∨ k ≠ x.dock ∨ !x.ended.isEmpty ∨ u.deputyHalted x.die then u
        else match u.moveSlot x.die k n with
        | none => u.dropMove x 7
        | some m =>
          let t := u.at (at_ + min fr 6000)
          t.moved x (t.thaw { x with freezes := x.freezes.filter (fun f => decide (f ≠ .recovery)) }) k m (min fr 6000)))

/-- The old dock has let go of a berth: its composable lines are released and no Ferry manifest of it runs that must run to completion (R259, R356). -/
def State.dockLetGo (s : State) (x : Berth) : Bool :=
  x.dockDone &&
  (match (s.pipeOf x.die x.dock).cur with
    | some c => decide (c.berth ≠ x.id)
    | none => true)

/-- CROSS_DOCK_MIGRATION: a berth that is moving to another dock runs there after a freeze of fr ns, at most 250 µs, its lag discarded (R512). -/
def execCrossDockMigration (b fr at_ : Nat) (s : State) : Answer :=
  .next (State.startWaiting (
    let u := s.at at_
    match u.berth b with
    | none => u
    | some x => if x.parked then u.placeWaiter b else match x.dest with
      | none => u
      | some (_, k, n) =>
        if !x.moving ∨ k = x.dock ∨ !x.ended.isEmpty ∨ u.deputyHalted x.die ∨ !u.dockLetGo x then u
        else if u.prof.berths ≤ (u.slotsIn x.die k 1).length then u.dropMove x 7
        else if !u.imageFits x k then u.dropMove x 8
        else match u.moveSlot x.die k n with
        | none => u.dropMove x 7
        | some m =>
          let t := u.at (at_ + min fr 250000)
          let y := t.endMigrate x
          let z := t.inBank y k
          let m2 := z.stream
          t.moved x { z with stream := if m2.bound then { m2 with report := true, reason := 5 } else m2 } k m (min fr 250000)))

/-- BERTH_START_TIME: harbour time reaches the AT of a deferred BERTH_START of berth b (R469). -/
def execBerthStartTime (b : Nat) (s : State) : Answer :=
  .next (State.startWaiting (match s.waiter b .time with
    | none => s
    | some f => (s.at (f.cmd.p 24 8)).finish f runBerthStart))

/-- The stream commands that waited for a failover go on (R432, R459). -/
def State.afterFailover (s : State) : State :=
  (s.flying.filter (fun f => decide (f.why = .failover))).foldl (fun (t : State) f => t.finish f (rerunBody f.op)) s

/-- QUAY_FAILOVER: the deputy writes GO to QY_FAILOVER (R429 to R432). -/
def execQuayFailover (q at_ : Nat) (s : State) : Answer :=
  s.onQuay q (.next (State.startWaiting ((s.at at_).failover q).afterFailover))

/-- DOMAIN_RETURN_DONE: a domain that returns to ON reaches it in the state of Table 15-3, and the commands that wait for it go on (R525 to R527). -/
def execDomainReturnDone (d code at_ : Nat) (s : State) : Answer :=
  s.onDie d (.next (State.startWaiting (
    let u := s.at at_
    match tfind u.domains (backKey d code) with
    | none => u
    | some was =>
      if u.domain d code ≠ 3 then u
      else
        let t := { u with domains := tdel u.domains (backKey d code) }.returned d code was
        let n := (t.flying.filter (fun f => decide (f.op = 0x30 ∧ f.cmd.b 24 = d ∧ f.cmd.b 25 = code ∧ f.why = .domain))).length
        let v := (List.range n).foldl (fun (w : State) _ => w.donePower .domain d code 0) t
        (v.flying.filter (fun f => decide (f.why = .domain ∧ f.op ≠ 0x30))).foldl (fun (w : State) f => w.finish f (rerunBody f.op)) v)))

end Sys2Proof.Machine
end

