-- ==== Sys2Proof/Machine/Dispatch.lean ====
section
/-! DEFINITION. The dispatch of commands to their meanings, one arm per constructor of Instr. -/

namespace Sys2Proof.Machine

/-- The effect of a command on everything but the queue. -/
def exec (i : Instr) (s : State) : Host.Outcome State Fault Refusal :=
  match i with
  | .nop b => Sys2Proof.Machine.execNop b s
  | .wait b => Sys2Proof.Machine.execWait b s
  | .waitEnd b k => Sys2Proof.Machine.execWaitEnd b k s
  | .halt b => Sys2Proof.Machine.execHalt b s
  | .ei b => Sys2Proof.Machine.execEi b s
  | .di b => Sys2Proof.Machine.execDi b s
  | .reti b => Sys2Proof.Machine.execReti b s
  | .trap b n => Sys2Proof.Machine.execTrap b n s
  | .ldseg b n src => Sys2Proof.Machine.execLdseg b n src s
  | .rdfl b d => Sys2Proof.Machine.execRdfl b d s
  | .wrfl b r => Sys2Proof.Machine.execWrfl b r s
  | .mov b d r => Sys2Proof.Machine.execMov b d r s
  | .add b d r => Sys2Proof.Machine.execAdd b d r s
  | .adc b d r => Sys2Proof.Machine.execAdc b d r s
  | .sub b d r => Sys2Proof.Machine.execSub b d r s
  | .sbc b d r => Sys2Proof.Machine.execSbc b d r s
  | .cmp b d r => Sys2Proof.Machine.execCmp b d r s
  | .and b d r => Sys2Proof.Machine.execAnd b d r s
  | .or b d r => Sys2Proof.Machine.execOr b d r s
  | .xor b d r => Sys2Proof.Machine.execXor b d r s
  | .tst b d r => Sys2Proof.Machine.execTst b d r s
  | .not b d r => Sys2Proof.Machine.execNot b d r s
  | .neg b d r => Sys2Proof.Machine.execNeg b d r s
  | .movi b d v => Sys2Proof.Machine.execMovi b d v s
  | .addi b d imm => Sys2Proof.Machine.execAddi b d imm s
  | .cmpi b d imm => Sys2Proof.Machine.execCmpi b d imm s
  | .andi b d imm => Sys2Proof.Machine.execAndi b d imm s
  | .ld b d m => Sys2Proof.Machine.execLd b d m s
  | .st b r m => Sys2Proof.Machine.execSt b r m s
  | .push b r => Sys2Proof.Machine.execPush b r s
  | .pop b d => Sys2Proof.Machine.execPop b d s
  | .bcc b c disp => Sys2Proof.Machine.execBcc b c disp s
  | .jmp b t => Sys2Proof.Machine.execJmp b t s
  | .call b t mask => Sys2Proof.Machine.execCall b t mask s
  | .ret b => Sys2Proof.Machine.execRet b s
  | .inPort b d o => Sys2Proof.Machine.execIn b d o s
  | .out b o r => Sys2Proof.Machine.execOut b o r s
  | .shl b d n => Sys2Proof.Machine.execShl b d n s
  | .shr b d n => Sys2Proof.Machine.execShr b d n s
  | .sar b d n => Sys2Proof.Machine.execSar b d n s
  | .rol b d n => Sys2Proof.Machine.execRol b d n s
  | .ror b d n => Sys2Proof.Machine.execRor b d n s
  | .rcl b d n => Sys2Proof.Machine.execRcl b d n s
  | .rcr b d n => Sys2Proof.Machine.execRcr b d n s
  | .mulu b p r => Sys2Proof.Machine.execMulu b p r s
  | .muls b p r => Sys2Proof.Machine.execMuls b p r s
  | .divu b p r => Sys2Proof.Machine.execDivu b p r s
  | .divs b p r => Sys2Proof.Machine.execDivs b p r s
  | .waitl b o => Sys2Proof.Machine.execWaitl b o s
  | .waitlEnd b k => Sys2Proof.Machine.execWaitlEnd b k s
  | .waitc b o => Sys2Proof.Machine.execWaitc b o s
  | .waitcEnd b k => Sys2Proof.Machine.execWaitcEnd b k s
  | .rdbeam b p => Sys2Proof.Machine.execRdbeam b p s
  | .stamp b port r c => Sys2Proof.Machine.execStamp b port r c s
  | .illegalEncoding b w => Sys2Proof.Machine.execIllegalEncoding b w s
  | .interruptEntry b => Sys2Proof.Machine.execInterruptEntry b s
  | .lvPortWrite b o r => Sys2Proof.Machine.execLvPortWrite b o r s
  | .shPortWrite b o r => Sys2Proof.Machine.execShPortWrite b o r s
  | .commitArm b o r => Sys2Proof.Machine.execCommitArm b o r s
  | .paceSet b o r => Sys2Proof.Machine.execPaceSet b o r s
  | .btValueWrite b o r => Sys2Proof.Machine.execBtValueWrite b o r s
  | .biPendWrite b o r => Sys2Proof.Machine.execBiPendWrite b o r s
  | .biEoi b o r => Sys2Proof.Machine.execBiEoi b o r s
  | .ferryGo b o r => Sys2Proof.Machine.execFerryGo b o r s
  | .ferryAbort b o r => Sys2Proof.Machine.execFerryAbort b o r s
  | .lighterPush b o r => Sys2Proof.Machine.execLighterPush b o r s
  | .ljDeadtWrite b o r => Sys2Proof.Machine.execLjDeadtWrite b o r s
  | .voiceKeyon b o r => Sys2Proof.Machine.execVoiceKeyon b o r s
  | .voiceKeyoff b o r => Sys2Proof.Machine.execVoiceKeyoff b o r s
  | .sampleRingConfig b o r => Sys2Proof.Machine.execSampleRingConfig b o r s
  | .padRpWrite b o r => Sys2Proof.Machine.execPadRpWrite b o r s
  | .lentPinWrite b o r => Sys2Proof.Machine.execLentPinWrite b o r s
  | .beamLineStart b k => Sys2Proof.Machine.execBeamLineStart b k s
  | .frameBoundary b k => Sys2Proof.Machine.execFrameBoundary b k s
  | .governorAlign b => Sys2Proof.Machine.execGovernorAlign b s
  | .sampleInstant b k => Sys2Proof.Machine.execSampleInstant b k s
  | .berthTimerMatch b n k => Sys2Proof.Machine.execBerthTimerMatch b n k s
  | .biModerationRelease b k => Sys2Proof.Machine.execBiModerationRelease b k s
  | .watchEnd b => Sys2Proof.Machine.execWatchEnd b s
  | .watchCommit b at_ => Sys2Proof.Machine.execWatchCommit b at_ s
  | .stampStoreAdmit d k at_ => Sys2Proof.Machine.execStampStoreAdmit d k at_ s
  | .lockstepMismatch b back fails fr at_ => Sys2Proof.Machine.execLockstepMismatch b back fails fr at_ s
  | .faultFreeRelocation b fr at_ => Sys2Proof.Machine.execFaultFreeRelocation b fr at_ s
  | .crossDockMigration b fr at_ => Sys2Proof.Machine.execCrossDockMigration b fr at_ s
  | .composeLine d k at_ => Sys2Proof.Machine.execComposeLine d k at_ s
  | .lineRelease d k check at_ => Sys2Proof.Machine.execLineRelease d k check at_ s
  | .pipeWatchdogExpiry d k at_ => Sys2Proof.Machine.execPipeWatchdogExpiry d k at_ s
  | .sparePipeTakeover d k at_ => Sys2Proof.Machine.execSparePipeTakeover d k at_ s
  | .scanoutLineRead b => Sys2Proof.Machine.execScanoutLineRead b s
  | .scanSegmentQueue b => Sys2Proof.Machine.execScanSegmentQueue b s
  | .outputFrameStart b => Sys2Proof.Machine.execOutputFrameStart b s
  | .quayTransmitFrame q at_ => Sys2Proof.Machine.execQuayTransmitFrame q at_ s
  | .injectReorderRelease q at_ => Sys2Proof.Machine.execInjectReorderRelease q at_ s
  | .quayReceiveFrame q bytes fcs reply at_ => Sys2Proof.Machine.execQuayReceiveFrame q bytes fcs reply at_ s
  | .pfcPauseExpiry q c => Sys2Proof.Machine.execPfcPauseExpiry q c s
  | .quayPfcGenerate q fill at_ => Sys2Proof.Machine.execQuayPfcGenerate q fill at_ s
  | .quayLinkUp q l => Sys2Proof.Machine.execQuayLinkUp q l s
  | .quayLossOfLock q cause at_ => Sys2Proof.Machine.execQuayLossOfLock q cause at_ s
  | .quayFailover q at_ => Sys2Proof.Machine.execQuayFailover q at_ s
  | .qyTimestampPop r q tx at_ => Sys2Proof.Machine.execQyTimestampPop r q tx at_ s
  | .qyInjseedWrite r q v at_ => Sys2Proof.Machine.execQyInjseedWrite r q v at_ s
  | .registerWrite r a size v at_ => Sys2Proof.Machine.execRegisterWrite r a size v at_ s
  | .pairLowRead r a size at_ => Sys2Proof.Machine.execPairLowRead r a size at_ s
  | .dpLoadRead r d k off size at_ => Sys2Proof.Machine.execDpLoadRead r d k off size at_ s
  | .pwTjRead r d off size at_ => Sys2Proof.Machine.execPwTjRead r d off size at_ s
  | .hostCellarRead r off n at_ => Sys2Proof.Machine.execHostCellarRead r off n at_ s
  | .hostCellarWrite r off bytes at_ => Sys2Proof.Machine.execHostCellarWrite r off bytes at_ s
  | .ledgerFence r d v at_ => Sys2Proof.Machine.execLedgerFence r d v at_ s
  | .ledgerFenceDone d at_ => Sys2Proof.Machine.execLedgerFenceDone d at_ s
  | .patrolScrubRead d b up at_ => Sys2Proof.Machine.execPatrolScrubRead d b up at_ s
  | .rowRepairStart d b at_ => Sys2Proof.Machine.execRowRepairStart d b at_ s
  | .rowRepairDone d b at_ => Sys2Proof.Machine.execRowRepairDone d b at_ s
  | .fabricLinkDown d port t => Sys2Proof.Machine.execFabricLinkDown d port t s
  | .htGo r v at_ => Sys2Proof.Machine.execHtGo r v at_ s
  | .htRelease k => Sys2Proof.Machine.execHtRelease k s
  | .htMatch d n k => Sys2Proof.Machine.execHtMatch d n k s
  | .htValueWrite r d n fld v at_ => Sys2Proof.Machine.execHtValueWrite r d n fld v at_ s
  | .hicPendWrite r d g v hw at_ => Sys2Proof.Machine.execHicPendWrite r d g v hw at_ s
  | .hicEoi r d v at_ => Sys2Proof.Machine.execHicEoi r d v at_ s
  | .hicModerationRelease d g t idle => Sys2Proof.Machine.execHicModerationRelease d g t idle s
  | .hostRingEnable r e v at_ => Sys2Proof.Machine.execHostRingEnable r e v at_ s
  | .hostRingDisable r e v at_ => Sys2Proof.Machine.execHostRingDisable r e v at_ s
  | .sqTailDoorbell r e n v at_ => Sys2Proof.Machine.execSqTailDoorbell r e n v at_ s
  | .cqHeadDoorbell r e n v at_ => Sys2Proof.Machine.execCqHeadDoorbell r e n v at_ s
  | .evHeadDoorbell r e v at_ => Sys2Proof.Machine.execEvHeadDoorbell r e v at_ s
  | .underrunSummaryPost b at_ => Sys2Proof.Machine.execUnderrunSummaryPost b at_ s
  | .ledgerDenialEvent d at_ => Sys2Proof.Machine.execLedgerDenialEvent d at_ s
  | .echo c at_ => Sys2Proof.Machine.execEcho c at_ s
  | .profileQuery c at_ => Sys2Proof.Machine.execProfileQuery c at_ s
  | .profileSelect c w at_ => Sys2Proof.Machine.execProfileSelect c w at_ s
  | .clockConfig c at_ => Sys2Proof.Machine.execClockConfig c at_ s
  | .faultLogRead c at_ => Sys2Proof.Machine.execFaultLogRead c at_ s
  | .measureRead c at_ => Sys2Proof.Machine.execMeasureRead c at_ s
  | .mcReload c at_ => Sys2Proof.Machine.execMcReload c at_ s
  | .berthCreate c at_ => Sys2Proof.Machine.execBerthCreate c at_ s
  | .berthDestroy c at_ => Sys2Proof.Machine.execBerthDestroy c at_ s
  | .segDefine c at_ => Sys2Proof.Machine.execSegDefine c at_ s
  | .cellarWrite c at_ => Sys2Proof.Machine.execCellarWrite c at_ s
  | .cellarRead c at_ => Sys2Proof.Machine.execCellarRead c at_ s
  | .pageShare c at_ => Sys2Proof.Machine.execPageShare c at_ s
  | .berthStart c at_ => Sys2Proof.Machine.execBerthStart c at_ s
  | .berthStartTime b => Sys2Proof.Machine.execBerthStartTime b s
  | .berthPause c at_ => Sys2Proof.Machine.execBerthPause c at_ s
  | .berthResume c at_ => Sys2Proof.Machine.execBerthResume c at_ s
  | .berthMigrate c at_ => Sys2Proof.Machine.execBerthMigrate c at_ s
  | .berthStatus c at_ => Sys2Proof.Machine.execBerthStatus c at_ s
  | .streamBind c at_ => Sys2Proof.Machine.execStreamBind c at_ s
  | .streamUnbind c at_ => Sys2Proof.Machine.execStreamUnbind c at_ s
  | .inputBind c at_ => Sys2Proof.Machine.execInputBind c at_ s
  | .quayConfig c at_ => Sys2Proof.Machine.execQuayConfig c at_ s
  | .quayInject c at_ => Sys2Proof.Machine.execQuayInject c at_ s
  | .macsecKey c at_ => Sys2Proof.Machine.execMacsecKey c at_ s
  | .powerSet c at_ => Sys2Proof.Machine.execPowerSet c at_ s
  | .thermalPolicy c at_ => Sys2Proof.Machine.execThermalPolicy c at_ s
  | .selftestPolicy c at_ => Sys2Proof.Machine.execSelftestPolicy c at_ s
  | .selftestReport c at_ => Sys2Proof.Machine.execSelftestReport c at_ s
  | .mctpCommand t c at_ => Sys2Proof.Machine.execMctpCommand t c at_ s
  | .mctpStatus v => Sys2Proof.Machine.execMctpStatus v s
  | .setEndpointId t eid at_ => Sys2Proof.Machine.execSetEndpointId t eid at_ s
  | .getEndpointId t at_ => Sys2Proof.Machine.execGetEndpointId t at_ s
  | .getMctpVersionSupport v => Sys2Proof.Machine.execGetMctpVersionSupport v s
  | .getMessageTypeSupport v => Sys2Proof.Machine.execGetMessageTypeSupport v s
  | .getVersion v => Sys2Proof.Machine.execGetVersion v s
  | .getCapabilities v req => Sys2Proof.Machine.execGetCapabilities v req s
  | .negotiateAlgorithms v req => Sys2Proof.Machine.execNegotiateAlgorithms v req s
  | .getDigests v => Sys2Proof.Machine.execGetDigests v s
  | .getCertificate v slot off len => Sys2Proof.Machine.execGetCertificate v slot off len s
  | .challenge v req => Sys2Proof.Machine.execChallenge v req s
  | .getMeasurements v signed idx req => Sys2Proof.Machine.execGetMeasurements v signed idx req s
  | .keyExchange v half req => Sys2Proof.Machine.execKeyExchange v half req s
  | .finish v id req => Sys2Proof.Machine.execFinish v id req s
  | .endSession v id => Sys2Proof.Machine.execEndSession v id s
  | .ferryManifestStart b at_ => Sys2Proof.Machine.execFerryManifestStart b at_ s
  | .ferryStreamUnit b at_ => Sys2Proof.Machine.execFerryStreamUnit b at_ s
  | .ferryManifestComplete b n at_ => Sys2Proof.Machine.execFerryManifestComplete b n at_ s
  | .lighterJobStart b at_ => Sys2Proof.Machine.execLighterJobStart b at_ s
  | .lighterRowComplete b tag at_ => Sys2Proof.Machine.execLighterRowComplete b tag at_ s
  | .lighterJobComplete b tag at_ => Sys2Proof.Machine.execLighterJobComplete b tag at_ s
  | .engineFault d k e cause at_ => Sys2Proof.Machine.execEngineFault d k e cause at_ s
  | .voterDisagree d hm m at_ => Sys2Proof.Machine.execVoterDisagree d hm m at_ s
  | .voterRejoin d hm m at_ => Sys2Proof.Machine.execVoterRejoin d hm m at_ s
  | .selftestSchedule d at_ => Sys2Proof.Machine.execSelftestSchedule d at_ s
  | .selftestTurnStart d at_ => Sys2Proof.Machine.execSelftestTurnStart d at_ s
  | .selftestBudgetEnd d kind unit at_ => Sys2Proof.Machine.execSelftestBudgetEnd d kind unit at_ s
  | .selftestSliceEnd d kind unit sig bit addr rows at_ => Sys2Proof.Machine.execSelftestSliceEnd d kind unit sig bit addr rows at_ s
  | .jtagScanEnter at_ => Sys2Proof.Machine.execJtagScanEnter at_ s
  | .wdogKick r v at_ => Sys2Proof.Machine.execWdogKick r v at_ s
  | .wdogTimeoutSet r v at_ => Sys2Proof.Machine.execWdogTimeoutSet r v at_ s
  | .watchdogExpiry w at_ => Sys2Proof.Machine.execWatchdogExpiry w at_ s
  | .pwModeOn r d v at_ => Sys2Proof.Machine.execPwModeOn r d v at_ s
  | .pwModeArm r d v at_ => Sys2Proof.Machine.execPwModeArm r d v at_ s
  | .domainEntry d ap1 at_ => Sys2Proof.Machine.execDomainEntry d ap1 at_ s
  | .domainEntryAbandon d src at_ => Sys2Proof.Machine.execDomainEntryAbandon d src at_ s
  | .domainReturnDone d code at_ => Sys2Proof.Machine.execDomainReturnDone d code at_ s
  | .measureExtend r d v at_ => Sys2Proof.Machine.execMeasureExtend r d v at_ s
  | .mcLaddrWrite r d k v at_ => Sys2Proof.Machine.execMcLaddrWrite r d k v at_ s
  | .mcLoadWord r d k v at_ => Sys2Proof.Machine.execMcLoadWord r d k v at_ s
  | .mcCrcCheck r d k v at_ => Sys2Proof.Machine.execMcCrcCheck r d k v at_ s
  | .mcCrcCheckDone d k at_ => Sys2Proof.Machine.execMcCrcCheckDone d k at_ s
  | .mcSwitch r d k v at_ => Sys2Proof.Machine.execMcSwitch r d k v at_ s
  | .calLoad r v at_ => Sys2Proof.Machine.execCalLoad r v at_ s
  | .calendarTick n at_ => Sys2Proof.Machine.execCalendarTick n at_ s
  | .keeperWake n level at_ => Sys2Proof.Machine.execKeeperWake n level at_ s
  | .pwrgdTimeout => Sys2Proof.Machine.execPwrgdTimeout s
  | .keeperShutdown r v at_ => Sys2Proof.Machine.execKeeperShutdown r v at_ s
  | .supplyLoss at_ => Sys2Proof.Machine.execSupplyLoss at_ s
  | .shutdownHoldoffEnd ms => Sys2Proof.Machine.execShutdownHoldoffEnd ms s
  | .vkeepApply => Sys2Proof.Machine.execVkeepApply s
  | .gpioFunctionSwitch r n v at_ => Sys2Proof.Machine.execGpioFunctionSwitch r n v at_ s
  | .gpioOutWrite r j v at_ => Sys2Proof.Machine.execGpioOutWrite r j v at_ s
  | .gpioEvent n level at_ => Sys2Proof.Machine.execGpioEvent n level at_ s
  | .adcConversion uv at_ => Sys2Proof.Machine.execAdcConversion uv at_ s
  | .pcieFlr e at_ => Sys2Proof.Machine.execPcieFlr e at_ s
  | .pcieD3hotExit e at_ => Sys2Proof.Machine.execPcieD3hotExit e at_ s
  | .perstAssert e dur at_ => Sys2Proof.Machine.execPerstAssert e dur at_ s
  | .perstDeassert e at_ => Sys2Proof.Machine.execPerstDeassert e at_ s
  | .refclkLoss at_ => Sys2Proof.Machine.execRefclkLoss at_ s
  | .refclkRequalify at_ => Sys2Proof.Machine.execRefclkRequalify at_ s
  | .powerSample v0 i0 v1 i1 at_ => Sys2Proof.Machine.execPowerSample v0 i0 v1 i1 at_ s
  | .thermalSample d tj at_ => Sys2Proof.Machine.execThermalSample d tj at_ s
  | .avsStatusPoll vdone at_ => Sys2Proof.Machine.execAvsStatusPoll vdone at_ s
  | .avsRetryTimeout at_ => Sys2Proof.Machine.execAvsRetryTimeout at_ s
  | .avsFaultTimeout at_ => Sys2Proof.Machine.execAvsFaultTimeout at_ s
  | .thermalTrip d tj at_ => Sys2Proof.Machine.execThermalTrip d tj at_ s
  | .coldReset dur => Sys2Proof.Machine.execColdReset dur s
  | .coldBoot w => Sys2Proof.Machine.execColdBoot w s
  | .repairRecordWrite at_ => Sys2Proof.Machine.execRepairRecordWrite at_ s
  | .fabricLinkUp d port t => Sys2Proof.Machine.execFabricLinkUp d port t s
  | .pcieLinkChange e up at_ => Sys2Proof.Machine.execPcieLinkChange e up at_ s
  | .pcieD3hotEntry e at_ => Sys2Proof.Machine.execPcieD3hotEntry e at_ s
  | .pwrgdRise => Sys2Proof.Machine.execPwrgdRise s
  | .raiseholdExpiry at_ => Sys2Proof.Machine.execRaiseholdExpiry at_ s
  | .vkeepLoss => Sys2Proof.Machine.execVkeepLoss s
  | .genlockEdge at_ => Sys2Proof.Machine.execGenlockEdge at_ s
  | .fanTachSecond => Sys2Proof.Machine.execFanTachSecond s

end Sys2Proof.Machine
end

