-- ==== Sys2Proof/Safety.lean ====
section
/-! DEFINITION. What claims about runs say: the units a command names exist on the part, and the canonical form of the cellar's cells. -/

namespace Sys2Proof.Machine

/-- The fabric port joins die d to a neighbour (R18). -/
def State.hasPort (s : State) (d port : Nat) : Bool := s.hasDie d && (s.part.neighbour d port).isSome

/-- Dock k of die d exists (R16). -/
def State.hasDock (s : State) (d k : Nat) : Bool := s.hasDie d && decide (k < 16)

/-- Endpoint e exists (R17). -/
def State.hasEp (s : State) (e : Nat) : Bool := decide (e < s.part.endpoints)

/-- The voter that an event names: a die's deputy, or the harbourmaster, which stands on die 0. -/
def State.hasVoter (s : State) (d : Nat) (hm : Bool) : Bool := s.hasDie d && (!hm || decide (d = 0))

/-- The units that an outside event or a register row names exist on the part. -/
def unitsExist (s : State) (i : Instr) : Bool :=
  match i with
  | .mcLaddrWrite _ _ k _ _ | .mcLoadWord _ _ k _ _ | .mcCrcCheck _ _ k _ _ | .mcSwitch _ _ k _ _ | .dpLoadRead _ _ k _ _ _ =>
    decide (k < 16)
  | .mcCrcCheckDone d k _ | .stampStoreAdmit d k _ | .engineFault d k _ _ _ | .composeLine d k _ | .lineRelease d k _ _
  | .pipeWatchdogExpiry d k _ | .sparePipeTakeover d k _ => s.hasDock d k
  | .domainReturnDone d _ _ | .ledgerDenialEvent d _ | .thermalTrip d _ _ | .domainEntry d _ _ | .domainEntryAbandon d _ _
  | .thermalSample d _ _ | .ledgerFenceDone d _ | .patrolScrubRead d _ _ _ | .rowRepairStart d _ _ | .rowRepairDone d _ _
  | .selftestSchedule d _ | .selftestTurnStart d _ | .selftestBudgetEnd d _ _ _ | .selftestSliceEnd d _ _ _ _ _ _ _
  | .htMatch d _ _ | .hicModerationRelease d _ _ _ => s.hasDie d
  | .voterDisagree d hm _ _ | .voterRejoin d hm _ _ => s.hasVoter d hm
  | .pcieFlr e _ | .pcieD3hotEntry e _ | .pcieD3hotExit e _ | .perstAssert e _ _ | .perstDeassert e _ | .pcieLinkChange e _ _ => s.hasEp e
  | .quayTransmitFrame q _ | .injectReorderRelease q _ | .quayReceiveFrame q _ _ _ _ | .pfcPauseExpiry q _ | .quayPfcGenerate q _ _
  | .quayLinkUp q _ | .quayLossOfLock q _ _ | .quayFailover q _ => s.hasQuay q
  | .fabricLinkDown d port _ | .fabricLinkUp d port _ => s.hasPort d port
  | .gpioFunctionSwitch _ n _ _ | .gpioEvent n _ _ => decide (n < 48)
  | .keeperWake n _ _ => decide (n < 4)
  | _ => true

/-- What a berth's side holds that the passing of berth time alone leaves as it is: the core but for its pace budget's counters, the
descriptors, the shadows, a stalled stamp, the pad view, the pin views, the control store bank in use, and its clocks: berth time and the
microcycle within the sample period (R88 to R90, R305). -/
def BSide.still (x : BSide) : BSide :=
  { x with
    core := { x.core with charges := 0, overrun := 0 }, beam := { geo := storedGeo 0 }, base := [], stamps := []
    ports := [], w1cNow := [], timers := Vector.replicate 4 {}, bi := {}, au := { sacc := x.au.sacc }, fc := Vector.replicate 4 {}, deadlined := [], lj := {} }

/-- What a berth holds that the passing of berth time alone leaves as it is. -/
def Berth.still (x : Berth) : Berth :=
  { x with
    side := x.side.still, cur := {}, gov := {}, regs := [], scale := 1, skipping := false
    frameSkip := false, frames := [], parkReq := none, gen := { x.gen with restart := false } }

/-- What a berth keeps when n microcycles pass: all of its still part but the clocks, which count them. -/
def Berth.waited (x : Berth) (n : Nat) : Berth :=
  { x.still with side := { x.side.still with bt := x.side.bt + n, au := { sacc := (x.side.au.sacc + n) % 10000 } } }

/-- Berth b begins an instruction of some words and n microcycles: the state and the berth once its words are fetched and its microcycles are
spent, a timer value written in the last of them where tw names one. None where the core does not begin an instruction, traces (TF),
fails its fetch or finds other words, or is to be parked (R126, R146, R147, R165, R169), and in states no run reaches, where the berth's record names
another berth. -/
def State.spend (s : State) (b : Nat) (words : List Word) (n : Nat) (tw : Option (Fin 4 × TimerWrite) := none) : Option (State × Berth) :=
  match s.berth b with
  | none => none
  | some x =>
    if x.issueReady && !x.side.core.fl.tf && decide (x.id = b) then
      match (s.modCore b (fun q => { q with hold := false, tf0 := q.fl.tf })).fetchWords b x.side.core.pc 0 words with
      | (some .done, t) =>
        let u := if words.length < n then (t.micros b true (n - words.length - 1)).micro b true tw else t
        match u.berth b with
        | some y => if y.parkReq.isNone then some (u, y) else none
        | none => none
      | _ => none
    else none

/-- Berth b begins instruction i and n microcycles: its words (Table 5-1) are fetched and the microcycles spent, which leaves state u and berth y. -/
def State.begins (s : State) (i : Instr) (b n : Nat) (u : State) (y : Berth) (tw : Option (Fin 4 × TimerWrite) := none) : Prop :=
  ∃ ws, encode i = some ws ∧ s.spend b ws n tw = some (u, y)

/-- Berth b, in a wait, passes n idle microcycles (R159): it may idle before each, is not to be parked after any, and what it waits for, met, holds
after none of them but the last, where last says so, and the last has it. -/
def State.idles (s : State) (b n : Nat) (met : Berth → Prop) : Prop :=
  ∀ i < n, ∃ x y, (s.micros b false i).berth b = some x ∧ x.id = b ∧ x.mayIdle = true ∧
    (s.micros b false (i + 1)).berth b = some y ∧ y.parkReq = none ∧ (i + 1 < n → ¬ met y)

/-- Berth y of state u completes an instruction with core k: the offset and the S0 selector it began with become those of the last completed
instruction (R150). -/
def State.completed (u : State) (y : Berth) (k : Core) : State :=
  u.setBerth { y with side := { y.side with core := { k with lastPc := y.side.core.pc, lastSel := y.side.core.seg[0] } } }

/-- The core past some words of its code. -/
def Core.past (k : Core) (words : Nat) : Core := { k with pc := k.pc + w16 words }

/-- The core past one word, with result r in the register that d names (none: flags only), Z and N from r, C and V as given (Table 5-2). -/
def Core.answered (k : Core) (d : Option Reg) (r : Word) (c v : Bool) : Core :=
  { k.past 1 with
    w := match d with
      | some n => k.w.set n r
      | none => k.w
    fl := { k.fl with c := c, v := v, z := decide (r = 0), n := r.msb } }

/-- A number outside the signed 16-bit range. -/
def out16 (t : Int) : Bool := decide (t < -32768 ∨ 32767 < t)

/-- One bit of a shift or rotate, on C and the word (R191). -/
def shiftOnce (op : ShiftOp) (c : Bool) (a : Word) : Bool × Word :=
  match op with
  | .shl => (a.msb, a <<< 1)
  | .shr => (a.getLsbD 0, a >>> 1)
  | .sar => (a.getLsbD 0, a.sshiftRight 1)
  | .rol => (a.msb, a.rotateLeft 1)
  | .ror => (a.getLsbD 0, a.rotateRight 1)
  | .rcl => (a.msb, (a <<< 1) ||| (if c then 1 else 0))
  | .rcr => (a.getLsbD 0, (a >>> 1) ||| (if c then 0x8000 else 0))

/-- A shift or rotate by n bits, one after the other. -/
def shiftTimes (op : ShiftOp) : Nat → Bool × Word → Bool × Word
  | 0, x => x
  | n + 1, x => shiftTimes op n (shiftOnce op x.1 x.2)

/-- Berth y of state u takes exception e at this boundary: the entry is posed, and follows as soon as the core may begin it (R160, R202). -/
def State.raised (u : State) (y : Berth) (e : Exc) : State :=
  (u.setBerth { y with side := { y.side with core := { y.side.core with pend := some e } } }).settle y.id

/-- The offset of a memory operand: Wb, Wb and the extension word, Wb before its increment, Wb after its decrement (R180, R182). -/
def operandOffset (m : MemForm) (k : Core) : Word :=
  match m with
  | .base _ r => k.w[r]
  | .disp _ r e => k.w[r] + e
  | .postInc _ r => k.w[r]
  | .preDec _ r => k.w[r] - 1

/-- The registers after the base register's update by a 0x6 form. -/
def operandUpdate (m : MemForm) (k : Core) : Vector Word 16 :=
  match m with
  | .base _ _ => k.w
  | .disp _ _ _ => k.w
  | .postInc _ r => k.w.set r (k.w[r] + 1)
  | .preDec _ r => k.w.set r (k.w[r] - 1)

/-- What R131 answers to an access of kind c at an offset through segment register n: the vector, 0 where all three checks pass. -/
def State.checked (u : State) (y : Berth) (n : SegReg) (off : Word) (c : Kind) : Nat :=
  let d := y.side.descN (y.side.core.seg[n]).toNat
  if d.limit < off.toNat then 2
  else if !d.right c then 3
  else if (u.ledgerCheck y.die y.die ((d.base + off.toNat) % 2 ^ 29) { cls := 0, id := y.id } c).isSome then 4
  else 0

/-- The state after a check of the core: a ledger denial is in the violation log (R85, R131). -/
def State.afterCheck (u : State) (y : Berth) (n : SegReg) (off : Word) (c : Kind) : State :=
  let d := y.side.descN (y.side.core.seg[n]).toNat
  let wa := (d.base + off.toNat) % 2 ^ 29
  if d.limit < off.toNat ∨ !d.right c then u
  else match u.ledgerCheck y.die y.die wa { cls := 0, id := y.id } c with
    | some (t, r) => u.logViol y.die { cls := 0, id := y.id } c t r (pkgWord y.die wa)
    | none => u

/-- The package word address of an offset through segment register n (R39, R124). -/
def Berth.place (y : Berth) (n : SegReg) (off : Word) : Nat :=
  pkgWord y.die (((y.side.descN (y.side.core.seg[n]).toNat).base + off.toNat) % 2 ^ 29)

/-- A host command is fetched now and is one that the harbour carries out: no reserved field is set, host memory answers where the command
needs it, and no deputy it needs has halted (R452, R456 to R460, R515). -/
def State.takes (s : State) (op : Nat) (c : Cmd) : Bool :=
  s.canFetch op c && !reservedSet op c && (!scopeD op || c.memOk) && !s.noDeputy op c

/-- The command stays in flight for a reason, from state t on (R456, R460). -/
def StaysInFlight (i : Instr) (s : State) (op : Nat) (c : Cmd) (y : Why) (now : Nat) (t : State) : Prop :=
  ∃ f : Flying, exec i s = .next { t with flying := t.flying ++ [f] } ∧ f.op = op ∧ f.cmd = c ∧ f.why = y ∧ f.startAt = now

/-- An access of master m to word wa of its own die passes the ledger, and the word's ECC word is sound (R56, R78). -/
def State.clear (u : State) (d wa : Nat) (m : Master) (k : Kind) : Bool :=
  decide (wa < 2 ^ 29) && (u.ledgerCheck d d wa m k).isNone && (tfind u.ecc (pkgWord d wa / 4)).isNone

/-- The command is answered with a next state. -/
def Completes (i : Instr) (s : State) : Prop := ∃ t, exec i s = .next t

end Sys2Proof.Machine
end

