-- ==== Sys2Proof/WellFormed.lean ====
section
/-! DEFINITION. Which commands are well formed: their numbers lie in the ranges the spec gives the things they name. The meanings are total;
a command that is not well formed is answered too. -/

namespace Sys2Proof

/-- A logical berth ID: 11 bits (R28). -/
def berthOk (b : Nat) : Bool := decide (b < 2048)

/-- A die of a part: at most 8 (R16). -/
def dieOk (d : Nat) : Bool := decide (d < 8)

/-- A dock of a die: 16 (R16). -/
def dockOk (k : Nat) : Bool := decide (k < 16)

/-- A global quay number: 18 quays on each of 8 dies (R16). -/
def quayOk (q : Nat) : Bool := decide (q < 144)

/-- A bank of a die, or one of its 64 harbour timers (Table 2-1, R384). -/
def bankOk (n : Nat) : Bool := decide (n < 64)

/-- One of two: an endpoint (R17), or an engine of a dock (R345). -/
def twoOk (e : Nat) : Bool := decide (e < 2)

/-- One of three: a member of a voter (R514), a value of a timer, or an MCTP transport (R482). -/
def memberOk (m : Nat) : Bool := decide (m < 3)

/-- One of four: a wake pin (R552), or an output register of the pins (R592). -/
def fourOk (n : Nat) : Bool := decide (n < 4)

/-- One of eight: a priority class (R435), or a ring of an endpoint (R450). -/
def eightOk (n : Nat) : Bool := decide (n < 8)

/-- One of the 32 groups of a HIC (R399). -/
def groupOk (g : Nat) : Bool := decide (g < 32)

/-- One of the 48 pins (R585). -/
def pinOk (n : Nat) : Bool := decide (n < 48)

/-- A 32-bit value. -/
def wordOk (v : Nat) : Bool := decide (v < 2 ^ 32)

/-- An address of BAR0: 64 MiB (R41, R44). -/
def addrOk (a : Nat) : Bool := decide (a < 2 ^ 26)

/-- A frame from its destination address up to its FCS: two addresses and a type at least. -/
def frameOk (bytes : List Byte) : Bool := decide (14 ≤ bytes.length)

/-- A requester: one of two endpoints, the deputy of one of eight dies, the harbourmaster or JTAG (Table 2-3). -/
def Requester.ok : Requester → Bool
  | .ep n => twoOk n
  | .deputy d => dieOk d
  | .master => true
  | .jtag => true

/-- A host command: 64 bytes from a ring of an endpoint (R452). -/
def Cmd.ok (c : Cmd) : Bool := twoOk c.ep && eightOk c.ring && decide (c.entry.length = 64)

/-- The command is well formed. -/
def wellFormed (i : Instr) : Bool :=
  match i with
  | .nop b => berthOk b
  | .wait b => berthOk b
  | .waitEnd b _ => berthOk b
  | .halt b => berthOk b
  | .ei b => berthOk b
  | .di b => berthOk b
  | .reti b => berthOk b
  | .trap b _ => berthOk b
  | .ldseg b _ _ => berthOk b
  | .rdfl b _ => berthOk b
  | .wrfl b _ => berthOk b
  | .mov b _ _ => berthOk b
  | .add b _ _ => berthOk b
  | .adc b _ _ => berthOk b
  | .sub b _ _ => berthOk b
  | .sbc b _ _ => berthOk b
  | .cmp b _ _ => berthOk b
  | .and b _ _ => berthOk b
  | .or b _ _ => berthOk b
  | .xor b _ _ => berthOk b
  | .tst b _ _ => berthOk b
  | .not b _ _ => berthOk b
  | .neg b _ _ => berthOk b
  | .movi b _ _ => berthOk b
  | .addi b _ _ => berthOk b
  | .cmpi b _ _ => berthOk b
  | .andi b _ _ => berthOk b
  | .ld b _ _ => berthOk b
  | .st b _ _ => berthOk b
  | .push b _ => berthOk b
  | .pop b _ => berthOk b
  | .bcc b _ _ => berthOk b
  | .jmp b _ => berthOk b
  | .call b _ _ => berthOk b
  | .ret b => berthOk b
  | .inPort b _ _ => berthOk b
  | .out b _ _ => berthOk b
  | .shl b _ _ => berthOk b
  | .shr b _ _ => berthOk b
  | .sar b _ _ => berthOk b
  | .rol b _ _ => berthOk b
  | .ror b _ _ => berthOk b
  | .rcl b _ _ => berthOk b
  | .rcr b _ _ => berthOk b
  | .mulu b _ _ => berthOk b
  | .muls b _ _ => berthOk b
  | .divu b _ _ => berthOk b
  | .divs b _ _ => berthOk b
  | .waitl b _ => berthOk b
  | .waitlEnd b _ => berthOk b
  | .waitc b _ => berthOk b
  | .waitcEnd b _ => berthOk b
  | .rdbeam b _ => berthOk b
  | .stamp b _ _ _ => berthOk b
  | .illegalEncoding b w => berthOk b && illegalWord w
  | .interruptEntry b => berthOk b
  | .lvPortWrite b _ _ => berthOk b
  | .shPortWrite b _ _ => berthOk b
  | .commitArm b _ _ => berthOk b
  | .paceSet b _ _ => berthOk b
  | .btValueWrite b _ _ => berthOk b
  | .biPendWrite b _ _ => berthOk b
  | .biEoi b _ _ => berthOk b
  | .ferryGo b _ _ => berthOk b
  | .ferryAbort b _ _ => berthOk b
  | .lighterPush b _ _ => berthOk b
  | .ljDeadtWrite b _ _ => berthOk b
  | .voiceKeyon b _ _ => berthOk b
  | .voiceKeyoff b _ _ => berthOk b
  | .sampleRingConfig b _ _ => berthOk b
  | .padRpWrite b _ _ => berthOk b
  | .lentPinWrite b _ _ => berthOk b
  | .beamLineStart b _ => berthOk b
  | .frameBoundary b _ => berthOk b
  | .governorAlign b => berthOk b
  | .sampleInstant b _ => berthOk b
  | .berthTimerMatch b _ _ => berthOk b
  | .biModerationRelease b _ => berthOk b
  | .watchEnd b => berthOk b
  | .watchCommit b _ => berthOk b
  | .stampStoreAdmit d k _ => dieOk d && dockOk k
  | .lockstepMismatch b _ _ _ _ => berthOk b
  | .faultFreeRelocation b _ _ => berthOk b
  | .crossDockMigration b _ _ => berthOk b
  | .composeLine d k _ => dieOk d && dockOk k
  | .lineRelease d k _ _ => dieOk d && dockOk k
  | .pipeWatchdogExpiry d k _ => dieOk d && dockOk k
  | .sparePipeTakeover d k _ => dieOk d && dockOk k
  | .scanoutLineRead b => berthOk b
  | .scanSegmentQueue b => berthOk b
  | .outputFrameStart b => berthOk b
  | .quayTransmitFrame q _ => quayOk q
  | .injectReorderRelease q _ => quayOk q
  | .quayReceiveFrame q bytes _ _ _ => quayOk q && frameOk bytes
  | .pfcPauseExpiry q c => quayOk q && eightOk c
  | .quayPfcGenerate q _ _ => quayOk q
  | .quayLinkUp q _ => quayOk q
  | .quayLossOfLock q _ _ => quayOk q
  | .quayFailover q _ => quayOk q
  | .qyTimestampPop r q _ _ => r.ok && quayOk q
  | .qyInjseedWrite r q v _ => r.ok && quayOk q && wordOk v
  | .registerWrite r a _ v _ => r.ok && addrOk a && wordOk v
  | .pairLowRead r a _ _ => r.ok && addrOk a
  | .dpLoadRead r d k _ _ _ => r.ok && dieOk d && dockOk k
  | .pwTjRead r d _ _ _ => r.ok && dieOk d
  | .hostCellarRead r _ _ _ => r.ok
  | .hostCellarWrite r _ _ _ => r.ok
  | .ledgerFence r d v _ => r.ok && dieOk d && wordOk v
  | .ledgerFenceDone d _ => dieOk d
  | .patrolScrubRead d bank _ _ => dieOk d && bankOk bank
  | .rowRepairStart d bank _ => dieOk d && bankOk bank
  | .rowRepairDone d bank _ => dieOk d && bankOk bank
  | .fabricLinkDown d _ _ => dieOk d
  | .htGo r v _ => r.ok && wordOk v
  | .htRelease _ => true
  | .htMatch d n _ => dieOk d && bankOk n
  | .htValueWrite r d n fld v _ => r.ok && dieOk d && bankOk n && memberOk fld && wordOk v
  | .hicPendWrite r d g v hw _ => r.ok && dieOk d && groupOk g && wordOk v && wordOk hw
  | .hicEoi r d v _ => r.ok && dieOk d && wordOk v
  | .hicModerationRelease d g _ _ => dieOk d && groupOk g
  | .hostRingEnable r e v _ => r.ok && twoOk e && wordOk v
  | .hostRingDisable r e v _ => r.ok && twoOk e && wordOk v
  | .sqTailDoorbell r e n v _ => r.ok && twoOk e && eightOk n && wordOk v
  | .cqHeadDoorbell r e n v _ => r.ok && twoOk e && eightOk n && wordOk v
  | .evHeadDoorbell r e v _ => r.ok && twoOk e && wordOk v
  | .underrunSummaryPost b _ => berthOk b
  | .ledgerDenialEvent d _ => dieOk d
  | .echo c _ => c.ok
  | .profileQuery c _ => c.ok
  | .profileSelect c _ _ => c.ok
  | .clockConfig c _ => c.ok
  | .faultLogRead c _ => c.ok
  | .measureRead c _ => c.ok
  | .mcReload c _ => c.ok
  | .berthCreate c _ => c.ok
  | .berthDestroy c _ => c.ok
  | .segDefine c _ => c.ok
  | .cellarWrite c _ => c.ok
  | .cellarRead c _ => c.ok
  | .pageShare c _ => c.ok
  | .berthStart c _ => c.ok
  | .berthStartTime b => berthOk b
  | .berthPause c _ => c.ok
  | .berthResume c _ => c.ok
  | .berthMigrate c _ => c.ok
  | .berthStatus c _ => c.ok
  | .streamBind c _ => c.ok
  | .streamUnbind c _ => c.ok
  | .inputBind c _ => c.ok
  | .quayConfig c _ => c.ok
  | .quayInject c _ => c.ok
  | .macsecKey c _ => c.ok
  | .powerSet c _ => c.ok
  | .thermalPolicy c _ => c.ok
  | .selftestPolicy c _ => c.ok
  | .selftestReport c _ => c.ok
  | .mctpCommand t c _ => memberOk t && c.ok
  | .mctpStatus v => memberOk v.t
  | .setEndpointId t _ _ => memberOk t
  | .getEndpointId t _ => memberOk t
  | .getMctpVersionSupport v => memberOk v.t
  | .getMessageTypeSupport v => memberOk v.t
  | .getVersion v => memberOk v.t
  | .getCapabilities v _ => memberOk v.t
  | .negotiateAlgorithms v _ => memberOk v.t
  | .getDigests v => memberOk v.t
  | .getCertificate v _ _ _ => memberOk v.t
  | .challenge v _ => memberOk v.t
  | .getMeasurements v _ _ _ => memberOk v.t
  | .keyExchange v _ _ => memberOk v.t
  | .finish v _ _ => memberOk v.t
  | .endSession v _ => memberOk v.t
  | .ferryManifestStart b _ => berthOk b
  | .ferryStreamUnit b _ => berthOk b
  | .ferryManifestComplete b _ _ => berthOk b
  | .lighterJobStart b _ => berthOk b
  | .lighterRowComplete b tag _ => berthOk b && wordOk tag
  | .lighterJobComplete b tag _ => berthOk b && wordOk tag
  | .engineFault d k e _ _ => dieOk d && dockOk k && twoOk e
  | .voterDisagree d _ m _ => dieOk d && memberOk m
  | .voterRejoin d _ m _ => dieOk d && memberOk m
  | .selftestSchedule d _ => dieOk d
  | .selftestTurnStart d _ => dieOk d
  | .selftestBudgetEnd d _ _ _ => dieOk d
  | .selftestSliceEnd d _ _ _ _ _ _ _ => dieOk d
  | .jtagScanEnter _ => true
  | .wdogKick r v _ => r.ok && wordOk v
  | .wdogTimeoutSet r v _ => r.ok && wordOk v
  | .watchdogExpiry _ _ => true
  | .pwModeOn r d v _ => r.ok && dieOk d && wordOk v
  | .pwModeArm r d v _ => r.ok && dieOk d && wordOk v
  | .domainEntry d _ _ => dieOk d
  | .domainEntryAbandon d _ _ => dieOk d
  | .domainReturnDone d _ _ => dieOk d
  | .measureExtend r d v _ => r.ok && dieOk d && wordOk v
  | .mcLaddrWrite r d k v _ => r.ok && dieOk d && dockOk k && wordOk v
  | .mcLoadWord r d k v _ => r.ok && dieOk d && dockOk k && wordOk v
  | .mcCrcCheck r d k v _ => r.ok && dieOk d && dockOk k && wordOk v
  | .mcCrcCheckDone d k _ => dieOk d && dockOk k
  | .mcSwitch r d k v _ => r.ok && dieOk d && dockOk k && wordOk v
  | .calLoad r v _ => r.ok && wordOk v
  | .calendarTick _ _ => true
  | .keeperWake n _ _ => fourOk n
  | .pwrgdTimeout => true
  | .keeperShutdown r v _ => r.ok && wordOk v
  | .supplyLoss _ => true
  | .shutdownHoldoffEnd _ => true
  | .vkeepApply => true
  | .gpioFunctionSwitch r n v _ => r.ok && pinOk n && wordOk v
  | .gpioOutWrite r i v _ => r.ok && fourOk i && wordOk v
  | .gpioEvent n _ _ => pinOk n
  | .adcConversion _ _ => true
  | .pcieFlr e _ => twoOk e
  | .pcieD3hotExit e _ => twoOk e
  | .perstAssert e _ _ => twoOk e
  | .perstDeassert e _ => twoOk e
  | .refclkLoss _ => true
  | .refclkRequalify _ => true
  | .powerSample _ _ _ _ _ => true
  | .thermalSample d _ _ => dieOk d
  | .avsStatusPoll _ _ => true
  | .avsRetryTimeout _ => true
  | .avsFaultTimeout _ => true
  | .thermalTrip d _ _ => dieOk d
  | .coldReset _ => true
  | .coldBoot _ => true
  | .repairRecordWrite _ => true
  | .fabricLinkUp d _ _ => dieOk d
  | .pcieLinkChange e _ _ => twoOk e
  | .pcieD3hotEntry e _ => twoOk e
  | .pwrgdRise => true
  | .raiseholdExpiry _ => true
  | .vkeepLoss => true
  | .genlockEdge _ => true
  | .fanTachSecond => true

end Sys2Proof
end

