-- ==== Sys2Proof/Certificates/Slice0/Obligations.lean ====
section
/-! DEFINITION. The statements about the model, one definition each: what each command does, what it leaves, and what every step keeps. -/

open Sys2Proof Sys2Proof.Machine

/-- The words and microcycles of an instruction pass and leave everything but the beam, the clocks and what runs on them. A berth that may begin an
instruction without tracing, in a cellar without ECC errors and with no sample instant in the microcycles, that finds the words at its PC and whose
words pass the checks of their fetch: the words are fetched and the microcycles spent, nothing outside the berth's own record changes, and that record
keeps registers, PC, FL, selectors, descriptors, shadows, pad and pin views and control store bank; its berth time has counted n and the sample phase
n modulo 10000. (04_berth_core.md R131, 05_b16_instructions.md R169, 03_beam_time.md R88, 03_beam_time.md R90, 09_audio.md R305) -/
def Obligations.PassingTimeLeavesTheRest : Prop :=
  ∀ (s : State) (b n : Nat) (ws : List Word) (x : Berth), s.berth b = some x → x.id = b → x.issueReady = true → x.side.core.fl.tf = false →
    x.parkReq = none → ws ≠ [] → ws.length ≤ n → s.ecc = [] → 0 < x.side.au.sacc → x.side.au.sacc + n ≤ 10000 →
    (∀ j < ws.length, (x.segDesc 0).check (x.side.core.pc + w16 j) .exec = none) →
    (∀ j < ws.length, s.ledgerCheck x.die x.die (x.segAddr 0 (x.side.core.pc + w16 j)) (coreMaster x) .exec = none) →
    (∀ j < ws.length, s.word (pkgWord x.die (x.segAddr 0 (x.side.core.pc + w16 j))) = ws.getD j 0) →
    ∃ u y, s.spend b ws n = some (u, y) ∧
      y.still = Berth.waited { x with side := { x.side with core := { x.side.core with hold := false, tf0 := false } } } n ∧
      u = s.setBerth y ∧ ∀ c ≠ b, u.berth c = s.berth c

/-- NOP, EI, DI, HALT, LDSEG, RDFL, WRFL and MOVI complete with the results of their operation blocks. Once its words are fetched and its microcycles
spent (State.begins), each leaves u with the berth's core changed in what is written here and in nothing else: NOP only PC; EI sets IE and the
hold-off of R173; DI clears IE; HALT enters HALT with PC after it; LDSEG writes 4 bits to one segment register; RDFL writes FL with bits 15 to 6 zero;
WRFL replaces FL by bits 5 to 0 of Ws and holds off an interrupt when IE rises; MOVI writes the 7-bit immediate sign-extended, or the extension word
in 3 microcycles, and changes no flag. (05_b16_instructions.md R172, 05_b16_instructions.md R173, 05_b16_instructions.md R175, 05_b16_instructions.md
R176, 05_b16_instructions.md R179, 04_berth_core.md R152) -/
def Obligations.SystemGroupResults : Prop :=
  (∀ f : Flags, f.word.getLsbD 0 = f.c ∧ f.word.getLsbD 1 = f.z ∧ f.word.getLsbD 2 = f.n ∧ f.word.getLsbD 3 = f.v ∧
    f.word.getLsbD 4 = f.ie ∧ f.word.getLsbD 5 = f.tf ∧ f.word.toNat < 64) ∧
  (∀ (s u : State) (b : Nat) (y : Berth),
    let k := y.side.core
    let runs := fun (i : Instr) (q : Core) => s.begins i b 2 u y → exec i s = .next (u.completed y q)
    runs (.nop b) (k.past 1) ∧
    runs (.ei b) { k.past 1 with fl := { k.fl with ie := true }, hold := true } ∧
    runs (.di b) { k.past 1 with fl := { k.fl with ie := false } } ∧
    runs (.halt b) { k.past 1 with st := .halt } ∧
    (∀ n v, runs (.ldseg b n (.imm v)) { k.past 1 with seg := k.seg.set n v }) ∧
    (∀ n r, runs (.ldseg b n (.reg r)) { k.past 1 with seg := k.seg.set n (BitVec.ofNat 4 k.w[r].toNat) }) ∧
    (∀ d, runs (.rdfl b d) { k.past 1 with w := k.w.set d k.fl.word }) ∧
    (∀ r f, (∀ i < 6, f.word.getLsbD i = k.w[r].getLsbD i) → runs (.wrfl b r) { k.past 1 with fl := f, hold := !k.fl.ie && f.ie }) ∧
    (∀ d i, runs (.movi b d (.short i)) { k.past 1 with w := k.w.set d (BitVec.ofInt 16 i.toInt) })) ∧
  (∀ (s u : State) (b : Nat) (y : Berth) (d : Reg) (v : Word), s.begins (.movi b d (.long v)) b 3 u y →
    exec (.movi b d (.long v)) s = .next (u.completed y { y.side.core.past 2 with w := y.side.core.w.set d v }))

/-- ADD, ADC, SUB, SBC, CMP, NEG, ADDI and CMPI complete with the sum or difference, its carry or borrow and its overflow. Each completes with Z and N
from the result, C the carry out of bit 15 or the borrow, V exactly when the exact signed result lies outside the 16-bit range; CMP and CMPI write no
register. ADDI and CMPI extend their immediate by its sign. Every other part of the core, of the berth and of the state is that of u.
(05_b16_instructions.md Table 5-2, 05_b16_instructions.md R172, 05_b16_instructions.md R178, 05_b16_instructions.md R179) -/
def Obligations.ArithmeticResults : Prop :=
  ∀ (s u : State) (b : Nat) (y : Berth),
    let k := y.side.core
    let runs := fun (i : Instr) (t : State) => s.begins i b 2 u y → exec i s = .next t
    let sum := fun (d : Reg) (x : Word) (c : Nat) => (u.completed y (k.answered (some d) (k.w[d] + x + w16 c)
      (decide (65536 ≤ k.w[d].toNat + x.toNat + c)) (out16 (k.w[d].toInt + x.toInt + c))))
    let diff := fun (d : Reg) (write : Bool) (x : Word) (c : Nat) =>
      (u.completed y (k.answered (if write then some d else none) (k.w[d] - x - w16 c)
        (decide (k.w[d].toNat < x.toNat + c)) (out16 (k.w[d].toInt - x.toInt - c))))
    (∀ d r, runs (.add b d r) (sum d k.w[r] 0)) ∧ (∀ d r, runs (.adc b d r) (sum d k.w[r] (b2n k.fl.c))) ∧
    (∀ d r, runs (.sub b d r) (diff d true k.w[r] 0)) ∧ (∀ d r, runs (.sbc b d r) (diff d true k.w[r] (b2n k.fl.c))) ∧
    (∀ d r, runs (.cmp b d r) (diff d false k.w[r] 0)) ∧
    (∀ d r, runs (.neg b d r) (u.completed y (k.answered (some d) (-k.w[r]) (decide (k.w[r] ≠ 0)) (out16 (-k.w[r].toInt))))) ∧
    (∀ (d : Fin 4) i, runs (.addi b d i) (sum (lowReg d) (BitVec.ofInt 16 i.toInt) 0)) ∧
    (∀ (d : Fin 4) i, runs (.cmpi b d i) (diff (lowReg d) false (BitVec.ofInt 16 i.toInt) 0))

/-- AND, OR, XOR, TST and ANDI clear C and V; MOV and NOT leave them; TST writes no register. Each completes with its bitwise result, Z and N from it.
ANDI takes its mask without sign, so it clears bits 15 to 8. Every other part of the core, of the berth and of the state is that of u.
(05_b16_instructions.md Table 5-2, 05_b16_instructions.md R172, 05_b16_instructions.md R179) -/
def Obligations.LogicAndMoveResults : Prop :=
  ∀ (s u : State) (b : Nat) (y : Berth),
    let k := y.side.core
    let runs := fun (i : Instr) (t : State) => s.begins i b 2 u y → exec i s = .next t
    (∀ d r, runs (.and b d r) (u.completed y (k.answered (some d) (k.w[d] &&& k.w[r]) false false)) ∧
      runs (.or b d r) (u.completed y (k.answered (some d) (k.w[d] ||| k.w[r]) false false)) ∧
      runs (.xor b d r) (u.completed y (k.answered (some d) (k.w[d] ^^^ k.w[r]) false false)) ∧
      runs (.tst b d r) (u.completed y (k.answered none (k.w[d] &&& k.w[r]) false false)) ∧
      runs (.mov b d r) (u.completed y (k.answered (some d) k.w[r] k.fl.c k.fl.v)) ∧
      runs (.not b d r) (u.completed y (k.answered (some d) (~~~k.w[r]) k.fl.c k.fl.v))) ∧
    (∀ (d : Fin 4) (i : BitVec 8),
      runs (.andi b d i) (u.completed y (k.answered (some (lowReg d)) (k.w[lowReg d] &&& BitVec.ofNat 16 i.toNat) false false)))

/-- SHL, SHR, SAR, ROL, ROR, RCL and RCR by n act as n shifts or rotates by one bit, and clear V. The result and C are those of n one-bit steps: each
takes the bit that leaves the word into C, rotates bring it back in, RCL and RCR through C. With n = 0 the word and C stay. Z and N come from the
result and V is 0. Every other part of the core, of the berth and of the state is that of u. (R191) -/
def Obligations.ShiftsMoveOneBitAtATime : Prop :=
  ∀ (s u : State) (b : Nat) (y : Berth),
    let k := y.side.core
    let runs := fun (i : Instr) (t : State) => s.begins i b 2 u y → exec i s = .next t
    let by_ := fun (op : ShiftOp) (d : Reg) (n : BitVec 4) =>
      let r := shiftTimes op n.toNat (k.fl.c, k.w[d])
      u.completed y (k.answered (some d) r.2 r.1 false)
    ∀ (d : Reg) (n : BitVec 4), runs (.shl b d n) (by_ .shl d n) ∧ runs (.shr b d n) (by_ .shr d n) ∧
      runs (.sar b d n) (by_ .sar d n) ∧ runs (.rol b d n) (by_ .rol d n) ∧ runs (.ror b d n) (by_ .ror d n) ∧
      runs (.rcl b d n) (by_ .rcl d n) ∧ runs (.rcr b d n) (by_ .rcr d n)

/-- MULU and MULS write the 32-bit product of We+1 and Ws to the pair and flag a product beyond 16 bits. In 9 microcycles the pair We:We+1 takes the
exact product, its high word in We, from the values held at the start; Z is set when it is zero, N is its bit 31, C and V are both set when it does
not fit the unsigned (MULU) or signed (MULS) 16-bit form. No other register and no other flag changes; everything else is that of u. (R192, R194) -/
def Obligations.ProductFillsThePair : Prop :=
  ∀ (s u : State) (b : Nat) (y : Berth) (p : Fin 8) (r : Reg),
    let k := y.side.core
    let product := fun (v : BitVec 32) (wide : Bool) => u.completed y { k.past 1 with
      w := (k.w.set (pairHi p) (v.extractLsb' 16 16)).set (pairLo p) (v.extractLsb' 0 16)
      fl := { k.fl with z := decide (v = 0), n := v.msb, c := wide, v := wide } }
    let m := k.w[pairLo p].toNat * k.w[r].toNat
    let q := k.w[pairLo p].toInt * k.w[r].toInt
    (s.begins (.mulu b p r) b 9 u y → exec (.mulu b p r) s = .next (product (BitVec.ofNat 32 m) (decide (65536 ≤ m)))) ∧
    (s.begins (.muls b p r) b 9 u y → exec (.muls b p r) s = .next (product (BitVec.ofInt 32 q) (out16 q)))

/-- DIVU and DIVS write the quotient and remainder of the pair, or raise vector 5 and write nothing. In 20 microcycles: for a divisor that is not 0
and a quotient inside the 16-bit range, We+1 takes the quotient and We the remainder, which the division equation determines (DIVS: the remainder is 0
or has the sign of the dividend), Z and N come from the quotient and C and V are 0; otherwise vector 5 is taken at the instruction, with no register
and no flag changed. (R193, R194) -/
def Obligations.DivisionOrVectorFive : Prop :=
  ∀ (s u : State) (b : Nat) (y : Berth) (p : Fin 8) (r : Reg),
    let k := y.side.core
    let pair : BitVec 32 := k.w[pairHi p] ++ k.w[pairLo p]
    let quotient := fun (q m : Word) => u.completed y { k.past 1 with
      w := (k.w.set (pairHi p) m).set (pairLo p) q
      fl := { k.fl with z := decide (q = 0), n := q.msb, c := false, v := false } }
    let five := u.raised y { vec := 5, savedPc := k.pc, xpc := k.pc, xsel := k.seg[0] }
    (s.begins (.divu b p r) b 20 u y →
      (∀ q m : Nat, pair.toNat = q * k.w[r].toNat + m → m < k.w[r].toNat → q < 65536 →
        exec (.divu b p r) s = .next (quotient (w16 q) (w16 m))) ∧
      (k.w[r] = 0 ∨ 65536 * k.w[r].toNat ≤ pair.toNat → exec (.divu b p r) s = .next five)) ∧
    (s.begins (.divs b p r) b 20 u y →
      (∀ q m : Int, pair.toInt = q * k.w[r].toInt + m → m.natAbs < k.w[r].toInt.natAbs → (m = 0 ∨ (m < 0 ↔ pair.toInt < 0)) →
        exec (.divs b p r) s = .next (if out16 q then five else quotient (BitVec.ofInt 16 q) (BitVec.ofInt 16 m))) ∧
      (k.w[r] = 0 → exec (.divs b p r) s = .next five))

/-- A branch adds its displacement when its condition holds; JMP takes its target; neither changes anything else. In 3 microcycles, taken or not, Bcc
leaves PC at the next word plus the signed displacement, modulo 65536, exactly when the condition of Table 5-3 holds; JMP leaves PC at its extension
word or at the register's value. No flag and no register changes; everything else is that of u. (05_b16_instructions.md R185, 05_b16_instructions.md
R188, 05_b16_instructions.md Table 5-3) -/
def Obligations.BranchesAndJumps : Prop :=
  ∀ (s u : State) (b : Nat) (y : Berth),
    let k := y.side.core
    let f := k.fl
    let holds : Cond → Prop := fun c => match c with
      | .bra => True | .beq => f.z = true | .bne => f.z = false | .blo => f.c = true | .bhs => f.c = false
      | .bmi => f.n = true | .bpl => f.n = false | .bvs => f.v = true | .bvc => f.v = false
      | .bhi => f.c = false ∧ f.z = false | .bls => f.c = true ∨ f.z = true | .bge => f.n = f.v | .blt => f.n ≠ f.v
      | .bgt => f.z = false ∧ f.n = f.v | .ble => f.z = true ∨ f.n ≠ f.v
    let runs := fun (i : Instr) (q : Core) => s.begins i b 3 u y → exec i s = .next (u.completed y q)
    (∀ c d, holds c → runs (.bcc b c d) { k with pc := k.pc + 1 + BitVec.ofInt 16 d.toInt }) ∧
    (∀ c d, ¬ holds c → runs (.bcc b c d) { k with pc := k.pc + 1 }) ∧
    (∀ r, runs (.jmp b (.reg r)) { k with pc := k.w[r] }) ∧
    ∀ w, runs (.jmp b (.ext w)) { k with pc := w }

/-- LD reads the checked word in its four forms, and a failed check raises vector 2, 3 or 4 with the base unchanged. In 3 microcycles (4 with a
displacement) LD takes the word that its segment's descriptor and its offset name, updates Wb in the 0x6 forms, and the loaded value wins where Wd is
Wb; no flag changes and everything else is that of u. An offset beyond LIMIT raises vector 2, a missing R right vector 3, a ledger denial vector 4
with a record in the violation log; nothing else changes. Stated for a cellar without ECC errors. (05_b16_instructions.md R180, 05_b16_instructions.md
R181, 05_b16_instructions.md R182, 04_berth_core.md R124, 04_berth_core.md R131, 04_berth_core.md R132, 04_berth_core.md R146) -/
def Obligations.LoadsThroughASegment : Prop :=
  ∀ (s u : State) (b : Nat) (y : Berth) (d : Reg) (m : MemForm), s.begins (.ld b d m) b (m.words + 2) u y → u.ecc = [] →
    let k := y.side.core
    let off := operandOffset m k
    let vec := u.checked y m.segReg off .read
    (vec = 0 → exec (.ld b d m) s = .next (u.completed y { k.past m.words with
      w := (operandUpdate m k).set d (u.word (y.place m.segReg off)) })) ∧
    (vec ≠ 0 → exec (.ld b d m) s = .next ((u.afterCheck y m.segReg off .read).raised y
      { vec := vec, savedPc := k.pc, seg := m.segReg.val, kind := 0, off := off.toNat, xpc := k.pc, xsel := k.seg[0] }))

/-- ST writes the checked word in its four forms and no other byte of memory but its undo entry; a failed check writes nothing. In 3 microcycles (4
with a displacement) ST stores the value Ws held at the start to the word that its segment's descriptor and its offset name, after the undo entry of
that word, and updates Wb in the 0x6 forms; no flag changes; every byte outside the word reads as after the undo entry. A failed check raises vector
2, 3 or 4 and stores nothing. Stated for a cellar without ECC errors. (05_b16_instructions.md R180, 05_b16_instructions.md R181,
05_b16_instructions.md R182, 04_berth_core.md R131, 04_berth_core.md R132, 04_berth_core.md R144, 14_watches_faults_selftest.md R496) -/
def Obligations.StoresThroughASegment : Prop :=
  ∀ (s u v : State) (b : Nat) (y z : Berth) (r : Reg) (m : MemForm), s.begins (.st b r m) b (m.words + 2) u y → u.ecc = [] →
    Memory.wf u.mem = true →
    let k := y.side.core
    let off := operandOffset m k
    let a := y.place m.segReg off
    let vec := u.checked y m.segReg off .write
    (vec = 0 → u.undoEntry y (a % 2 ^ 29) = (true, v, z) →
      ∃ t : State, exec (.st b r m) s = .next (t.completed (z.keepOld (a % 2 ^ 29) (u.word a)) { k.past m.words with w := operandUpdate m k }) ∧
        t = { v with mem := t.mem } ∧ t.word a = k.w[r] ∧
        ∀ i, i ≠ 2 * a → i ≠ 2 * a + 1 → Memory.byte t.mem i = Memory.byte v.mem i) ∧
    (vec ≠ 0 → exec (.st b r m) s = .next ((u.afterCheck y m.segReg off .write).raised y
      { vec := vec, savedPc := k.pc, seg := m.segReg.val, kind := 1, off := off.toNat, xpc := k.pc, xsel := k.seg[0] }))

/-- The first write to a word in a watch enters its address and old value in the undo bank; a later write enters nothing. Where the ledger lets the
watch hardware read the word and write the watch page and no ECC error stands, the entry's three words hold the address bits 15 to 0, bits 28 to 16
and the old value, at the place after the entries of this watch in bank n mod 2; the entry is counted; every byte outside it reads as before, and
nothing else changes. A word already entered in this watch is not entered again. (14_watches_faults_selftest.md R496, 14_watches_faults_selftest.md
R498, 14_watches_faults_selftest.md Table 14-1) -/
def Obligations.FirstWriteInAWatchIsLogged : Prop :=
  ∀ (s : State) (x : Berth) (wa : Nat), wa < 2 ^ 29 → s.ecc = [] → Memory.wf s.mem = true →
    (wa ∈ x.cur.undo → s.undoEntry x wa = (true, s, x)) ∧
    (wa ∉ x.cur.undo →
      let m := watchMaster x
      let e := x.watchPage * 32768 + 6144 + (x.cur.seq % 2) * 12288 + 3 * x.cur.undo.length
      s.ledgerCheck x.die x.die wa m .read = none → (∀ i < 3, s.ledgerCheck x.die x.die (e + i) m .write = none) →
      (∀ i < 3, (e + i) % 2 ^ 29 ≠ wa) →
      ∃ t : State, s.undoEntry x wa = (true, t, { x with cur := { x.cur with undo := x.cur.undo ++ [wa] } }) ∧
        t = { s with mem := t.mem } ∧ Memory.wf t.mem = true ∧
        t.word (pkgWord x.die e) = w16 wa ∧ t.word (pkgWord x.die (e + 1)) = w16 (wa / 65536) ∧
        t.word (pkgWord x.die (e + 2)) = s.word (pkgWord x.die wa) ∧
        ∀ i, (∀ j < 3, i / 2 ≠ pkgWord x.die (e + j)) → Memory.byte t.mem i = Memory.byte s.mem i)

/-- PUSH stores below W15 and POP loads at W15; a frame that fails its check raises the stack fault and changes nothing. In 3 microcycles PUSH stores
Ws as it was at the start at W15 - 1 through S2 and decrements W15; POP loads the word at W15 through S2, increments W15, and the loaded word wins
where Wd is W15. No flag changes. A limit or rights failure raises vector 6 and a ledger denial vector 4, with nothing stored and no register changed;
PUSH with W15 = 0 raises vector 6 whatever LIMIT is. Stated for a cellar without ECC errors. (04_berth_core.md R135, 04_berth_core.md R140,
05_b16_instructions.md R183, 05_b16_instructions.md R184, 05_b16_instructions.md R186) -/
def Obligations.PushAndPop : Prop :=
  ∀ (s u v : State) (b : Nat) (y z : Berth) (r : Reg), u.ecc = [] → Memory.wf u.mem = true →
    let k := y.side.core
    let low := k.w[15] - 1
    let a := y.place 2 low
    let pushVec := if k.w[15] = 0 then 2 else u.checked y 2 low .write
    let popVec := u.checked y 2 k.w[15] .read
    let fault := fun (vec kind : Nat) (off : Word) =>
      { vec := if vec = 4 then 4 else 6, savedPc := k.pc, seg := 2, kind := kind, stack := true, off := off.toNat, xpc := k.pc, xsel := k.seg[0] : Exc }
    let pushes := s.begins (.push b r) b 3 u y
    let pops := s.begins (.pop b r) b 3 u y
    (pushes → pushVec = 0 → u.undoEntry y (a % 2 ^ 29) = (true, v, z) →
      ∃ t : State, exec (.push b r) s = .next (t.completed (z.keepOld (a % 2 ^ 29) (u.word a)) { k.past 1 with w := k.w.set 15 low }) ∧
        t = { v with mem := t.mem } ∧ t.word a = k.w[r] ∧
        ∀ i, i ≠ 2 * a → i ≠ 2 * a + 1 → Memory.byte t.mem i = Memory.byte v.mem i) ∧
    (pushes → pushVec ≠ 0 → exec (.push b r) s =
      .next ((if k.w[15] = 0 then u else u.afterCheck y 2 low .write).raised y (fault pushVec 1 low))) ∧
    (pops → popVec = 0 → exec (.pop b r) s = .next (u.completed y { k.past 1 with
      w := (k.w.set 15 (k.w[15] + 1)).set r (u.word (y.place 2 k.w[15])) })) ∧
    (pops → popVec ≠ 0 → exec (.pop b r) s = .next ((u.afterCheck y 2 k.w[15] .read).raised y (fault popVec 0 k.w[15])))

/-- CALL pushes the named registers, the return offset and the mask and jumps; RET restores the registers of the stored mask and returns. Once a
CALL's frame has passed its check and its words have been written from W15 - 1 downward, in the order registers ascending, return offset, mask without
bit 15, one a microcycle, PC is the target and W15 is lower by their number. Once a RET has read its mask and the rest of its frame upward, each
register that the mask names below bit 15 holds its word, highest register number first, every other register but W15 stays, W15 is past the frame and
PC is the return offset. No flag changes. A frame that fails its check raises its exception after the instruction's remaining microcycles.
(04_berth_core.md R136, 04_berth_core.md R137, 04_berth_core.md R138, 05_b16_instructions.md R171, 05_b16_instructions.md R186, 05_b16_instructions.md
R187, 05_b16_instructions.md R188) -/
def Obligations.CallPushesAndRetRestores : Prop :=
  (∀ (s u v w : State) (b : Nat) (y z : Berth) (t : Target) (mask : Word), s.begins (.call b t mask) b (2 + t.words) u y →
    let k := y.side.core
    let names := (List.finRange 16).filter (fun n => decide (n.val < 15) && mask.getLsbD n.val)
    let ws := names.map (fun n => k.w[n]) ++ [k.pc + w16 (2 + t.words), mask &&& 0x7FFF]
    let target := match t with | .ext e => e | .reg r => k.w[r]
    (u.frameCheck y ((k.w[15].toNat : Int) - ws.length) ws.length .write = (none, v) →
      v.pushWords b (k.w[15] - 1) ws = (true, w) → w.berth b = some z → z.parkReq = none →
      exec (.call b t mask) s = .next (w.completed z { z.side.core with w := k.w.set 15 (k.w[15] - w16 ws.length), pc := target })) ∧
    (∀ c, u.frameCheck y ((k.w[15].toNat : Int) - ws.length) ws.length .write = (some c, v) →
      exec (.call b t mask) s = .next (((v.micros b true ws.length).modCore b (fun q => { q with pend := some (c.exc k.pc k.pc k.seg[0]) })).settle b))) ∧
  (∀ (s u v v1 v2 w : State) (b : Nat) (y z : Berth) (mask ret : Word) (vs : List Word), s.begins (.ret b) b 3 u y →
    let k := y.side.core
    let names := ((List.finRange 16).filter (fun n => decide (n.val < 15) && mask.getLsbD n.val)).reverse
    (u.frameCheck y (k.w[15].toNat : Int) 1 .read = (none, v) → v.popWords b k.w[15] 1 = (some [mask], v1) →
      v1.frameCheck y (k.w[15].toNat : Int) (names.length + 2) .read = (none, v2) →
      v2.popWords b (k.w[15] + 1) (names.length + 1) = (some (ret :: vs), w) → w.berth b = some z → z.parkReq = none →
      ∃ regs : Vector Word 16, (∀ i (h : i < names.length), some regs[names[i]] = vs[i]?) ∧
        regs[(15 : Reg)] = k.w[15] + w16 (names.length + 2) ∧ (∀ r, r ∉ names → r ≠ 15 → regs[r] = k.w[r]) ∧
        exec (.ret b) s = .next (w.completed z { z.side.core with w := regs, pc := ret })) ∧
    (∀ c, u.frameCheck y (k.w[15].toNat : Int) 1 .read = (some c, v) →
      exec (.ret b) s = .next (((v.micros b true 2).modCore b (fun q => { q with pend := some (c.exc k.pc k.pc k.seg[0]) })).settle b)) ∧
    (∀ c, u.frameCheck y (k.w[15].toNat : Int) 1 .read = (none, v) → v.popWords b k.w[15] 1 = (some [mask], v1) →
      v1.frameCheck y (k.w[15].toNat : Int) (names.length + 2) .read = (some c, v2) →
      exec (.ret b) s =
        .next (((v2.micros b true (names.length + 1)).modCore b (fun q => { q with pend := some (c.exc k.pc k.pc k.seg[0]) })).settle b)))

/-- TRAP n raises vector 16 + n after itself; a word outside Table 5-1 raises vector 1; a request at a boundary with IE raises vector 8. TRAP
completes with vector 16 + n pending and the offset after it saved. A word that no encoding defines raises vector 1 with its own offset saved, charged
2 microcycles; a defined word is not this command's and changes nothing. At a boundary of a running or waiting berth with IE set, no hold-off and a
request present, INTERRUPT_ENTRY raises vector 8: the saved PC is the next instruction's, or that of the WAITL or WAITC itself. Nothing else of the
state changes before the entry, which the entry's own statement gives. (05_b16_instructions.md R167, 05_b16_instructions.md R171,
05_b16_instructions.md R177, 04_berth_core.md R151, 04_berth_core.md R153, 05_b16_instructions.md R202) -/
def Obligations.TrapsIllegalWordsAndInterruptsAreRaised : Prop :=
  (∀ (s u : State) (b : Nat) (y : Berth),
    let k := y.side.core
    (∀ n : BitVec 4, s.begins (.trap b n) b 2 u y → exec (.trap b n) s = .next ((u.completed y { k.past 1 with
      pend := some { vec := 16 + n.toNat, savedPc := k.pc + 1, xpc := k.pc, xsel := k.seg[0] } }).settle b)) ∧
    (∀ w, illegalWord w = true → s.begins (.illegalEncoding b w) b 2 u y → exec (.illegalEncoding b w) s =
      .next (u.raised y { vec := 1, savedPc := k.pc, xpc := k.pc, xsel := k.seg[0] }))) ∧
  (∀ (s : State) (b : Nat) w, illegalWord w = false → exec (.illegalEncoding b w) s = .next s) ∧
  (∀ (s : State) (b : Nat) (x : Berth), s.berth b = some x → x.id = b → x.mayBegin = true →
    let k := x.side.core
    k.pend = none → k.fl.ie = true → k.hold = false → x.side.bi.request = true →
    let eight := fun pc : Word => s.raised x { vec := 8, savedPc := pc, xpc := k.lastPc, xsel := k.lastSel }
    (k.st = .run → exec (.interruptEntry b) s = .next (eight k.pc)) ∧
    (∀ l, k.st = .waitL l → exec (.interruptEntry b) s = .next (eight k.lastPc)) ∧
    (∀ c l h, k.st = .waitC c l h → exec (.interruptEntry b) s = .next (eight k.lastPc)))

/-- Exception entry pushes FL, the S0 selector and the saved PC, clears IE and TF and begins at the vector; a frame that fails is a double fault. A
pending exception of a berth that may begin an entry: with its three-word frame passing its check, 5 microcycles pass and the words FL, S0 selector,
saved PC are written from W15 - 1 downward, one a microcycle; then IE and TF are 0, S0 is 0, PC is twice the vector, W15 is lower by 3 and BM_XCAUSE,
BM_XOFF, BM_XPC and BM_XSEL record the cause. A frame that fails its check, and a fetch fault at an offset below 64 with S0 = 0, halts the core with
DOUBLE set, BM_XCAUSE recording the second fault and a record in the fault log, after a number of microcycles that the spec leaves open (assumption
log 15: Config.doubleFaultLen, an open value). A berth that may not begin waits. (04_berth_core.md R139, 04_berth_core.md R145, 04_berth_core.md R148,
04_berth_core.md R149, 04_berth_core.md R160) -/
def Obligations.ExceptionEntrySavesAndVectors : Prop :=
  ∀ (s t u : State) (b : Nat) (x y : Berth) (e : Exc), s.berth b = some x → x.id = b → x.parkReq = none → x.side.core.pend = some e →
    let k := x.side.core
    let frame := ((k.w[15].toNat : Int) - 3)
    let nested := e.kind = 2 ∧ e.off < 64 ∧ k.seg[0] = 0
    let cause := fun (vec seg kind : Nat) (stack double : Bool) =>
      w16 (vec + seg * 2 ^ 5 + kind * 2 ^ 8 + b2n stack * 2 ^ 10 + b2n double * 2 ^ 11)
    let double := fun (v : State) (c : Cause) => (v.setBerth { y with side := { y.side with core := { y.side.core with
      st := .halt, double := true, pend := none, pc := e.savedPc, xcause := cause c.vec c.seg c.kind c.stack true
      xoff := w16 c.off, xpc := e.xpc, xsel := w16 e.xsel.toNat } } }).logFault 2 y.die (some b) (slotLoc y.die y.dock y.slot) y.dock [c.vec]
    (x.mayBegin = false → s.settle b = s) ∧
    (x.mayBegin = true → ¬ nested → s.frameCheck x frame 3 .write = (none, t) →
      (t.micros b true 5).pushWords b (k.w[15] - 1) [k.fl.word, w16 k.seg[0].toNat, e.savedPc] = (true, u) →
      u.berth b = some y → y.parkReq = none →
      s.settle b = u.setBerth { y with side := { y.side with core := { y.side.core with
        fl := { k.fl with ie := false, tf := false }, seg := k.seg.set 0 0, pc := w16 (2 * e.vec), w := k.w.set 15 (k.w[15] - 3)
        st := .run, pend := none, hold := false, xcause := cause e.vec e.seg e.kind e.stack false
        xoff := w16 e.off, xpc := e.xpc, xsel := w16 e.xsel.toNat } } }) ∧
    let n1 := (Config.doubleFaultLen false).val
    let n2 := (Config.doubleFaultLen true).val
    (x.mayBegin = true → nested → (s.micros b true n1).berth b = some y → y.parkReq = none →
      s.settle b = double (s.micros b true n1) { vec := e.vec, seg := e.seg, kind := e.kind, off := e.off }) ∧
    (∀ c, x.mayBegin = true → ¬ nested → s.frameCheck x frame 3 .write = (some c, t) →
      (t.micros b true n2).berth b = some y → y.parkReq = none → s.settle b = double (t.micros b true n2) c)

/-- RETI takes PC, the S0 selector and FL from W15, W15 + 1 and W15 + 2 and adds 3 to W15; a frame that fails changes nothing. Once its frame has
passed its check whole and its three words have been read upward, one a microcycle, PC, S0 and FL are the words read, S0 from bits 3 to 0 and FL from
bits 5 to 0, and W15 is 3 higher; the other registers stay. A frame that fails its check raises the exception of its first failing word, after 3 more
microcycles. (04_berth_core.md R139, 05_b16_instructions.md R171, 05_b16_instructions.md R186, 05_b16_instructions.md R187) -/
def Obligations.RetiRestoresItsFrame : Prop :=
  ∀ (s u v w : State) (b : Nat) (y z : Berth) (p g f : Word), s.begins (.reti b) b 3 u y →
    let k := y.side.core
    (u.frameCheck y (k.w[15].toNat : Int) 3 .read = (none, v) → v.popWords b k.w[15] 3 = (some [p, g, f], w) →
      w.berth b = some z → z.parkReq = none →
      exec (.reti b) s = .next (w.completed z { z.side.core with
        w := k.w.set 15 (k.w[15] + 3), pc := p, seg := k.seg.set 0 (BitVec.ofNat 4 g.toNat)
        fl := { c := f.getLsbD 0, z := f.getLsbD 1, n := f.getLsbD 2, v := f.getLsbD 3, ie := f.getLsbD 4, tf := f.getLsbD 5 } })) ∧
    (∀ c, u.frameCheck y (k.w[15].toNat : Int) 3 .read = (some c, v) →
      exec (.reti b) s = .next (((v.micros b true 3).modCore b (fun q => { q with pend := some (c.exc k.pc k.pc k.seg[0]) })).settle b))

/-- WAIT, WAITL and WAITC end in their last fixed microcycle when the condition holds there, and leave the core waiting when it does not. WAIT waits
for an enabled source to be pending; WAITL for a line, taken from bits 11 to 0 of a register or an extension word below 4096, a line of VTOTAL or more
ending it at once; WAITC for a column at or past its operand, from bits 12 to 0 or an extension word below 8192, on the line of microcycle n; WAIT
leaves the interrupt controller released. An extension word with a nonzero high field raises vector 1. PC is past the instruction; no register and no
flag changes; everything else is that of u. (04_berth_core.md R153, 04_berth_core.md R157, 05_b16_instructions.md R167, 05_b16_instructions.md R170,
05_b16_instructions.md R174, 05_b16_instructions.md R195, 05_b16_instructions.md R196) -/
def Obligations.WaitsBeginOrPassAtOnce : Prop :=
  (∀ (s u : State) (b : Nat) (y : Berth), s.begins (.wait b) b 2 u y →
    exec (.wait b) s = .next (u.completed { y with side := { y.side with bi := y.side.bi.idle } } { y.side.core.past 1 with
      st := if y.side.bi.pend &&& y.side.bi.en = 0 then .waitBI else .run })) ∧
  (∀ (s u : State) (b : Nat) (y : Berth) (o : WaitOp),
    let k := y.side.core
    let m := y.side.beam
    let value := fun width : Nat => match o with
      | .reg r => k.w[r].toNat % 2 ^ width
      | .ext e => e.toNat
    let legal := fun width : Nat => match o with
      | .reg _ => True
      | .ext e => e.toNat < 2 ^ width
    let illegal := u.raised y { vec := 1, savedPc := k.pc, xpc := k.pc, xsel := k.seg[0] }
    (s.begins (.waitl b o) b (o.words + 1) u y →
      (legal 12 → exec (.waitl b o) s = .next (u.completed y { k.past o.words with
        st := if m.geo.vtotal ≤ value 12 ∨ m.l = value 12 then .run else .waitL (value 12) })) ∧
      (¬ legal 12 → exec (.waitl b o) s = .next illegal)) ∧
    (s.begins (.waitc b o) b (o.words + 1) u y →
      (legal 13 → exec (.waitc b o) s = .next (u.completed y { k.past o.words with
        st := if value 13 < m.geo.htotal ∧ value 13 ≤ m.c then .run else .waitC (value 13) m.l m.geo.htotal })) ∧
      (¬ legal 13 → exec (.waitc b o) s = .next illegal)))

/-- A waiting core spends uncharged microcycles up to the first whose condition holds, and then runs; an interrupt due after a WAIT is taken there. A
core in WAIT, WAITL or WAITC that may idle through n microcycles, the condition holding in the n-th and in none before: WAIT_END, WAITL_END and
WAITC_END with at least n microcycles to grant leave the state after those n microcycles, none of them charged, with the core in RUN and nothing else
of the berth changed; a WAIT with an interrupt due takes vector 8 with PC saved. Where the condition holds in none of the microcycles granted, they
leave the state after those. A WAIT waits for a source pending and enabled; a WAITL for its line, or for a VTOTAL at or below it; a WAITC for its
column, or for the beam to leave the line that the column lies on. Stated for a wait that began with TF = 0 and with nothing pending.
(04_berth_core.md R153, 04_berth_core.md R156, 04_berth_core.md R159, 05_b16_instructions.md R170, 05_b16_instructions.md R174, 05_b16_instructions.md
R195, 05_b16_instructions.md R196) -/
def Obligations.WaitsEndInTheFirstMicrocycleThatMeetsThem : Prop :=
  ∀ (s : State) (b n k : Nat) (x y : Berth), s.berth b = some x → x.side.core.pend = none → x.side.core.tf0 = false →
    (s.micros b false n).berth b = some y → 0 < n → n ≤ k →
    let run := { y with side := { y.side with core := { y.side.core with st := .run } } }
    let ended := (s.micros b false n).setBerth run
    let source := fun z : Berth => z.side.bi.pend &&& z.side.bi.en ≠ 0
    let line := fun (l : Nat) (z : Berth) => z.side.beam.geo.vtotal ≤ l ∨ z.side.beam.l = l
    let column := fun (c l h : Nat) (z : Berth) => if z.side.beam.geo.htotal ≤ c then z.side.beam.l ≠ l
      else c ≤ z.side.beam.c ∨ (z.side.beam.l ≠ l ∧ (c < h ∨ z.side.beam.l ≠ 0))
    (x.side.core.st = .waitBI → s.idles b n source →
      (source y → (run.interruptDue && run.paceNext) = false → exec (.waitEnd b k) s = .next ended) ∧
      (source y → (run.interruptDue && run.paceNext) = true → exec (.waitEnd b n) s = .next ((s.micros b false n).raised run
        { vec := 8, savedPc := y.side.core.pc, xpc := y.side.core.lastPc, xsel := y.side.core.lastSel })) ∧
      (¬ source y → exec (.waitEnd b n) s = .next (s.micros b false n))) ∧
    (∀ l, x.side.core.st = .waitL l → s.idles b n (line l) →
      (line l y → exec (.waitlEnd b k) s = .next ended) ∧ (¬ line l y → exec (.waitlEnd b n) s = .next (s.micros b false n))) ∧
    (∀ c l h, x.side.core.st = .waitC c l h → s.idles b n (column c l h) →
      (column c l h y → exec (.waitcEnd b k) s = .next ended) ∧
      (¬ column c l h y → exec (.waitcEnd b n) s = .next (s.micros b false n)))

/-- IN takes the value its port reads in the last microcycle; RDBEAM reads line and column together; STAMP queues a stamp at its column. IN from a
port in a register (bits 11 to 0) or an extension word below 4096 writes the port's value to Wd: beam line, column and frame count, CAP, the berth's
ID, the pending and enable halves of the interrupt controller, timer counters (a LO read latches the HI half), shadow ports, 0 for a reserved port. A
nonzero high field raises vector 1; a GP_ port of a pin that is not lent raises vector 4. RDBEAM writes line and column of one microcycle. STAMP
queues its stamp on the line of microcycle n at Wc, limited to HTOTAL - 1 and raised to the column reached. No flag changes. (04_berth_core.md R141,
04_berth_core.md R142, 05_b16_instructions.md R189, 05_b16_instructions.md R190, 05_b16_instructions.md R198, 05_b16_instructions.md R199,
03_beam_time.md R106, 03_beam_time.md R111, 11_timers_interrupts.md R390) -/
def Obligations.InAndBeamInstructions : Prop :=
  (∀ (s u : State) (b : Nat) (y : Berth) (d : Reg) (o : PortOp), s.begins (.inPort b d o) b (o.words + 2) u y →
    let k := y.side.core
    let x := y.side
    let p := match o with | .reg r => k.w[r].toNat % 4096 | .ext e => e.toNat
    let reads := fun (v : Nat) => exec (.inPort b d o) s = .next (u.completed y { k.past o.words with w := k.w.set d (w16 v) })
    (4096 ≤ p → exec (.inPort b d o) s = .next (u.raised y { vec := 1, savedPc := k.pc, xpc := k.pc, xsel := k.seg[0] })) ∧
    (p = 0xBC0 → reads x.beam.l) ∧ (p = 0xBC1 → reads x.beam.c) ∧ (p = 0xBC2 → reads (x.beam.frame % 65536)) ∧
    (p = 0xBD4 → reads k.cap) ∧ (p = 0xBDC → reads y.id) ∧
    (p = 0xB80 → reads (x.bi.pend.toNat % 65536)) ∧ (p = 0xB81 → reads (x.bi.pend.toNat / 65536)) ∧
    (p = 0xB82 → reads (x.bi.en.toNat % 65536)) ∧ (p = 0xB83 → reads (x.bi.en.toNat / 65536)) ∧
    (0xC80 ≤ p ∧ p < 4096 → reads 0) ∧
    (0x400 ≤ p ∧ p < 0x800 → ∀ row, portRow (p - 0x400) = some row → reads (x.shadowOf (p - 0x400)).toNat) ∧
    (∀ n : Fin 4, p = 0xA01 + 16 * n.val → exec (.inPort b d o) s = .next (u.completed
      { y with side := { x with timers := x.timers.set n { x.timers[n] with laCnt := w16 (x.timers[n].cnt.toNat / 65536) } } }
      { k.past o.words with w := k.w.set d (w16 x.timers[n].cnt.toNat) })) ∧
    (∀ n : Fin 4, p = 0xA02 + 16 * n.val → reads x.timers[n].laCnt.toNat) ∧
    (0xC40 ≤ p ∧ p < 0xC70 → u.pinLent y p = false → exec (.inPort b d o) s =
      .next ((u.logViol 0 { cls := 0, id := y.id } .read 3 (if y.die = 0 then 0 else 2) (p - 0xC40)).raised y
        { vec := 4, savedPc := k.pc, kind := 0, off := p, xpc := k.pc, xsel := k.seg[0] }))) ∧
  (∀ (s u : State) (b : Nat) (y : Berth) (p : Fin 8), s.begins (.rdbeam b p) b 2 u y → exec (.rdbeam b p) s = .next (u.completed y
    { y.side.core.past 1 with w := (y.side.core.w.set (pairHi p) (w16 y.side.beam.l)).set (pairLo p) (w16 y.side.beam.c) })) ∧
  (∀ (s u : State) (b : Nat) (y : Berth) (port : Word) (r c : Reg), s.begins (.stamp b port r c) b 4 u y →
    let k := y.side.core
    let m := y.side.beam
    let col := max (min k.w[c].toNat (m.geo.htotal - 1)) m.c
    let place := if m.geo.vvis ≤ m.l then (m.frame + 1, 0, 0)
      else if col < m.geo.hvis then (m.frame, m.l, col)
      else if m.l + 1 = m.geo.vvis then (m.frame + 1, 0, 0) else (m.frame, m.l + 1, 0)
    (1024 ≤ port.toNat → exec (.stamp b port r c) s =
      .next (u.raised y { vec := 1, savedPc := k.pc, xpc := k.pc, xsel := k.seg[0] })) ∧
    (port.toNat < 1024 → portRow port.toNat = none → exec (.stamp b port r c) s = .next (u.completed y (k.past 2))) ∧
    (∀ row, port.toNat < 1024 → portRow port.toNat = some row → y.cur.stamps.length < 512 →
      let t : Stamp := ⟨place.1, place.2.1, place.2.2, port.toNat, k.w[r] &&& w16 (row.mask [.st])⟩
      exec (.stamp b port r c) s = .next (u.completed { y with
        side := { y.side with stamps := y.side.stamps ++ [t] }, cur := { y.cur with stamps := y.cur.stamps ++ [t] } } (k.past 2))))

/-- Every OUT row writes its port in its last microcycle, with the value Ws held; a row whose port lies outside its class changes nothing. OUT and
each OUT row of the table, with a legal port of its class that the berth may use, complete with the port's write on the berth of microcycle n and PC
past the instruction; no register and no flag changes. A value written to a timer's HI port takes effect in the microcycle itself. A port outside a
row's class is not that row's command. An illegal port word raises vector 1, a GP_ port of a pin that is not lent vector 4. (04_berth_core.md R141,
04_berth_core.md R142, 05_b16_instructions.md R172, 05_b16_instructions.md R189, 05_b16_instructions.md R190, 11_timers_interrupts.md R389) -/
def Obligations.OutWritesItsPortAndNothingElse : Prop :=
  ∀ (s u : State) (b : Nat) (x y : Berth) (o : PortOp) (r : Reg) (tw : Option (Fin 4 × TimerWrite)), s.berth b = some x →
    s.begins (.out b o r) b (o.words + 2) u y tw →
    let port := fun (k : Core) => match o with | .reg q => k.w[q].toNat % 4096 | .ext e => e.toNat
    let p := port x.side.core
    let v := x.side.core.w[r]
    let on := fun (n : Nat) => bitOf v.toNat n
    let k := y.side.core
    let z := y.portWrite p v
    let done : Answer := .next (u.completed z (z.side.core.past o.words))
    let barred := 0xC40 ≤ p ∧ p < 0xC70 ∧ u.pinLent y p = false
    (p < 4096 → tw = x.timerWrite p v.toNat → ¬ barred →
      let only := fun (i : Instr) (cls : Prop) => (cls → exec i s = done) ∧ (¬ cls → exec i s = .next s)
      exec (.out b o r) s = done ∧
      only (.lvPortWrite b o r) (p < 0x400) ∧ only (.shPortWrite b o r) (0x400 ≤ p ∧ p < 0x800 ∨ 0xBC8 ≤ p ∧ p ≤ 0xBD1) ∧
      only (.commitArm b o r) (p = 0xBC4) ∧ only (.paceSet b o r) (p = 0xBD4) ∧
      only (.btValueWrite b o r) (0xA00 ≤ p ∧ p < 0xA40 ∧ (p % 16 = 2 ∨ p % 16 = 4 ∨ p % 16 = 6)) ∧
      only (.biPendWrite b o r) (p = 0xB80 ∨ p = 0xB81) ∧ only (.biEoi b o r) (p = 0xB85) ∧
      only (.ferryGo b o r) (0xA80 ≤ p ∧ p < 0xAC0 ∧ p % 16 = 8 ∧ on 0 = true ∧ on 1 = false) ∧
      only (.ferryAbort b o r) (0xA80 ≤ p ∧ p < 0xAC0 ∧ p % 16 = 8 ∧ on 1 = true) ∧
      only (.lighterPush b o r) (p = 0xB10) ∧ only (.ljDeadtWrite b o r) (p = 0xB12) ∧
      only (.voiceKeyon b o r) (0x800 ≤ p ∧ p < 0x880 ∧ p % 4 = 0 ∧ on 0 = true) ∧
      only (.voiceKeyoff b o r) (0x800 ≤ p ∧ p < 0x880 ∧ p % 4 = 0 ∧ on 1 = true) ∧
      only (.sampleRingConfig b o r) (0x8A0 ≤ p ∧ p < 0x920 ∧ (p % 8 = 0 ∨ p % 8 = 1)) ∧
      only (.padRpWrite b o r) (p = 0xC01) ∧ only (.lentPinWrite b o r) (0xC40 ≤ p ∧ p < 0xC70)) ∧
    (4096 ≤ p → tw = none → exec (.out b o r) s =
      .next (u.raised y { vec := 1, savedPc := k.pc, xpc := k.pc, xsel := k.seg[0] })) ∧
    (barred → tw = none → exec (.out b o r) s =
      .next ((u.logViol 0 { cls := 0, id := y.id } .write 3 (if y.die = 0 then 0 else 2) (p - 0xC40)).raised y
        { vec := 4, savedPc := k.pc, kind := 1, off := p, xpc := k.pc, xsel := k.seg[0] }))

/-- A write to an LV_ port queues one stamp at its effective position, to an SH_ port its shadow, to BM_COMMIT the arm, to BM_PACE the cap. A write to
an implemented LV_ port with room in the queue adds one stamp at the effective position of the beam, in the berth's stamps and in the watch's; with
512 stamps in the watch the OUT stalls: the stamp waits, the berth freezes and STALLS counts. A reserved LV_ port changes nothing. An SH_ or geometry
port writes its shadow at once and no stamp. ARM arms and is never taken back by a write. CAP is written whole, and CAP = 0 clears the overdraft.
Nothing else of the berth changes. (03_beam_time.md R105, 03_beam_time.md R106, 03_beam_time.md R111, 03_beam_time.md R112, 03_beam_time.md R114,
03_beam_time.md R116, 04_berth_core.md R161) -/
def Obligations.PortWritesOfTheRaster : Prop :=
  ∀ (y : Berth) (p : Nat) (v : Word) (row : PortRow),
    let x := y.side
    let m := x.beam
    let place := if m.geo.vvis ≤ m.l then (m.frame + 1, 0, 0)
      else if m.c < m.geo.hvis then (m.frame, m.l, m.c)
      else if m.l + 1 = m.geo.vvis then (m.frame + 1, 0, 0) else (m.frame, m.l + 1, 0)
    let t : Stamp := ⟨place.1, place.2.1, place.2.2, p, v &&& w16 (row.mask [.st])⟩
    (p < 0x400 → portRow p = none → y.portWrite p v = y) ∧
    (p < 0x400 → portRow p = some row → y.cur.stamps.length < 512 →
      y.portWrite p v = { y with side := { x with stamps := x.stamps ++ [t] }, cur := { y.cur with stamps := y.cur.stamps ++ [t] } }) ∧
    (p < 0x400 → portRow p = some row → 512 ≤ y.cur.stamps.length →
      y.portWrite p v = { y with side := { x with stalled := some t }, freezes := y.freezes ++ [.queueFull], stalls := y.stalls + 1 }) ∧
    (0x400 ≤ p → p < 0x800 → portRow (p - 0x400) = some row → y.portWrite p v = { y with side := { x with
      shadow := tput x.shadow (p - 0x400) (v &&& w16 (row.mask [.st])) (w16 (portDefault (p - 0x400))) } }) ∧
    (0xBC8 ≤ p → p ≤ 0xBD1 → portRow p = some row → y.portWrite p v = { y with side := x.setPort p (v.toNat &&& row.mask [.sh]) }) ∧
    (v.getLsbD 0 = true → y.portWrite 0xBC4 v = { y with side := { x with beam := { m with arm := true } } }) ∧
    (v.getLsbD 0 = false → y.portWrite 0xBC4 v = y) ∧
    (y.portWrite 0xBD4 v = { y with side := { x with core := { x.core with
      cap := v.toNat, overrun := if v = 0 then 0 else x.core.overrun } } })

/-- A timer HI write takes the staged low half in its microcycle; a pending write replaces its half but for bits hardware sets; EOI re-samples.
BTimer.step with a compare, interval or counter write takes the written value whole in that step and tests it for the match, the counter's own advance
discarded when the counter is written; the value a HI port carries is its 16 bits above the stage. A write of BI_PENDLO or BI_PENDHI leaves the other
half and keeps a bit that hardware set in the microcycle (Table 11-3). EOI sets an audio or pad source again while its level stands. EN written to a
control port starts the timer from the next step. (11_timers_interrupts.md R385, 11_timers_interrupts.md R386, 11_timers_interrupts.md R389,
11_timers_interrupts.md R390, 11_timers_interrupts.md R401, 11_timers_interrupts.md R409) -/
def Obligations.PortWritesOfTimersAndInterrupts : Prop :=
  (∀ (y : Berth) (n : Fin 4) (v : Word),
    let t := y.side.timers[n]
    y.timerWrite (0xA02 + 16 * n.val) v.toNat = some (n, ⟨0, v ++ t.stCnt⟩) ∧
    y.timerWrite (0xA04 + 16 * n.val) v.toNat = some (n, ⟨1, v ++ t.stCmp⟩) ∧
    y.timerWrite (0xA06 + 16 * n.val) v.toNat = some (n, ⟨2, v ++ t.stInt⟩) ∧
    y.portWrite (0xA01 + 16 * n.val) v = { y with side := { y.side with timers := y.side.timers.set n { t with stCnt := v } } } ∧
    y.portWrite (0xA03 + 16 * n.val) v = { y with side := { y.side with timers := y.side.timers.set n { t with stCmp := v } } } ∧
    y.portWrite (0xA05 + 16 * n.val) v = { y with side := { y.side with timers := y.side.timers.set n { t with stInt := v } } }) ∧
  (∀ (t : BTimer) (adv : Nat) (v : Word32), t.follow = false →
    let r0 := t.step adv (some ⟨0, v⟩)
    let r1 := t.step adv (some ⟨1, v⟩)
    let r2 := t.step adv (some ⟨2, v⟩)
    let cnt := if t.en then t.cnt + w32 adv else t.cnt
    (r0.1.cnt = v ∧ r0.1.cmp = t.cmp ∧ r0.1.int = t.int ∧ r0.2 = false ∧ r0.1.mat = t.mat) ∧
    (r1.1.cnt = cnt ∧ r1.1.int = t.int ∧ (t.en = false → r1.1.cmp = v ∧ r1.2 = false) ∧
      (r1.2 = false → r1.1.cmp = v) ∧ (r1.2 = true → t.auto = false → r1.1.cmp = v) ∧
      (r1.2 = true → t.auto = true → r1.1.cmp = v + t.int)) ∧
    (r2.1.cnt = cnt ∧ r2.1.int = v ∧ (r2.2 = false → r2.1.cmp = t.cmp))) ∧
  (∀ (y : Berth) (v : Word) (n : Nat), n < 32 →
    let i := y.side.bi
    let lo := (y.portWrite 0xB80 v).side.bi
    let hi := (y.portWrite 0xB81 v).side.bi
    lo.pend.getLsbD n = (if n < 16 then v.getLsbD n || i.setNow.getLsbD n else i.pend.getLsbD n) ∧
    hi.pend.getLsbD n = (if n < 16 then i.pend.getLsbD n else v.getLsbD (n - 16) || i.setNow.getLsbD n) ∧
    (lo.en = i.en ∧ hi.en = i.en ∧ lo.lcmp = i.lcmp ∧ lo.lines = i.lines)) ∧
  (∀ (y : Berth) (v : Word),
    let e := (y.portWrite 0xB85 v).side.bi
    (v.toNat % 32 = 12 → y.side.pad.wp ≠ y.side.pad.rp → e.pend = y.side.bi.pend ||| w32 (2 ^ 12)) ∧
    (v.toNat % 32 = 12 → y.side.pad.wp = y.side.pad.rp → e.pend = y.side.bi.pend) ∧
    (v.toNat % 32 ≠ 11 → v.toNat % 32 ≠ 12 → e.pend = y.side.bi.pend))

/-- GO, ABORT and PUSH start and stop engine work, key writes queue keys, ring settings clear a voice, PD_RP and pin writes wait for the commit. GO on
an ARMED or BUSY channel only sets OVERRUN; on an IDLE or DONE one it latches the manifest, an invalid one ends DONE with BADMAN, a valid immediate
one becomes BUSY with its start in the watch. ABORT idles an ARMED channel, queues an abort for a BUSY one and does nothing else. PUSH with eight jobs
outstanding sets FULLERR, an invalid job BADJOB, else the job takes the next tag. KEYON and KEYOFF are kept in that order for the next sample instant,
with the voice's INDEX0 and mode of now. A write of a ring's base is kept among them, and then clears its pointers and buffer. DEADT, PD_RP and lent
pin writes are kept for the watch commit. (09_audio.md R311, 09_audio.md R317, 10_ferry_lighter.md R355, 10_ferry_lighter.md R358, 10_ferry_lighter.md
R359, 10_ferry_lighter.md R361, 10_ferry_lighter.md R370, 12_quays.md R436, 17_pins_electrical.md R599) -/
def Obligations.PortWritesOfEnginesAudioAndPins : Prop :=
  (∀ (y : Berth) (n : Fin 4) (v : Word),
    let c := y.side.fc[n]
    let m := (List.range 8).map (fun i => w16 (y.side.port (0xA80 + 16 * n.val + i)))
    let w := y.portWrite (0xA88 + 16 * n.val) v
    (v.getLsbD 1 = true →
      (c.state = 1 → w = { y with side := { y.side with fc := y.side.fc.set n { c with state := 0 } } }) ∧
      (c.state = 2 → w = { y with cur := { y.cur with starts := y.cur.starts ++ [.ferryAbort n.val] } }) ∧
      (c.state ≠ 1 → c.state ≠ 2 → w = y)) ∧
    (v.getLsbD 1 = false → v.getLsbD 0 = true →
      (c.state = 1 ∨ c.state = 2 → w.side.fc = y.side.fc.set n { c with overrun := true } ∧ w.cur = y.cur) ∧
      (c.state ≠ 1 → c.state ≠ 2 →
        (manValid m = false → w = { y with side := { y.side with fc := y.side.fc.set n { c with state := 3, result := 9, man := m } } }) ∧
        (manValid m = true → manTrig m = 0 →
          w.side.fc[n] = { c with state := 2, result := 0, count := 0, diff := 0, man := m } ∧
          w.cur = { y.cur with starts := y.cur.starts ++ [.ferry n.val m (y.side.bt - 1)] }))) ∧
    (v.getLsbD 1 = false → v.getLsbD 0 = false → w = y)) ∧
  (∀ (y : Berth) (v : Word),
    let q := y.side.lj
    let m := (List.range 13).map (fun i => w16 (y.side.port (0xB00 + i)))
    let w := y.portWrite 0xB10 v
    (v.getLsbD 0 = false → w = y) ∧
    (v.getLsbD 0 = true → (8 ≤ q.outst.length ∨ jobValid m = false) → w = { y with side := { y.side with lj := { q with
      fullErr := q.fullErr || decide (8 ≤ q.outst.length), badJob := q.badJob || !jobValid m } } }) ∧
    (v.getLsbD 0 = true → q.outst.length < 8 → jobValid m = true →
      w.side.lj.nextTag = (q.nextTag + 1) % 8 ∧ w.side.lj.outst = q.outst ++ [q.nextTag] ∧
      (w.side.lj.jobs.map (·.tag)) = (q.jobs.map (·.tag)) ++ [q.nextTag] ∧ w.side.lj.fullErr = q.fullErr ∧ w.side.lj.badJob = q.badJob) ∧
    y.portWrite 0xB12 v = { y with side := y.side.setPort 0xB12 (v.toNat % 1024), cur := { y.cur with deadt := some (v.toNat % 1024) } } ∧
    y.portWrite 0xC01 v = { y with side := { y.side with pad := { y.side.pad with rp := v.toNat } }, cur := { y.cur with padRp := some v.toNat } }) ∧
  (∀ (y : Berth) (v : Word) (n : Nat), n < 32 →
    let w := y.portWrite (0x800 + 4 * n) v
    let act := fun on : Bool =>
      AuAct.key n on (bitsOf (y.side.port (0x8A5 + 8 * n)) 6 0) (decide (n < 16) && bitOf (y.side.port (0x8A0 + 8 * n)) 2)
    w.side.au.keys = y.side.au.keys ++ (if v.getLsbD 0 then [act true] else []) ++ (if v.getLsbD 1 then [act false] else []) ∧
    w.cur = y.cur ∧ w.side.core = y.side.core) ∧
  (∀ (y : Berth) (v : Word) (n : Nat), n < 16 → y.side.au.sv.length = 16 →
    let w := y.portWrite (0x8A1 + 8 * n) v
    let z := y.side.applyKey (.ring n)
    w.side.au.sv = y.side.au.sv ∧ w.side.au.keys = y.side.au.keys ++ [.ring n] ∧
    (z.au.sv.getD n {}).rp = 0 ∧ (z.au.sv.getD n {}).fp = 0 ∧ (z.au.sv.getD n {}).buf = [] ∧
      ∀ i, i ≠ n → z.au.sv.getD i {} = y.side.au.sv.getD i {}) ∧
  (∀ (y : Berth) (v : Word) (n : Nat), n < 48 → tsorted y.side.pins = true →
    let w := y.portWrite (0xC40 + n) v
    w.cur = { y.cur with pins := y.cur.pins ++ [(n, (tget w.side.pins n 0).toNat)] } ∧
    (tget w.side.pins n 0).getLsbD 8 = v.getLsbD 8 ∧ (tget w.side.pins n 0).getLsbD 9 = v.getLsbD 9 ∧
    (tget w.side.pins n 0).getLsbD 0 = (tget y.side.pins n 0).getLsbD 0 ∧
    (tget w.side.pins n 0).getLsbD 1 = ((tget y.side.pins n 0).getLsbD 1 && !v.getLsbD 1))

/-- A microcycle advances the beam position by INC 2^-30 columns, modulo the frame; a new line and a boundary are where it crosses them. With INC at
most 0x5000_0000 and a position inside the geometry, the position counted in 2^-30 columns from the frame's start grows by INC modulo HTOTAL x VTOTAL
x 2^30; the columns advanced, the new line and the frame boundary are those that the growth crosses; line and column stay inside the geometry; the
frame count and the geometry do not change in the step itself. (R94, R95) -/
def Obligations.BeamPositionAdvancesByInc : Prop :=
  ∀ (m : Beam) (bt : Nat), 2 ≤ m.geo.htotal → m.c < m.geo.htotal → m.l < m.geo.vtotal → m.geo.inc ≤ 0x50000000 →
    let pos := fun q : Beam => (q.l * m.geo.htotal + q.c) * 2 ^ 30 + q.acc % 2 ^ 30
    let line := m.geo.htotal * 2 ^ 30
    let p := pos m + m.geo.inc
    let r := m.step bt
    pos r.1 = p % (line * m.geo.vtotal) ∧ r.1.c < m.geo.htotal ∧ r.1.l < m.geo.vtotal ∧
    r.2.cols = p / 2 ^ 30 - pos m / 2 ^ 30 ∧ r.2.cols ≤ 2 ∧ r.2.newLine = decide (p / line ≠ pos m / line) ∧
    r.2.boundary = decide (line * m.geo.vtotal ≤ p) ∧ r.1.geo = m.geo ∧ r.1.frame = m.frame ∧ r.1.acc = (m.acc + m.geo.inc) % 2 ^ 32

/-- One microcycle: the beam steps, a boundary counts the frame and commits an armed shadow, timers step and match, samples and lines count. In every
microcycle, charged or not, berth time grows by one and the beam takes its step; at a frame boundary BM_FRAME counts, an armed commit copies every
shadow to live and clears ARM, a new geometry enters only when valid and GEOERR records one that is not, and BI source 14 is set; a new line starts
the pace budget anew and counts a line; the accumulator of samples counts modulo 10000 and a sample instant counts where it held 0; each timer takes
its step, and a match sets MATCH and BI source n. Registers, PC, FL, selectors, shadows and descriptors stay. (03_beam_time.md R88, 03_beam_time.md
R96, 03_beam_time.md R97, 03_beam_time.md R112, 03_beam_time.md R113, 03_beam_time.md R114, 04_berth_core.md R159, 09_audio.md R305,
11_timers_interrupts.md R387, 11_timers_interrupts.md R408) -/
def Obligations.MicrocycleOfABerth : Prop :=
  ∀ (s : State) (b : Nat) (x : Berth) (charged : Bool), s.berth b = some x → x.id = b →
    ∃ y, (s.micro b charged).berth b = some y ∧
      let st := x.side.beam.step x.side.bt
      let m := st.1
      let armed := st.2.boundary && m.arm
      let geo := x.side.shadowGeo
      let k0 := x.side.core
      let k := y.side.core
      y.side.bt = x.side.bt + 1 ∧
      y.side.beam = (if st.2.boundary then { m with
        frame := m.frame + 1, arm := false, commit := if m.arm then some x.side.shadow else none
        geo := if m.arm && geo.valid s.prof.cls then geo else m.geo, geoerr := m.geoerr || (m.arm && !geo.valid s.prof.cls) } else m) ∧
      (armed = true → y.side.base = x.side.shadow) ∧ y.side.shadow = x.side.shadow ∧ y.side.desc = x.side.desc ∧
      (st.2.boundary = true → y.side.bi.pend.getLsbD 14 = true) ∧
      y.side.bi.lines = x.side.bi.lines + b2n st.2.newLine ∧
      (k.w, k.pc, k.fl, k.seg, k.st, k.pend, k.cap) = (k0.w, k0.pc, k0.fl, k0.seg, k0.st, k0.pend, k0.cap) ∧
      k.charges = (if st.2.newLine then 0 else k0.charges) + b2n charged ∧
      (st.2.newLine = true → k0.cap ≠ 0 → k.overrun = k0.overrun + k0.charges - k0.cap) ∧
      y.side.au.sacc = (x.side.au.sacc + 1) % 10000 ∧
      (x.side.au.sacc ≠ 0 → y.side.au.scount = x.side.au.scount) ∧
      (∀ n : Fin 4,
        let t := x.side.timers[n]
        let r := t.step (t.adv st.2 (decide (x.side.au.sacc = 0))) none
        y.side.timers[n] = r.1 ∧ (r.2 = true → y.side.timers[n].mat = true ∧ y.side.bi.pend.getLsbD n.val = true))

/-- While a core has halted, microcycles pass uncharged until the line start, boundary, sample, match or release that the command names. Each of the
five commands grants microcycles one by one to a halted core that is not frozen and whose watch is not due, and ends with the first that brings its
event about: a new line, a frame boundary, a sample instant, a match of the named timer, the release of a held interrupt group. Where the microcycle
does not, the command goes on from it with one microcycle less. (03_beam_time.md R90, 04_berth_core.md R155, 04_berth_core.md R159, 03_beam_time.md
R97, 09_audio.md R307, 11_timers_interrupts.md R387, 11_timers_interrupts.md R406) -/
def Obligations.BerthTimeEventsOfAHaltedCore : Prop :=
  ∀ (s : State) (b k : Nat) (x y : Berth), s.berth b = some x → x.id = b → x.mayIdle = true → x.side.core.st = .halt →
    x.side.core.pend = none → (s.micro b false).berth b = some y → y.parkReq = none →
    let t := s.micro b false
    let ends := fun (i : Nat → Instr) (happens : Prop) =>
      (happens → exec (i (k + 1)) s = .next t) ∧ (¬ happens → exec (i (k + 1)) s = exec (i k) t)
    ends (.beamLineStart b) (x.side.beam.lineBt ≠ y.side.beam.lineBt) ∧
    ends (.frameBoundary b) (x.side.beam.frame ≠ y.side.beam.frame) ∧
    ends (.sampleInstant b) (x.side.au.scount ≠ y.side.au.scount) ∧
    (∀ n : Fin 4, ends (.berthTimerMatch b n) (bitOf (y.side.setBits (0xA00 + 16 * n.val)) 4 = true ∨
      x.side.timers[n].mat = false ∧ y.side.timers[n].mat = true)) ∧
    ends (.biModerationRelease b) (x.side.bi.mod.released = false ∧ y.side.bi.mod.released = true)

/-- A due watch ends with what it made recorded; its commit makes the checkpoint current and releases stamps, lines and positions once. WATCH_END
numbers the next watch from the one that ended, begins it at this microcycle and keeps what the ended watch made with the state latched at the
boundary. WATCH_COMMIT, 2 us or more after, makes that state the current checkpoint and releases the stamps, lines, pad position and DEADT of the
oldest ended watch, when they fit the store; with a commit that does not fit, the berth is frozen and STOREWAITS counts. STAMP_STORE_ADMIT releases
the first waiting commit once it fits. Stated where no command waits for the commit and no exception is pending. (03_beam_time.md R109,
03_beam_time.md R117, 14_watches_faults_selftest.md R489, 14_watches_faults_selftest.md R491, 14_watches_faults_selftest.md R494,
14_watches_faults_selftest.md R499, 14_watches_faults_selftest.md R500, 14_watches_faults_selftest.md R501) -/
def Obligations.WatchesEndCommitAndRelease : Prop :=
  (∀ (s : State) (b : Nat) (x : Berth), s.berth b = some x → x.id = b → x.mayEnd = true → x.side.core.pend = none → x.parkReq = none →
    ∃ y r, exec (.watchEnd b) s = .next (s.setBerth y) ∧ y.cur.seq = (x.cur.seq + 1) % 2 ^ 32 ∧ y.cur.start = x.side.bt ∧
      y.cur.stamps = x.side.stalled.toList ∧ y.cur.undo = [] ∧ y.ended = x.ended ++ [r] ∧ r.acc = x.cur ∧ r.at_ = min s.htime (s.clkTime x) ∧
      r.segs = x.segDefs ∧ y.segDefs = [] ∧ r.gov = x.gov ∧
      r.side.core = x.side.core ∧ r.side.beam = x.side.beam ∧ r.side.bt = x.side.bt ∧ y.side.stalled = none ∧ y.closeReq = false ∧
      y.side.core = x.side.core) ∧
  (∀ (s : State) (b at_ : Nat) (x : Berth) (r : WatchRec) (rest : List WatchRec), s.berth b = some x → x.id = b → x.ended = r :: rest →
    r.headerDone = false → r.acc.mismatch = false → x.parked = false → s.flying = [] → .closed ∉ x.freezes → x.parkReq = none →
    x.side.core.pend = none → r.acc.starts = [] →
    x.hasTime = true →
    let u := s.at (max at_ (r.at_ + 2000))
    u.berth b = some x →
    let n := (r.acc.seq + 1) % 2
    let w := u.writeHeader x n r.acc.seq r.side.bt (r.at_ % 2 ^ 64) r.cause
    let ck : Ckpt := { side := r.side, seq := r.acc.seq, buffer := n, cause := r.cause, at_ := r.at_, gov := r.gov }
    let z : Berth := { x with
      ckpt := some ck, ended := { r with headerDone := true } :: rest
      outside := x.outside.filter (fun o => decide (o.appliedIn ≠ some r.acc.seq)) }
    let fits := (w.2.setBerth z).storeFits z r.acc.stamps.length none
    w.1 = true → ∃ t y, exec (.watchCommit b at_) s = .next t ∧ t.berth b = some y ∧ y.ckpt = some ck ∧ y.side = x.side ∧ y.cur = x.cur ∧
      (fits = true → y.ended = rest ∧ y.pipe.store = x.pipe.store ++ r.acc.stamps ∧ y.pipe.lines = x.pipe.lines ++ r.acc.lines ∧
        y.padRet = r.acc.padRp.getD x.padRet ∧ y.deadt = r.acc.deadt.getD x.deadt) ∧
      (fits = false → y.pipe = x.pipe ∧ y.storeWaits = x.storeWaits + 1 ∧ .storeFull ∈ y.freezes ∧
        y.ended.map (·.acc) = x.ended.map (·.acc))) ∧
  (∀ (s : State) (d k at_ p : Nat) (x : Berth) (r : WatchRec) (rest : List WatchRec), s.hasDie d = true → k < 16 → s.flying = [] →
    let u := s.at at_
    let t := (u.dockBerths d k).foldl (fun (v : State) x => v.joinOrder x.id) u
    t.firstWaiter d k = some (x, p) → t.berth x.id = some x → x.ended = r :: rest → r.acc.starts = [] →
    .closed ∉ x.freezes → x.parkReq = none → x.side.core.pend = none →
    (t.storeFits x r.acc.stamps.length (some p) = true → ∃ v y, exec (.stampStoreAdmit d k at_) s = .next v ∧ v.berth x.id = some y ∧
      y.ended = rest ∧ y.pipe.store = x.pipe.store ++ r.acc.stamps ∧ y.pipe.lines = x.pipe.lines ++ r.acc.lines) ∧
    (t.storeFits x r.acc.stamps.length (some p) = false → exec (.stampStoreAdmit d k at_) s = .next t))

/-- Recovery runs the berth on from its checkpoint in a new slot; a relocation or migration runs it on from where it stood; the old slot is TEST. A
mismatch of a berth that may have one, whose rollback replays its undo entries and whose dock has a candidate slot, leaves the berth in that slot with
its checkpoint's berth time, registers and beam, LOC and GEN changed, MOVING 0. A berth moving within its dock, or to another that has room and its
image, its old dock having let go of it, runs on in the destination slot with its own state as it stood, its old slot TEST. An HTIME berth frozen for
alignment runs on, with no offset, at the time its beam position falls on the grid point it takes up. Stated where no command waits for the move.
(14_watches_faults_selftest.md R504, 14_watches_faults_selftest.md R505, 14_watches_faults_selftest.md R507, 14_watches_faults_selftest.md R508,
14_watches_faults_selftest.md R511, 14_watches_faults_selftest.md R512, 03_beam_time.md R100, 01_package.md R31) -/
def Obligations.RecoveryAndRelocationPlaceTheBerth : Prop :=
  (∀ (s : State) (b back fr at_ n : Nat) (x : Berth) (c : Ckpt) (t v : State),
    let u := s.at at_
    u.berth b = some x → x.id = b → x.mayMismatch = true → u.deputyHalted x.die = false → x.ended = [] → x.moving = false → x.dest = none →
    x.ckpt = some c → c.side.core.pend = none → x.parkReq = none → s.flying = [] →
    (u.hicSet x.die (64 + 17 * x.dock + x.slot)).rollback x = (none, t) → t.pickSlot x.die x.dock = (some n, v) →
    ∃ w y, exec (.lockstepMismatch b back 0 fr at_) s = .next w ∧ w.berth b = some y ∧ y.dock = x.dock ∧ y.slot = n ∧
      y.locGen = (x.locGen + 1) % 65536 ∧ y.moving = false ∧ y.side.bt = c.side.bt ∧ y.side.core = c.side.core ∧
      y.side.beam = c.side.beam ∧ y.side.desc = c.side.desc ∧ y.cur.seq = (c.seq + 1) % 2 ^ 32 ∧ y.relocs = x.relocs + 1) ∧
  (∀ (s : State) (b fr at_ why k n m : Nat) (x : Berth),
    let u := s.at at_
    u.berth b = some x → x.id = b → x.dest = some (why, k, n) → x.moving = true → x.ended = [] → x.parked = false →
    u.deputyHalted x.die = false → s.flying = [] → x.side.core.pend = none → x.parkReq = none → u.moveSlot x.die k n = some m → x.slot ≠ m ∨ x.dock ≠ k →
    (k = x.dock → ∃ w y, exec (.faultFreeRelocation b fr at_) s = .next w ∧ w.berth b = some y ∧ y.dock = k ∧ y.slot = m ∧
      y.locGen = (x.locGen + 1) % 65536 ∧ y.moving = false ∧ y.side = x.side ∧ y.cur = x.cur ∧ .recovery ∉ y.freezes ∧
      w.slot x.die k m = 1 ∧ w.slot x.die x.dock x.slot = 2) ∧
    (k ≠ x.dock → u.dockLetGo x = true → (u.slotsIn x.die k 1).length < u.prof.berths → u.imageFits x k = true → ∃ w y, exec (.crossDockMigration b fr at_) s = .next w ∧ w.berth b = some y ∧ y.dock = k ∧
      y.slot = m ∧ y.moving = false ∧ y.side.core = x.side.core ∧ y.side.beam = x.side.beam ∧ y.side.bt = x.side.bt ∧
      .migrate ∉ y.freezes ∧ w.slot x.die k m = 1 ∧ w.slot x.die x.dock x.slot = 2)) ∧
  (∀ (s : State) (b : Nat) (x : Berth), s.berth b = some x → x.id = b → x.freezes = [.align] → s.flying = [] →
    let z := s.alignPoint x
    ∃ w y, exec (.governorAlign b) s = .next w ∧ w.berth b = some y ∧ y.freezes = [] ∧ y.side = x.side ∧
      w.htime = max s.htime (s.refToNs z.2) ∧ y.gov.gridK = z.1 ∧ y.gov.refBt = x.side.beam.frameBt ∧ y.gov.offset = 0)

/-- An access enters while its path is up, needs the register ledger right, and is answered as Tables 2-5 and 2-6 give otherwise. A requester the part
does not have reaches nothing; one whose path is down is answered Unsupported Request; an address in no listed block is an Unsupported Request for the
host, DENIED over JTAG, a bus fault with a record for a core; a right missing in LG_REGLED is logged on the target's die and answered by master; a
granted access leaves the state as it was. Harbour cores need no right. A stream table entry is written by harbour cores alone: another requester with
the right is denied under the entry's address (assumption log 132). Only granted accesses reach a register. (01_package.md R46, 02_cellar_ledgers.md
R81, 02_cellar_ledgers.md R84, 02_cellar_ledgers.md R85, 01_package.md R32, 00_scope.md R11) -/
def Obligations.AccessesReachARegisterOnlyByRight : Prop :=
  ∀ (s : State) (r : Requester) (a : Nat) (w : Bool),
    let g := s.gate r a w
    let k := if w then Kind.write else Kind.read
    let m : Master := { cls := reqClass r }
    let led := fun l : Loc => dieAddr l.dieOf (0x60100 + 4 * l.entry)
    let answer := match r with
      | .ep _ => BusResp.unsupported
      | .jtag => .jtagDenied
      | _ => .busFault
    (∀ l, g.1 = some l → g.2 = s ∧ s.hasReq r = true ∧ s.enters r a w = true ∧ locate s.part a = some l ∧
      (w = true → isHost r = true → l.isPin = false → s.flag (led l) 1 = true ∧ l.ignores r = false)) ∧
    (s.hasReq r = false → g = (none, s)) ∧
    (s.hasReq r = true → s.enters r a w = false → g = (none, s.respond .unsupported)) ∧
    (s.hasReq r = true → s.enters r a w = true → locate s.part a = none →
      g = (none, (if isCore r then s.logViol (reqDie r) m k 4 4 a else s).respond answer)) ∧
    (∀ l, s.hasReq r = true → s.enters r a w = true → locate s.part a = some l → l.isPin = false → (w && l.ignores r) = false →
      isCore r = false → s.flag (led l) ((if r = .jtag then 2 else 0) + b2n w) = false →
      g = (none, (s.logViol l.dieOf m k 1 0 a).respond answer)) ∧
    (∀ l n, w = true → s.hasReq r = true → s.enters r a w = true → locate s.part a = some l → isCore r = false → l.isPin = false →
      l.entry ≠ 0 → s.flag (led l) ((if r = .jtag then 2 else 0) + 1) = true → s.entryHit r l = some n →
      g = (none, (s.logViol l.dieOf m .write 2 0 n).respond answer)) ∧
    (∀ l, s.hasReq r = true → s.enters r a w = true → locate s.part a = some l → (w && l.ignores r) = false →
      (w = true → isCore r = true ∨ s.entryHit r l = none) →
      (isCore r = true ∨ s.flag (led l) ((if r = .jtag then 2 else 0) + b2n w) = true) →
      (∀ d c n off, l = .slot d c n off → isHost r = false ∨ s.slot d c n = 1) → g = (some l, s))

/-- A granted aligned word write sets RW fields, clears W1C fields where written 1 and leaves the rest; any other write is discarded. In every
register of the tables a field takes a write by its access code: RW takes the value, W1C clears the bits written 1 that hardware does not set in the
same cycle, RO, WO, W1S, RC, SH and ST fields of the stored register keep theirs here. REGISTER_WRITE by an existing requester, granted, at an HT_,
ST_, dock, slot or quay register that stands for stored value alone leaves the state with that register rewritten and answers done. EN of a harbour
timer stays 1 in the count of its release, and a timer stopped ends its run of follow-on steps. A descriptor of a berth that has started is queued for
the next commit. A narrower or misaligned write that is granted changes no register; a write that is not granted is answered as the gate answers.
(00_scope.md R10, 00_scope.md R11, 00_scope.md R12, 00_scope.md R14, 04_berth_core.md R129, 11_timers_interrupts.md R388, 11_timers_interrupts.md
R398) -/
def Obligations.RegisterWritesFollowAccessCodes : Prop :=
  (∀ w ∈ regRows, ∀ f ∈ w.fields, ∀ (old v n : Nat), f.lo ≤ n → n ≤ f.hi → old < 2 ^ 32 →
    ∀ held, bitOf (w.write old v false held) n = (if f.acc = .rw then bitOf v n else
      if f.acc = .w1c then bitOf old n && (!bitOf v n || bitOf held n) else bitOf old n)) ∧
  (∀ (s : State) (r : Requester) (a size v at_ : Nat),
    let u := s.at at_
    let e := exec (.registerWrite r a size v at_) s
    let g := u.gate r (a / 4 * 4) true
    (g.1 = none → e = .next g.2) ∧
    (∀ l, size ≠ 4 ∨ a % 4 ≠ 0 → g.1 = some l → e = .next (u.respond .done)) ∧
    (∀ l w, size = 4 → a % 4 = 0 → g.1 = some l → l.special = false → l.row = some w →
      let new := w.write (u.reg a) v l.keeps (u.setNow a)
      (∃ t, e = .next t ∧ t.bus = .done ∧ t.mem = u.mem ∧ t.htime = u.htime) ∧
      (∀ d off, l = .die d off → ((off / 0x10000 = 3 ∧ ¬ (0x30100 ≤ off ∧ off < 0x30500)) ∨ off / 0x10000 = 5) →
        e = .next ((u.setReg a new).respond .done)) ∧
      (∀ d off, l = .die d off → 0x30100 ≤ off → off < 0x30500 →
        let ctl := new ||| (u.setNow a &&& 1)
        let v : State := { u.setReg a ctl with follow := if ctl % 2 = 1 then u.follow else u.follow.filter (fun x => x ≠ a) }
        e = .next (v.respond .done)) ∧
      (∀ d k off, l = .dock d k off → e = .next ((u.setReg a new).respond .done)) ∧
      (∀ d k n off x, l = .slot d k n off → u.berthIn d k n = some x → (off < 0x100 ∨ 0x180 ≤ off) →
        e = .next ((u.setBerth (x.setReg off (w.write (x.reg off) v false (u.setNow a)))).respond .done)) ∧
      (∀ d k n off x h, l = .slot d k n off → u.berthIn d k n = some x → 0x100 ≤ off → off < 0x180 → x.segDefs = [] →
        h = (off - 0x100) / 8 → (x.side.descN h).limit < 2 ^ 16 → ∃ y, e = .next ((u.setBerth y).respond .done) ∧
          let nd : Desc := if off % 8 = 0 then
            { x.side.descN h with base := bitsOf v 22 0 * 64 }
            else { base := (x.side.descN h).base / 64 % 2 ^ 23 * 64, limit := bitsOf v 15 0, r := bitOf v 16, w := bitOf v 17,
                   x := bitOf v 18, shared := bitOf v 19 }
          (x.started = true → y = { x with segDefs := [(h, nd)] }) ∧
          (x.started = false → y.side.descN h = nd ∧ ∀ j, j < 16 → j ≠ h → y.side.descN j = x.side.descN j)) ∧
      (∀ q off, l = .quay q off → off ≠ 0x40 → (off < 0x44 ∨ 0x74 ≤ off) →
        ∃ t, e = .next t ∧ t.bus = .done ∧ t.berths = u.berths ∧ t.quays = u.quays ∧
          (tsorted u.regs = true → t.reg a = w.write (u.reg a) v false (u.setNow a) % 2 ^ 32))))

/-- A pair low read latches the high register for that requester; reads of PEAK clear it; reading a time stamp high removes the oldest. A granted read
of bytes inside one register answers those bytes in place, the others 0. PAIR_LOW_READ latches the high register's current value for that requester
alone, which its next read of the high register returns. DP_LOAD_READ and PW_TJ_READ clear PEAK when they address a byte of it that hardware does not
raise in the same cycle, and leave it otherwise. QY_TIMESTAMP_POP answers the latched high word and removes the oldest stamp. Nothing else changes.
(01_package.md R26, 01_package.md R27, 00_scope.md R10, 00_scope.md R11, 00_scope.md R12, 12_quays.md R439, 07_sprites_composition.md R252,
15_power_keeper.md R542) -/
def Obligations.ReadsWithASideEffect : Prop :=
  ∀ (s : State) (r : Requester) (at_ size : Nat), 0 < size →
    let u := s.at at_
    let ok := fun (v : State) (a o : Nat) (l : Loc) => v.hasReq r = true ∧ v.enters r (a + o) false = true ∧ a % 4 = 0 ∧ o + size ≤ 4 ∧
      (v.gate r a false).1 = some l
    let bytes := fun (v o : Nat) => BusResp.data (v / 2 ^ (8 * o) % 2 ^ (8 * size) * 2 ^ (8 * o))
    (∀ a o l h m, ok u a o l → Loc.high l = some h → locate u.part h = some m →
      ∃ t, exec (.pairLowRead r (a + o) size at_) s = .next t ∧ t = { u with latches := t.latches, bus := bytes (u.view r l) o } ∧
        t.readHigh r h = u.view r m ∧ (∀ k, k ≠ latchKey r h → tsorted u.latches = true → tfind t.latches k = tfind u.latches k)) ∧
    (∀ d k off l, k < 16 →
      let a := dockAddr d k R.DP_LOAD
      ok u a (off % 4) l → exec (.dpLoadRead r d k off size at_) s = .next
        ((if 8 * (off % 4) ≤ 26 ∧ 16 < 8 * (off % 4 + size) ∧ bitsOf (u.setNow a) 26 16 = 0 then u.setFld a 26 16 0
          else u).respond (bytes (u.view r l) (off % 4)))) ∧
    (∀ d off l,
      let a := dieAddr d R.PW_TJ
      ok u a (off % 4) l → exec (.pwTjRead r d off size at_) s = .next
        ((if 8 * (off % 4) ≤ 15 ∧ 8 < 8 * (off % 4 + size) ∧ bitsOf (u.setNow a) 15 8 = 0 then u.setFld a 15 8 0 else u).respond (bytes (u.view r l) (off % 4)))) ∧
    (∀ q tx l,
      let a := quayAddr q (if tx then R.QY_TXTSHI else R.QY_RXTSHI)
      size = 4 → ok u a 0 l → ∃ t, exec (.qyTimestampPop r q tx at_) s = .next t ∧
        t = { u with quays := t.quays, bus := bytes (u.readHigh r a) 0 } ∧
        (t.quay q).txts = (if tx then (u.quay q).txts.tail else (u.quay q).txts) ∧
        (t.quay q).rxts = (if tx then (u.quay q).rxts else (u.quay q).rxts.tail) ∧ (t.quay q).sent = (u.quay q).sent)

/-- HT_GO, timer values, HIC_PEND, HIC_EOI, LG_FENCE and QY_INJSEED: what a granted write does, and nothing for one not granted. GO of HT_GO schedules
a release at the given T, or at the next multiple of 1024 counts at or after TW plus 4096, and a given T nearer than 4096 counts sets LATE instead; a
release scheduled stands. LATE and NOREACH clear where written 1 unless set in the same cycle. A timer value is taken in the step of its count.
HIC_PENDg takes the value and the bits that hardware sets in the cycle, unless a requester whose write goes later has written it; a bit that rises
while enabled is a held event, and a set is seen by a mode entry's wake detector. EOI makes a level source whose condition stands pending again. START
of LG_FENCE makes DONE 0, the fence's end makes it 1. The selector takes a seed, 1 for 0. (11_timers_interrupts.md R389, 11_timers_interrupts.md R395,
11_timers_interrupts.md R397, 11_timers_interrupts.md R400, 11_timers_interrupts.md R401, 11_timers_interrupts.md R403, 11_timers_interrupts.md R405,
11_timers_interrupts.md R406, 02_cellar_ledgers.md R80, 12_quays.md R442) -/
def Obligations.HarbourWritesWithARowOfTheirOwn : Prop :=
  ∀ (s : State) (r : Requester) (at_ v : Nat),
    let u := s.at at_
    let does := fun (i : Instr) (a : Nat) (z : State) =>
      (∀ l, (u.gate r a true).1 = some l → exec i s = .next (z.respond .done)) ∧
      ((u.gate r a true).1 = none → exec i s = .next (u.gate r a true).2)
    let c := u.setReg R.HT_GO (u.reg R.HT_GO - (u.reg R.HT_GO &&& (v - (v &&& u.setNow R.HT_GO)) &&& 0x18))
    let T := u.reg R.HT_GOTLO + u.reg R.HT_GOTHI * 2 ^ 32
    does (.htGo r v at_) R.HT_GO
      (if v % 2 = 0 ∨ u.htT ≠ none then c
       else if v / 2 % 2 = 1 then (if T < u.now + 4096 then c.setFlag R.HT_GO 3 true else { c with htT := some T })
       else { c with htT := some ((u.now + 4096) + (1024 - (u.now + 4096) % 1024) % 1024) }) ∧
    (∀ d n fld, n < 64 → fld < 3 →
      let a := dieAddr d (0x30100 + 16 * n)
      let p := s.at (at_ - 1)
      (∀ l, (p.gate r (a + 4 + 4 * fld) true).1 = some l →
        exec (.htValueWrite r d n fld v at_) s = .next ((p.tickWith (some (a, ⟨fld, w32 v⟩))).respond .done)) ∧
      ((p.gate r (a + 4 + 4 * fld) true).1 = none →
        exec (.htValueWrite r d n fld v at_) s = .next (p.gate r (a + 4 + 4 * fld) true).2)) ∧
    (∀ d g hw, g < 32 →
      let a := dieAddr d (0x10000 + 4 * g)
      let sets := ((List.range 32).filter (fun i => bitOf (v ||| hw) i)).map (fun i => i + 32 * g)
      does (.hicPendWrite r d g v hw at_) a (u.hicOrder r a (fun u =>
        let new := (v ||| hw ||| u.setNow a) % 2 ^ 32
        ((u.noteWake d sets).setReg a new).hicSettle d g
          (popcount 32 (new &&& u.reg (dieAddr d (R.HIC_EN + 4 * g)) &&& (2 ^ 32 - 1 - u.reg a)))))) ∧
    (∀ d, v < 1024 → does (.hicEoi r d v at_) (dieAddr d R.HIC_EOI) (if u.hicLevel d v then u.hicSet d v else u)) ∧
    (∀ d, does (.ledgerFence r d v at_) (dieAddr d R.LG_FENCE) (if v % 2 = 1 then u.setFlag (dieAddr d R.LG_FENCE) 1 false else u)) ∧
    (∀ d, s.hasDie d = true → exec (.ledgerFenceDone d at_) s = .next (u.setFlag (dieAddr d R.LG_FENCE) 1 true)) ∧
    (∀ q, v < 2 ^ 32 → does (.qyInjseedWrite r q v at_) (quayAddr q R.QY_INJSEED)
      ((u.setReg (quayAddr q R.QY_INJSEED) v).modQuay q (fun k => { k with lfsr := max 1 v })))

/-- A timer match, a timed release, a moderation release and a fabric link change: what each leaves. HT_MATCH counts harbour time until MATCH of the
named timer rises, or the bound is used up, whichever is first. HT_RELEASE counts to T and no further. A group is released when its limit in number or
time is reached, at once where neither is programmed, and by an idle target core, which releases every group of its own; any other group stays as it
was, and a group released with no source pending and enabled is released no more. A fabric link going down clears LINKUP and sets LINKERR at both
ends, coming up sets LINKUP at both, and DETOUR of every die follows the routes. No berth, register of another kind or byte of memory changes with a
link. (11_timers_interrupts.md R386, 11_timers_interrupts.md R387, 11_timers_interrupts.md R396, 11_timers_interrupts.md R397, 11_timers_interrupts.md
R406, 11_timers_interrupts.md R407, 01_package.md R18, 01_package.md R20) -/
def Obligations.HarbourTimeEvents : Prop :=
  (∀ (s : State) (d n k : Nat), s.hasDie d = true → n < 64 →
    let a := dieAddr d (0x30100 + 16 * n)
    ∃ j t, j ≤ k ∧ exec (.htMatch d n k) s = .next t ∧ t = Nat.repeat State.tick (j) s ∧
      (j < k → 0 < j ∧ (Nat.repeat State.tick (j - 1) s).flag a 2 = false ∧ t.flag a 2 = true) ∧
      (∀ i, i + 1 < j → (Nat.repeat State.tick (i) s).flag a 2 = true ∨ (Nat.repeat State.tick (i + 1) s).flag a 2 = false)) ∧
  (∀ (s : State) (k : Nat),
    (s.htT = none → exec (.htRelease k) s = .next s) ∧
    (∀ T, s.htT = some T → T ≤ s.now + k → exec (.htRelease k) s = .next (s.advance (T - s.now))) ∧
    (∀ T, s.htT = some T → s.now + k < T → exec (.htRelease k) s = .next (s.advance k))) ∧
  (∀ (m : Moder) (pe wr : Bool) (cnt tim unit delta t : Nat),
    let z := moderStep m pe cnt tim unit delta t wr
    let held := min 255 (m.nheld + delta)
    let since := if delta = 0 then m.since else some (m.since.getD t)
    let reached := (cnt ≠ 0 ∧ cnt ≤ held) ∨ (tim ≠ 0 ∧ ∃ b, since = some b ∧ tim * unit ≤ t - b)
    (cnt = 0 → tim = 0 → z.released = true ∧ z.nheld = 0 ∧ z.since = none) ∧
    (cnt ≠ 0 ∨ tim ≠ 0 → (z.released = true ↔ pe = true ∧ (m.released = true ∨ (wr = false ∧ reached)))) ∧
    (cnt ≠ 0 ∨ tim ≠ 0 → m.released = false → ¬ (wr = false ∧ reached) → z = { released := false, nheld := held, since := since })) ∧
  (∀ (s : State) (d g at_ : Nat), s.hasDie d = true → g < 32 →
    let u := s.at at_
    tsorted u.hold = true →
    exec (.hicModerationRelease d g at_ false) s = .next u ∧
    ∃ t : State, exec (.hicModerationRelease d g at_ true) s = .next t ∧ t = { u with hold := t.hold } ∧
      (∀ k, k < 32 → u.hicTarget d k = u.hicTarget d g → (u.moder d k).released = true → t.moder d k = u.moder d k) ∧
      (∀ k, k < 32 → u.hicTarget d k = u.hicTarget d g → (u.moder d k).released = false →
        t.moder d k = (if u.hicWants d k then { u.moder d k with released := true } else { released := false })) ∧
      (∀ e k, e ≠ d ∨ u.hicTarget d k ≠ u.hicTarget d g → k < 32 → t.moder e k = u.moder e k)) ∧
  (∀ (s : State) (d port e at_ : Nat), s.hasDie d = true → s.part.neighbour d port = some e →
    let u := s.at at_
    tsorted u.regs = true →
    let pe := facing port
    let same := fun (t : State) => t.mem = u.mem ∧ t.berths = u.berths ∧ t.htime = u.htime ∧ t.pages = u.pages ∧ t.slots = u.slots ∧
      t.eps = u.eps ∧ t.quays = u.quays
    (∃ t, exec (.fabricLinkUp d port at_) s = .next t ∧ same t ∧ t.linkUp d port = true ∧ t.linkUp e pe = true ∧
      (∀ x p, x < s.part.dies → p < 4 → (x, p) ≠ (d, port) → (x, p) ≠ (e, pe) → t.linkUp x p = u.linkUp x p) ∧
      (∀ x, x < s.part.dies → (t.flag (dieAddr x R.HB_FABSTAT) 8 = true ↔
        ∃ y, y < s.part.dies ∧ t.routeXY x y = false ∧ t.routeYX x y = true))) ∧
    (∃ t, exec (.fabricLinkDown d port at_) s = .next t ∧ same t ∧ t.linkUp d port = false ∧ t.linkUp e pe = false ∧
      t.flag (dieAddr d R.HB_FABSTAT) (4 + port) = true ∧ t.flag (dieAddr e R.HB_FABSTAT) (4 + pe) = true ∧
      (∀ x p, x < s.part.dies → p < 4 → (x, p) ≠ (d, port) → (x, p) ≠ (e, pe) → t.linkUp x p = u.linkUp x p) ∧
      (∀ x, x < s.part.dies → (t.flag (dieAddr x R.HB_FABSTAT) 8 = true ↔
        ∃ y, y < s.part.dies ∧ t.routeXY x y = false ∧ t.routeYX x y = true)) ∧
      (∀ x, x < s.part.dies → u.hicLevel x 424 = false → (x = d ∨ x = e) → t.flag (dieAddr x (R.HIC_PEND + 52)) 8 = true)))

/-- A read of the cellar returns its bytes, a write stores the enabled bytes and no other, and one denied word refuses the whole request. By the host
through an endpoint that is up and inside BAR2, by a harbour core or by JTAG: a read whose every word the ledger grants, in words without an ECC
error, answers the bytes at that package address, lowest first; a word with an uncorrectable error gives what Table 2-6 gives for poisoned data. A
write whose every word is granted sets every enabled byte and no other byte of memory. The first denied word is logged, the request is refused as
Table 2-6 gives and no byte changes. Where no fabric route is left to a die the fault log says so and nothing is read (assumption log 129).
(01_package.md R42, 01_package.md R43, 02_cellar_ledgers.md R84, 02_cellar_ledgers.md R58, 02_cellar_ledgers.md R59, 01_package.md R20) -/
def Obligations.HostCellarAccesses : Prop :=
  ∀ (s : State) (r : Requester) (off at_ : Nat),
    let u := s.at at_
    let m : Master := { cls := reqClass r }
    let touches := fun (n w : Nat) => 2 * w < off + n ∧ off < 2 * w + 2
    let denied := fun (k : Kind) (w : Nat) => u.ledgerCheck 0 (w / 2 ^ 29) (w % 2 ^ 29) m k
    let log := fun (k : Kind) (w t c : Nat) => u.logViol (if u.hasDie (w / 2 ^ 29) then w / 2 ^ 29 else reqDie r) m k t c w
    let up := fun (n : Nat) => u.hasReq r = true ∧ u.cellarUp r = true ∧ off + n ≤ 2 ^ 33
    let carries := fun (w : Nat) => u.hasDie (w / 2 ^ 29) = true → u.reaches (reqDie r) (w / 2 ^ 29) = true
    let refusal := match r with
      | .ep _ => BusResp.unsupported
      | .jtag => .jtagDenied
      | _ => .busFault
    (∀ e, u.cellarUp (.ep e) = true ↔ (u.ep e).link = true ∧ (u.ep e).d3hot = false ∧ u.serving = true) ∧
    (∀ n bytes, u.hasReq r = false → exec (.hostCellarRead r off n at_) s = .next u ∧ exec (.hostCellarWrite r off bytes at_) s = .next u) ∧
    (∀ n, u.hasReq r = true → ¬ (u.cellarUp r = true ∧ off + n ≤ 2 ^ 33) → exec (.hostCellarRead r off n at_) s = .next (u.respond refusal)) ∧
    (∀ n w, up n → 0 < n → touches n w → ¬ carries w → (∀ x, x < w → touches n x → carries x) →
      exec (.hostCellarRead r off n at_) s = .next ((u.fabricLost (reqDie r) (w / 2 ^ 29)).respond refusal)) ∧
    (∀ n w t c, up n → 0 < n → (∀ x, touches n x → carries x) → touches n w → denied .read w = some (t, c) →
      (∀ x, x < w → touches n x → denied .read x = none) →
      exec (.hostCellarRead r off n at_) s = .next ((log .read w t c).respond refusal)) ∧
    (∀ n, up n → 0 < n → (∀ w, touches n w → carries w ∧ denied .read w = none) →
      ((∀ w, touches n w → tfind u.ecc (w / 4) = none) → exec (.hostCellarRead r off n at_) s =
        .next (u.respond (.data (ofLe ((List.range n).map (fun i => Memory.byte u.mem (off + i))))))) ∧
      (∀ w, touches n w → tfind u.ecc (w / 4) = some .double ∨ tfind u.ecc (w / 4) = some .poison →
        ∃ t, exec (.hostCellarRead r off n at_) s = .next t ∧ (match r with
          | .ep _ => t.bus = .poisoned
          | .jtag => ∃ v, t.bus = .jtagPoison v
          | _ => t.bus = .busFault))) ∧
    (∀ bytes : List (Option Byte),
      let n := bytes.length
      (u.hasReq r = true → ¬ (u.cellarUp r = true ∧ off + n ≤ 2 ^ 33) →
        exec (.hostCellarWrite r off bytes at_) s = .next (u.respond refusal)) ∧
      (∀ w, up n → 0 < n → touches n w → ¬ carries w → (∀ x, x < w → touches n x → carries x) →
        exec (.hostCellarWrite r off bytes at_) s = .next ((u.fabricLost (reqDie r) (w / 2 ^ 29)).respond refusal)) ∧
      (∀ w t c, up n → 0 < n → (∀ x, touches n x → carries x) → touches n w → denied .write w = some (t, c) →
        (∀ x, x < w → touches n x → denied .write x = none) →
        exec (.hostCellarWrite r off bytes at_) s = .next ((log .write w t c).respond refusal)) ∧
      (up n → (∀ w, touches n w → carries w ∧ denied .write w = none ∧ tfind u.ecc (w / 4) = none) → Memory.wf u.mem = true →
        ∃ t, exec (.hostCellarWrite r off bytes at_) s = .next t ∧ t = { u with mem := t.mem, bus := .done } ∧
          ∀ a, Memory.byte t.mem a = (if off ≤ a then (match bytes.getD (a - off) none with
            | some v => v
            | none => Memory.byte u.mem a) else Memory.byte u.mem a)))

/-- The patrol reads the next line, corrects and counts single-bit errors; a queued row repair starts, and its end uses a spare row. With the patrol
enabled, the bank on and no repair in it, one patrol read takes the bank's next line, modulo the bank: a single-bit error in one of its eight ECC
words is gone, uncorrectable ones stay, both counters rise by what was found, and the cells are unchanged. Else nothing happens. A queued repair of a
bank without one in progress starts while a spare row is left, and else leaves the queue. Its end clears the row's single-bit errors and poisons its
uncorrectable words, counts USED, sets EXHAUSTED when USED reaches 32 and clears PENDING unless another row of the bank waits. (02_cellar_ledgers.md
R57, 02_cellar_ledgers.md R58, 02_cellar_ledgers.md R61, 02_cellar_ledgers.md R64, 02_cellar_ledgers.md R65, 02_cellar_ledgers.md R66) -/
def Obligations.PatrolAndRowRepair : Prop :=
  ∀ (s : State) (d b at_ : Nat), s.hasDie d = true → b < 64 →
    let u := s.at at_
    let line := tget u.patrol (d * 64 + b) 0
    let key := fun (i : Nat) => pkgWord d (lineAddr b line (4 * i)) / 4
    let on := u.flag (dieAddr d R.ST_ECCCFG) 8 = true ∧ u.bankOn d (lineAddr b 0 0) = true ∧ (∀ e ∈ u.repairing, e.1 = d → e.2.1 ≠ b)
    let count := fun (p : EccErr → Bool) => (List.range 8).countP (fun i => (tfind u.ecc (key i)).any p)
    let cnt := dieAddr d R.ST_ECCCNT
    let used := dieAddr d (R.ST_REPAIR + 4 * b)
    (∀ up, ¬ on → ((up = none → exec (.patrolScrubRead d b up at_) s = .next u) ∧
      (∀ wa kind bit, up = some (wa, kind, bit) → exec (.patrolScrubRead d b up at_) s = .next (u.upset d wa kind bit)))) ∧
    (on → tsorted u.regs = true → tsorted u.ecc = true → tsorted u.patrol = true → line < 262144 → (∀ i, i < 8 → tfind u.ecc (key i) ≠ some .multi) →
      ∃ t, exec (.patrolScrubRead d b none at_) s = .next t ∧ tget t.patrol (d * 64 + b) 0 = (line + 1) % 262144 ∧
        t.mem = u.mem ∧ t.berths = u.berths ∧
        (∀ i, i < 8 → tfind t.ecc (key i) = (match tfind u.ecc (key i) with
          | some (.single _) => none
          | x => x)) ∧
        t.fld cnt 15 0 = (u.fld cnt 15 0 + count (fun z => z ≠ .double ∧ z ≠ .poison)) % 2 ^ 16 ∧
        t.fld cnt 31 16 = (u.fld cnt 31 16 + count (fun z => z = .double ∨ z = .poison)) % 2 ^ 16) ∧
    (∀ row, u.repairQ.find? (fun e => decide (e.1 = d ∧ e.2.1 = b)) = some (d, b, row) → (∀ e ∈ u.repairing, e.1 = d → e.2.1 ≠ b) →
      u.fld used 5 0 < 32 → exec (.rowRepairStart d b at_) s =
        .next { u with repairQ := u.repairQ.erase (d, b, row), repairing := u.repairing ++ [(d, b, row)] }) ∧
    (∀ row, u.repairQ.find? (fun e => decide (e.1 = d ∧ e.2.1 = b)) = some (d, b, row) → (∀ e ∈ u.repairing, e.1 = d → e.2.1 ≠ b) →
      32 ≤ u.fld used 5 0 → tsorted u.regs = true → ∃ t, exec (.rowRepairStart d b at_) s = .next t ∧ t.repairing = u.repairing ∧
        t.repairQ = u.repairQ.erase (d, b, row) ∧ (t.flag used 16 = true ↔ ∃ e ∈ t.repairQ, e.1 = d ∧ e.2.1 = b)) ∧
    (∀ row,
      let inRow := fun (k : Nat) => k * 4 / 2 ^ 29 = d ∧ bankOf (k * 4 % 2 ^ 29) = b ∧ rowOf (k * 4 % 2 ^ 29) = row
      u.repairing.find? (fun e => decide (e.1 = d ∧ e.2.1 = b)) = some (d, b, row) → tsorted u.regs = true → tsorted u.ecc = true →
      (∀ k, inRow k → tfind u.ecc k ≠ some .multi) →
      ∃ t, exec (.rowRepairDone d b at_) s = .next t ∧ t.mem = u.mem ∧ t.repairing = u.repairing.erase (d, b, row) ∧
        t.newRepairs = u.newRepairs ++ [(d, b, row, u.freeSpare d b, 3)] ∧ t.fld used 5 0 = (u.fld used 5 0 + 1) % 64 ∧
        (t.flag used 17 = true ↔ u.flag used 17 = true ∨ 32 ≤ (u.fld used 5 0 + 1) % 64) ∧
        (t.flag used 16 = true ↔ ∃ e ∈ u.repairQ ++ t.repairing, e.1 = d ∧ e.2.1 = b) ∧
        (∀ k, inRow k → tfind t.ecc k = (match tfind u.ecc k with
          | none => none
          | some (.single _) => none
          | some _ => some .poison)) ∧
        (∀ k, ¬ inRow k → tfind t.ecc k = tfind u.ecc k))

/-- EN checks and starts the rings or sets CFGERR; doorbells inside the ring take effect, outside set DBERR; a freed event ring drains held events. A
granted write of HB_HOSTCTL with EN 1 on disabled rings that all pass the checks starts every index at 0 and the phases again and sets EN; a failed
check sets CFGERR and leaves EN 0; on enabled rings it only clears errors. With EN 0 it stops fetching and leaves rings and commands in flight. A
doorbell write raises HIC source 496 of die 0; an index below the ring's size becomes the ring's tail or head, the entries a tail releases joining the
submission order; another index sets DBERR and leaves the rings. An event head that is inside frees entries and held events follow in order while
there is room. The block of an endpoint that the part lacks takes no write. (13_harbour_interface.md R449, 13_harbour_interface.md R450,
13_harbour_interface.md R451, 13_harbour_interface.md R454, 13_harbour_interface.md R455, 13_harbour_interface.md R461, 11_timers_interrupts.md R400)
-/
def Obligations.RingsAndDoorbells : Prop :=
  ∀ (s : State) (r : Requester) (e v at_ : Nat), s.eps.length = 2 →
    let u := s.at at_
    let does := fun (i : Instr) (a : Nat) (Q : State → Prop) =>
      (∀ l, e < s.part.endpoints → (u.gate r a true).1 = some l → ∃ t, exec i s = .next (t.respond .done) ∧ Q t) ∧
      (∀ l, s.part.endpoints ≤ e → (u.gate r a true).1 = some l → exec i s = .next (u.respond .done)) ∧
      ((u.gate r a true).1 = none → exec i s = .next (u.gate r a true).2)
    let b := ringBase e
    let bit := fun (t : State) (n : Nat) => t.flag b n
    let pow := fun (n lo hi : Nat) => lo ≤ n ∧ n ≤ hi ∧ ∃ k, n = 2 ^ k
    let good := (∀ n, n < 8 →
        let q := b + 0x100 + 0x20 * n
        u.fld (q + 8) 12 0 = 0 ∨ (pow (u.fld (q + 8) 12 0) 2 4096 ∧ pow (u.fld (q + 0x18) 12 0) 16 4096 ∧ u.reg q % 64 = 0 ∧
          u.reg (q + 0x10) % 16 = 0 ∧ u.fld (q + 8) 12 0 ≤ u.fld (q + 0x18) 12 0)) ∧
      (u.fld (b + 0x18) 12 0 = 0 ∨ (pow (u.fld (b + 0x18) 12 0) 16 4096 ∧ u.reg (b + 0x10) % 64 = 0))
    let rung := u.hicSet 0 496
    let others := fun (t : State) => t.mem = u.mem ∧ t.berths = u.berths ∧ t.flying = u.flying ∧ (∀ f, f ≠ e → t.ep f = u.ep f)
    tsorted u.regs = true → u.eps = s.eps →
    does (.hostRingEnable r e v at_) b (fun t => others t ∧ (v % 2 = 0 → t = u) ∧ (v % 2 = 1 →
      (bit u 0 = true → t = u.clearHostErr e v) ∧
      (bit u 0 = false → (good ↔ bit t 0 = true)) ∧
      (bit u 0 = false → ¬ good → bit t 2 = true ∧ t.eps = u.eps) ∧
      (bit u 0 = false → good → t.ep e =
        { u.ep e with rings := (u.ep e).rings.map (fun q => { waiting := q.waiting }), evIdx := 0, evHead := 0, evPhase := true, subs := [] }))) ∧
    does (.hostRingDisable r e v at_) b (fun t => others t ∧ t.eps = u.eps ∧ (v % 2 = 1 → t = u) ∧ (v % 2 = 0 → bit t 0 = false)) ∧
    (∀ n, n < 8 →
      let i := v % 4096
      let q := b + 0x100 + 0x20 * n
      let ring := (u.ep e).rings.getD n {}
      does (.sqTailDoorbell r e n v at_) (q + 0xC) (fun t => others t ∧
        (i < u.fld (q + 8) 12 0 → t.flag (R.HIC_PEND + 60) 16 = true ∧ bit t 3 = bit u 3 ∧
          t.ep e = { u.ep e with
            rings := (u.ep e).rings.set n { ring with tail := i }
            subs := resubmit (u.ep e).subs u.htime n ((i + u.fld (q + 8) 12 0 - ring.head) % u.fld (q + 8) 12 0) }) ∧
        (u.fld (q + 8) 12 0 ≤ i → t = rung.setFlag b 3 true)) ∧
      does (.cqHeadDoorbell r e n v at_) (q + 0x1C) (fun t => others t ∧
        (i < u.fld (q + 0x18) 12 0 → t.flag (R.HIC_PEND + 60) 16 = true ∧
          (ring.waiting = [] → bit t 3 = bit u 3 ∧ t.ep e = { u.ep e with rings := (u.ep e).rings.set n { ring with cqHead := i } })) ∧
        (u.fld (q + 0x18) 12 0 ≤ i → ring.waiting = [] → t = rung.setFlag b 3 true))) ∧
    does (.evHeadDoorbell r e v at_) (b + 0x1C) (fun t =>
      let i := v % 4096
      let size := u.fld (b + 0x18) 12 0
      others t ∧
      (size ≤ i → ∃ w, w = rung.setFlag b 3 true ∧ t = w.drainHeld e 64) ∧
      (i < size → (t.ep e).evHead = i ∧ ∃ n, (t.ep e).held = (u.ep e).held.drop n ∧
        (t.ep e).events.map (fun z => (z.code, z.detail)) =
          (u.ep e).events.map (fun z => (z.code, z.detail)) ++ ((u.ep e).held.take n).map (fun z => (z.code, z.detail)) ∧
        ((t.ep e).held = [] ∨ t.evRoom e = false ∨ n = 64)))

/-- FLR, D3hot, PERST_N and link changes of an endpoint: its rings and MSI-X at reset, its link, HIC source 499, and no other endpoint. A Function
Level Reset returns the endpoint's rings and MSI-X table to reset, discards its commands that have not started and what the others would answer, keeps
its link, and READY follows the firmware; commands that waited for a discarded one then start. D3hot entry only marks it; leaving D3hot resets it.
PERST_N low for less than 1 us does nothing; for longer it resets the endpoint with its configuration space and holds the link down while PORST_N is
high; its rise begins training. A link change while PERST_N is high and supplies are on sets the link and raises source 499 of the endpoint's die. The
cellar, the berths and other endpoints stay. (13_harbour_interface.md R446, 13_harbour_interface.md R447, 13_harbour_interface.md R448) -/
def Obligations.EndpointResetsAndLinks : Prop :=
  ∀ (s : State) (e at_ : Nat), e < s.part.endpoints → s.eps.length = 2 →
    let u := s.at at_
    let x := u.ep e
    let fresh : Endpoint := { link := x.link, perst := x.perst, d3hot := x.d3hot, training := x.training, cfg := x.cfg }
    let others := fun (t : State) => t.mem = u.mem ∧ t.berths = u.berths ∧ t.htime = u.htime ∧ t.pages = u.pages ∧
      (∀ f, f ≠ e → t.ep f = u.ep f)
    let commands := fun (t : State) =>
      (∀ f ∈ t.flying, ∃ g ∈ u.flying, f.op = g.op ∧ f.why = g.why ∧ f.cmd = { g.cmd with ep := f.cmd.ep } ∧ (f.cmd.ep = g.cmd.ep ∨ g.cmd.ep = e)) ∧
      t.flying.length = (u.flying.filter (fun g => decide (g.cmd.ep ≠ e ∨ g.why ≠ .start))).length
    let cleared := fun (t : State) => (e ≠ 3 → ∀ f ∈ t.flying, f.cmd.ep ≠ e) ∧
      (∀ a, epReg e a = true → a ≠ ringBase e → t.reg a = regDefault u.part a % 2 ^ 32) ∧ t.flag (ringBase e) 0 = false ∧
      t.flag (ringBase e) 1 = u.serving
    tsorted u.regs = true → u.eps = s.eps → u.part = s.part →
    (∃ t, exec (.pcieFlr e at_) s = .next t.startWaiting ∧ others t ∧ commands t ∧ cleared t ∧ t.ep e = fresh) ∧
    (exec (.pcieD3hotEntry e at_) s = .next { u with eps := u.eps.set e { x with d3hot := true } }) ∧
    (x.d3hot = false → exec (.pcieD3hotExit e at_) s = .next u) ∧
    (x.d3hot = true → ∃ t, exec (.pcieD3hotExit e at_) s = .next t.startWaiting ∧ others t ∧ commands t ∧ cleared t ∧
      t.ep e = { fresh with d3hot := false }) ∧
    (∀ dur, dur < 1000 → exec (.perstAssert e dur at_) s = .next u.startWaiting) ∧
    (∀ dur, 1000 ≤ dur → u.keeper.phase ≠ .on → ∃ t, exec (.perstAssert e dur at_) s = .next t.startWaiting ∧
      t = { u with eps := u.eps.set e { x with perst := true } }) ∧
    (∀ dur, 1000 ≤ dur → u.keeper.phase = .on → ∃ t, exec (.perstAssert e dur at_) s = .next t.startWaiting ∧ others t ∧ commands t ∧ cleared t ∧
      t.ep e = { perst := true } ∧ (x.link = true → t.flag (dieAddr (4 * e) (R.HIC_PEND + 60)) 19 = true)) ∧
    (exec (.perstDeassert e at_) s = .next (u.modEp e (fun x =>
      if x.perst then { x with perst := false, training := decide (s.keeper.phase = .on) } else x))) ∧
    (∀ up, x.perst = true ∨ u.keeper.phase ≠ .on → exec (.pcieLinkChange e up at_) s = .next u) ∧
    (∀ up, x.perst = false → u.keeper.phase = .on → ∃ t, exec (.pcieLinkChange e up at_) s = .next t ∧ others t ∧ t.flying = u.flying ∧
      t.ep e = { x with link := up, training := !up } ∧ (x.link ≠ up → t.flag (dieAddr (4 * e) (R.HIC_PEND + 60)) 19 = true)) ∧
    (∀ t : State, (∀ f ∈ t.flying, f.why ≠ .start) → t.startWaiting = t)

/-- Risen underrun counts and new ledger denials are posted as one event no more often than their intervals allow. EV_UNDERRUN of a berth is due when
its underrun or late line count has risen since the last and 100 ms have passed; it then carries the rises and the berth notes them. EV_LEDGER_DENIAL
of a die is due when LG_VLCOUNT has changed since the last and 1 ms has passed; it then carries the number of records since, and the count. An event
that is due enters every enabled event ring with room, stamped with its own time; else nothing changes but time. (13_harbour_interface.md R461,
13_harbour_interface.md R481) -/
def Obligations.CountsArePostedAsEvents : Prop :=
  (∀ (s : State) (b at_ : Nat) (x : Berth),
    let u := s.at at_
    u.berth b = some x → x.id = b →
    let du := x.uLines - x.sumU
    let dl := x.lateLines - x.sumL
    let due := du + dl ≠ 0 ∧ (x.sumAt = 0 ∨ x.sumAt + 100000000 ≤ u.htime)
    (¬ due → exec (.underrunSummaryPost b at_) s = .next u) ∧
    (due → ∃ t y, exec (.underrunSummaryPost b at_) s = .next t ∧ t.berth b = some y ∧ y = { x with sumU := x.uLines, sumL := x.lateLines, sumAt := u.htime } ∧
      ∀ e, e < 2 → u.epOn e = true → u.evRoom e = true → (u.ep e).held = [] → u.eps.length = 2 → ∃ v,
        (t.ep e).events = (u.ep e).events ++ [v] ∧ v.code = 3 ∧ v.berth = some b ∧ v.die = x.die ∧ v.htime = x.lossAt % 2 ^ 64 ∧
        v.detail = detail [(du, 4), (dl, 4), (bitsOf (x.reg R.DP_UNDERRUN) 27 16, 2)] ∧ v.eseq = (u.ep e).eseq % 65536)) ∧
  (∀ (s : State) (d at_ : Nat), s.hasDie d = true →
    let u := s.at at_
    let n := u.reg (dieAddr d R.LG_VLCOUNT)
    let last := (tfind u.denied d).getD (0, 0)
    let due := n ≠ last.1 ∧ (tfind u.denied d = none ∨ last.2 + 1000000 ≤ u.htime)
    (¬ due → exec (.ledgerDenialEvent d at_) s = .next u) ∧
    (due → ∃ t, exec (.ledgerDenialEvent d at_) s = .next t ∧ tfind t.denied d = some (n, u.htime) ∧
      ∀ e, e < 2 → u.epOn e = true → u.evRoom e = true → (u.ep e).held = [] → u.eps.length = 2 → ∃ v,
        (t.ep e).events = (u.ep e).events ++ [v] ∧ v.code = 7 ∧ v.berth = none ∧ v.die = d ∧
        v.detail.take 8 = (detail [((n + 2 ^ 32 - last.1) % 2 ^ 32, 4), (n, 4)]).take 8))

/-- Each host command is fetched only when it may start, refused INVALID, HOSTMEM or INTERNAL as its fields and host memory give, and completed once.
For every host command: an entry that the harbour may not fetch changes nothing but time. One fetched advances the head of its ring and leaves the
submission order; an OPCODE that Table 13-7 does not have answers BADOPCODE; one that may not start yet waits, and a PROFILE_SELECT with RESTART is
left in its ring (assumption log 136); a reserved field answers INVALID, failing host memory HOSTMEM for the commands that use it, a halted deputy
INTERNAL with fault code 13. An answer to a ring with room is one completion entry, also written as 16 bytes to host memory, with its CID, STATUS,
ring, head and phase, RESULT 0 unless OK, the data block written before it; the phase changes where the ring wraps; without room the completion waits.
An MCTP requester is answered in one message, a requester reset since not at all. (13_harbour_interface.md R446, 13_harbour_interface.md R448,
13_harbour_interface.md R452, 13_harbour_interface.md R453, 13_harbour_interface.md R454, 13_harbour_interface.md R455, 13_harbour_interface.md R456,
13_harbour_interface.md R483, 14_watches_faults_selftest.md R515) -/
def Obligations.HostCommandsAreFetchedAndAnswered : Prop :=
  (∀ (s : State) (c : Cmd) (at_ : Nat) (w : BootIn),
    let cmds := [(0x01, Instr.echo c at_), (0x02, .profileQuery c at_), (0x03, .profileSelect c w at_), (0x04, .clockConfig c at_),
      (0x05, .faultLogRead c at_), (0x06, .measureRead c at_), (0x07, .mcReload c at_), (0x10, .berthCreate c at_), (0x11, .berthDestroy c at_),
      (0x12, .segDefine c at_), (0x13, .cellarWrite c at_), (0x14, .cellarRead c at_), (0x15, .pageShare c at_), (0x18, .berthStart c at_),
      (0x19, .berthPause c at_), (0x1A, .berthResume c at_), (0x1B, .berthMigrate c at_), (0x1C, .berthStatus c at_), (0x20, .streamBind c at_),
      (0x21, .streamUnbind c at_), (0x22, .inputBind c at_), (0x28, .quayConfig c at_), (0x29, .quayInject c at_), (0x2A, .macsecKey c at_),
      (0x30, .powerSet c at_), (0x31, .thermalPolicy c at_), (0x38, .selftestPolicy c at_), (0x39, .selftestReport c at_)]
    ∀ p ∈ cmds,
    let u := s.at at_
    let v := u.fetched c
    let restarts := p.1 = 0x03 ∧ c.b 25 % 2 = 1
    (u.mayFetch c = false → exec p.2 s = .next u) ∧
    (u.mayFetch c = true → (∀ q ∈ cmds, c.opcode ≠ q.1) → exec p.2 s = .next (v.answer c 1 0 [])) ∧
    (u.mayFetch c = true → (∃ q ∈ cmds, c.opcode = q.1) → c.opcode ≠ p.1 → exec p.2 s = .next u) ∧
    (u.mayFetch c = true → c.opcode = p.1 → u.mayStart p.1 c = false → restarts → exec p.2 s = .next u) ∧
    (u.mayFetch c = true → c.opcode = p.1 → u.mayStart p.1 c = false → ¬ restarts → StaysInFlight p.2 s p.1 c .start v.htime v) ∧
    (u.canFetch p.1 c = true → reservedSet p.1 c = true → exec p.2 s = .next (v.answer c 2 0 [])) ∧
    (u.canFetch p.1 c = true → reservedSet p.1 c = false → scopeD p.1 = true → c.memOk = false → exec p.2 s = .next (v.answer c 11 0 [])) ∧
    (u.canFetch p.1 c = true → reservedSet p.1 c = false → (scopeD p.1 = false ∨ c.memOk = true) → v.noDeputy p.1 c = true → ¬ restarts →
      exec p.2 s = .next ((v.logFault 13 ((v.cmdDies p.1 c).getD 0 0) (if scopeB p.1 c then some c.berth else none) 0 0 [p.1]).answer c 14 0 []))) ∧
  (∀ (u : State) (c : Cmd), c.ep < 2 → c.ring < 8 → u.eps.length = 2 → (u.ep c.ep).rings.length = 8 →
    let q := ringBase c.ep + 0x100 + 0x20 * c.ring
    let ring := fun (t : State) => (t.ep c.ep).rings.getD c.ring {}
    let v := u.fetched c
    v = { u with eps := v.eps } ∧ ring v = { ring u with head := ((ring u).head + 1) % u.fld (q + 8) 12 0 } ∧
    (v.ep c.ep).subs = (u.ep c.ep).subs.drop 1 ∧
    (∀ status result data,
      let t := u.answer c status result data
      let size := u.fld (q + 0x18) 12 0
      let next := ((ring u).cqTail + 1) % size
      let room := size ≠ 0 ∧ next ≠ (ring u).cqHead % size ∧ (ring u).waiting = []
      let sent := if data = [] then [] else [(c.dptr, data)]
      let entry : Completion := ⟨c.cid, status, c.ring, (ring u).head, (ring u).phase, if status = 0 then result else 0⟩
      t.mem = u.mem ∧ t.berths = u.berths ∧ t.flying = u.flying ∧ t.htime = u.htime ∧
      (room → (t.ep c.ep).writes = (u.ep c.ep).writes ++ sent ++ [(u.hostBase (q + 0x10) + 16 * (ring u).cqTail, entry.bytes)] ∧
        entry.bytes.length = 16 ∧ ofLe (entry.bytes.take 2) = c.cid % 65536 ∧
        ring t = { ring u with posted := (ring u).posted ++ [entry], cqTail := next, phase := if next = 0 then !(ring u).phase else (ring u).phase }) ∧
      (¬ room → (t.ep c.ep).writes = (u.ep c.ep).writes ++ sent ∧
        ring t = { ring u with waiting := (ring u).waiting ++ [(c.cid, status, result)] }))) ∧
  (∀ (u : State) (c : Cmd) (status result : Nat) (data : List Byte),
    (c.ep = 2 → ∃ m, u.answer c status result data = { u with mctp := u.mctp ++ [(c.ring, m ++ data)] } ∧ m.length = 16 ∧
      ofLe (m.take 2) = c.cid % 65536 ∧ ofLe ((m.drop 2).take 1) = status % 256 ∧
      ofLe (m.drop 8) = (if status = 0 then result % 2 ^ 64 else 0)) ∧
    (2 < c.ep → u.answer c status result data = u))

/-- ECHO, PROFILE_QUERY, PROFILE_SELECT, CLOCK_CONFIG, FAULT_LOG_READ, BERTH_STATUS, MEASURE_READ and SELFTEST_REPORT: their results and data. ECHO
returns its eight bytes. PROFILE_QUERY writes the 128-byte descriptor with PRESENT, ACTIVE and PENDING. PROFILE_SELECT records a pending profile that
the table holds, and with RESTART a warm restart follows its completion. CLOCK_CONFIG returns harbour time, after setting it forward where asked; a
time not after it is left as a correction to apply; either way the berths' references move by the difference. FAULT_LOG_READ and SELFTEST_REPORT write
the records from FROMSEQ, oldest first, as many as fit, and return their number and the oldest SEQ. BERTH_STATUS writes the 64-byte status block,
MEASURE_READ the selected slots. Only PROFILE_SELECT and CLOCK_CONFIG change state outside the ring. (13_harbour_interface.md R463,
13_harbour_interface.md R476, 13_harbour_interface.md R479, 13_harbour_interface.md R480, 13_harbour_interface.md R485, 13_harbour_interface.md R486,
13_harbour_interface.md R488, 16_boot_measurement.md R573) -/
def Obligations.InformationCommandsAnswer : Prop :=
  ∀ (s : State) (c : Cmd) (at_ : Nat),
    let u := s.at at_
    let v := u.fetched c
    let n := c.b 24
    (u.takes 0x01 c = true → v.noDeputy 0x01 c = false →
      exec (.echo c at_) s = .next (v.answer c 0 (c.p 24 8) [])) ∧
    (u.takes 0x02 c = true → v.noDeputy 0x02 c = false → n ≤ 3 → 128 ≤ c.dlen → ∃ data : List Byte,
      exec (.profileQuery c at_) s =
        .next (v.answer c 0 (b2n (v.hasProfile n) + 2 * b2n (v.prof.index = n) + 4 * b2n (v.keeper.pending = some n)) data) ∧
      data.length = 128 ∧ ∀ i, i < 128 → data.getD i 0 = (v.profTable.getD n []).getD i 0) ∧
    (∀ w, u.takes 0x03 c = true → v.noDeputy 0x03 c = false → n ≤ 3 → v.hasProfile n = true → tsorted v.regs = true → ∃ t : State,
      t.keeper = { v.keeper with pending := some n } ∧ t.fld R.HB_PRFSEL 3 2 = n ∧ t.flag R.HB_PRFSEL 4 = true ∧ t.mem = v.mem ∧
      t.berths = v.berths ∧ t.prof = v.prof ∧
      let z := t.answer c 0 (v.fld R.HB_PRFSEL 3 2) []
      (c.b 25 % 2 = 0 → exec (.profileSelect c w at_) s = .next z) ∧
      (c.b 25 % 2 = 1 → u.hasProfile n = true → u.noDeputy 0x03 c = false → exec (.profileSelect c w at_) s = .next (z.warmRestart w))) ∧
    (u.takes 0x04 c = true → v.noDeputy 0x04 c = false → n = 0 → exec (.clockConfig c at_) s = .next (v.answer c 0 (v.htime % 2 ^ 64) [])) ∧
    (u.takes 0x04 c = true → v.noDeputy 0x04 c = false → n = 1 → v.htime < c.p 28 8 → v.switches = [] → ∃ t : State, t.htime = c.p 28 8 ∧ t.mem = v.mem ∧
      t.berths = v.berths.map (fun e => (e.1, e.2.shiftRef ((c.p 28 8 * 1000 : Nat) - (v.htime * 1000 : Nat) - v.corr / 5))) ∧
      exec (.clockConfig c at_) s = .next (t.answer c 0 (c.p 28 8 % 2 ^ 64) [])) ∧
    (u.takes 0x04 c = true → v.noDeputy 0x04 c = false → n = 1 → c.p 28 8 ≤ v.htime → ∃ t : State, t.htime = v.htime ∧ t.mem = v.mem ∧
      t.corr = ((c.p 28 8 : Int) - v.htime) * 5000 ∧
      t.berths = v.berths.map (fun e => (e.1, e.2.shiftRef (((c.p 28 8 : Int) - v.htime) * 1000 - v.corr / 5))) ∧
      exec (.clockConfig c at_) s = .next (t.answer c 0 (v.htime % 2 ^ 64) [])) ∧
    (u.takes 0x05 c = true → v.noDeputy 0x05 c = false →
      let l := (v.faultLog.filter (fun r => c.p 24 4 ≤ r.seq)).take (c.dlen / 32)
      ∃ data : List Byte, exec (.faultLogRead c at_) s =
          .next (v.answer c 0 (l.length + ((v.faultLog.map (·.seq)).headD v.faultSeq) * 2 ^ 32) data) ∧
        data.length = 32 * l.length ∧
        (∀ i, i < l.length → ofLe ((data.drop (32 * i)).take 4) = (l.getD i ⟨0, 0, 0, none, 0, 0, 0, []⟩).seq % 2 ^ 32)) ∧
    (∀ x, u.takes 0x1C c = true → v.noDeputy 0x1C c = false → 64 ≤ c.dlen → c.berth < v.part.berthIds → v.berth c.berth = some x →
      ∃ data : List Byte, exec (.berthStatus c at_) s = .next (v.answer c 0 0 data) ∧ data.length = 64 ∧
        ofLe (data.take 1) = x.stateNo ∧ ofLe ((data.drop 4).take 2) = x.locGen % 65536 ∧ ofLe ((data.drop 8).take 8) = x.side.bt % 2 ^ 64) ∧
    (u.takes 0x06 c = true → v.noDeputy 0x06 c = false → v.hasDie n = true →
      let l := (List.range 16).filter (fun k => bitOf (c.p 26 2) k)
      48 * l.length ≤ c.dlen → exec (.measureRead c at_) s = .next (v.answer c 0 l.length (l.flatMap (fun k => v.measurement n k)))) ∧
    (u.takes 0x39 c = true → v.noDeputy 0x39 c = false → v.hasDie n = true →
      let l := (v.testLog.filter (fun r => decide (r.die = n ∧ c.p 28 4 ≤ r.seq ∧ (c.b 25 % 2 = 1 → r.result = 1 ∨ r.result = 3)))).take (c.dlen / 32)
      ∃ first, exec (.selftestReport c at_) s = .next (v.answer c 0 (l.length + first * 2 ^ 32) (l.flatMap TestRec.bytes)) ∧
        first = (((v.testLog.filter (fun r => r.die = n)).map (·.seq)).headD (v.reg (dieAddr n R.ST_SEQ))))

/-- BERTH_CREATE, DESTROY, START, PAUSE, RESUME and MIGRATE: what becomes of the berth, its slot and its pages. CREATE with fields, room and pages as
Table 13-4 asks places a STOPPED berth in the lowest SPARE slot of its dock, gives it zeroed OWNED and FRAME pages by first fit and a HARBOUR page,
and returns the slot and both page numbers. DESTROY removes the berth, frees its pages and makes its slot TEST. START gives a STOPPED berth a fresh
core, berth time 0, the profile's geometry and its own descriptors; an HTIME berth waits for its grid point. PAUSE closes the watch and completes once
frozen. RESUME ends the pause without lag: the next microcycle is due now. MIGRATE places a parked berth at once, and asks any other berth's move.
Commands that wait stay in flight. (04_berth_core.md R158, 13_harbour_interface.md R464, 13_harbour_interface.md R465, 13_harbour_interface.md R469,
13_harbour_interface.md R470, 13_harbour_interface.md R460, 02_cellar_ledgers.md R74, 03_beam_time.md R100) -/
def Obligations.BerthCommandsTakeEffect : Prop :=
  (∀ (s : State) (c : Cmd) (at_ a b h n k : Nat),
    let u := s.at at_
    let v := u.fetched c
    let d := c.b 24 % 8
    let own := c.p 28 2
    let fb := (if bitOf (c.b 27) 2 then 2 else 1) * (fbSize v.prof.cls (bitOf (c.b 27) 0)).1
    let mine := fun (l : Nat) (z : Nat) => (List.range z).map (· + l)
    u.takes 0x10 c = true → v.noDeputy 0x10 c = false → c.berth < v.part.berthIds → v.hasDie d = true → v.berth c.berth = none →
    (c.b 26 = 0 ∨ 8 ≤ c.b 26 ∧ c.b 26 ≤ 32) → (bitOf (c.b 27) 3 = true → c.p 40 2 ≠ 0) → c.p 30 2 < 1024 → c.p 32 2 < 1024 → c.p 34 2 < 1024 →
    v.createDock c = .inl k → 0 < own → own + fb + 1 ≤ v.prof.cap → v.firstRun d own [] = some a → v.firstRun d fb (mine a own) = some b →
    v.firstRun d 1 (mine a own ++ mine b fb) = some h → (v.slotsIn d k 0).head? = some n → tsorted v.groups = true → tsorted v.pages = true →
    ∃ (t : State) (y : Berth), exec (.berthCreate c at_) s = .next (t.answer c 0 (slotLoc d k n + a * 2 ^ 16 + b * 2 ^ 32) []) ∧
      t.berth c.berth = some y ∧ y.stateNo = 0 ∧ y.die = d ∧ y.dock = k ∧ y.slot = n ∧ t.slot d k n = 1 ∧ y.watchPage = h ∧
      y.reg R.DP_FB0BASE = b * 512 % 2 ^ 32 ∧ y.side.beam.geo = v.prof.geo ∧
      (∀ p ∈ mine a own, pageState (t.page d p) = 1 ∧ bitsOf (t.page d p) 10 0 = c.berth % 2048) ∧
      (∀ p ∈ mine b fb, pageState (t.page d p) = 4 ∧ bitsOf (t.page d p) 10 0 = c.berth % 2048) ∧ pageState (t.page d h) = 3 ∧
      (∀ p ∈ h :: mine a own ++ mine b fb, ∀ i, i < 65536 → Memory.byte t.mem (2 * pkgWord d (p * 32768) + i) = 0) ∧
      t.groupsOf d c.berth = [c.p 30 2, c.p 32 2, c.p 34 2]) ∧
  (∀ (s : State) (c : Cmd) (at_ : Nat) (x : Berth),
    let u := s.at at_
    let v := u.fetched c
    let does := fun (op : Nat) => u.takes op c = true ∧ v.noDeputy op c = false
    c.berth < v.part.berthIds → v.berth c.berth = some x → x.id = c.berth →
    (does 0x11 → tsorted v.berths = true → ∃ t : State, exec (.berthDestroy c at_) s = .next (t.answer c 0 0 []) ∧ t.berth c.berth = none ∧ t.mem = v.mem ∧
      (∀ e, e ≠ c.berth → t.berth e = v.berth e) ∧ (x.parked = false → t.slot x.die x.dock x.slot = 2) ∧
      (∀ p, 128 ≤ p → p < 16384 → v.pageOf x p = true → v.retire = [] → tsorted v.pages = true → pageState (t.page x.die p) = 0)) ∧
    (does 0x18 → x.stateNo = 0 → v.startHeld = false → c.p 24 8 ≤ v.htime % 2 ^ 64 → v.berthDown x = [] →
      ∀ t y, v.startBerth x = t → t.berth c.berth = some y → y.parked = false → y.parkReq = none →
        y.started = true ∧ y.side.core = { st := .run } ∧ y.side.bt = 0 ∧ y.side.beam.geo = v.prof.geo ∧ y.side.desc = x.side.desc ∧
        y.cur = {} ∧ y.pipe = {} ∧ y.gov.refT = v.refNow ∧ y.gov.refBt = 0 ∧ y.ckpt.isSome = true ∧
        (bitsOf (x.reg R.BM_GOVCFG) 0 0 = 0 → y.htimeMode = false) ∧
        (y.htimeMode = false → y.freezes = [] ∧ exec (.berthStart c at_) s = .next (t.answer c 0 (v.htime % 2 ^ 64) [])) ∧
        (y.htimeMode = true → y.freezes = [.align] ∧ StaysInFlight (.berthStart c at_) s 0x18 c .align v.htime t)) ∧
    (does 0x19 → x.stateNo = 1 → StaysInFlight (.berthPause c at_) s 0x19 c .commit v.htime (v.setBerth { x with closeReq := true })) ∧
    (does 0x19 → x.stateNo = 2 → exec (.berthPause c at_) s = .next (v.answer c 0 (x.side.bt % 2 ^ 64) [])) ∧
    (does 0x1A → x.stateNo = 2 → ∃ y : Berth, .pause ∉ y.freezes ∧ y.side = x.side ∧
      y.gov.refT = v.refNow ∧ y.gov.refBt = x.side.bt ∧
      (x.htimeMode = false → exec (.berthResume c at_) s = .next ((v.setBerth y).answer c 0 (v.htime % 2 ^ 64) [])) ∧
      (x.htimeMode = true → .align ∈ y.freezes ∧ StaysInFlight (.berthResume c at_) s 0x1A c .align v.htime (v.setBerth y))) ∧
    (∀ k n, does 0x1B → c.b 24 = k → k < 16 → c.b 25 = n → n < 17 → v.domain x.die k = 0 → v.slot x.die k n = 0 →
      (x.started = false ∨ v.reg (dockAddr x.die k R.MC_VER) = (if x.parked then x.parkVer else v.reg (dockAddr x.die x.dock R.MC_VER))) →
      (k = x.dock ∧ x.parked = false ∨ (v.slotsIn x.die k 1).length < v.prof.berths) →
      (x.parked = true → ∃ (t : State) (y : Berth), exec (.berthMigrate c at_) s = .next (t.answer c 0 (slotLoc x.die k n) []) ∧ t.berth c.berth = some y ∧
        y.parked = false ∧ y.dock = k ∧ y.slot = n ∧ t.slot x.die k n = 1 ∧ y.side.core = x.side.core ∧ y.side.bt = x.side.bt ∧
        y.locGen = (x.locGen + 1) % 65536) ∧
      (x.parked = false → ∃ y : Berth, y.dest = some (x.die, k, n) ∧ y.side = x.side ∧ (if x.hasTime then y.closeReq = true else y.moving = true) ∧
        StaysInFlight (.berthMigrate c at_) s 0x1B c .move v.htime (v.setBerth y))))

/-- SEG_DEFINE, CELLAR_WRITE, CELLAR_READ and PAGE_SHARE on a berth without berth time; with it they wait for its commit. SEG_DEFINE that passes its
checks sets the descriptor of a berth without berth time, in what runs and in its checkpoint, and stays in flight for the next watch of one with it.
CELLAR_WRITE stores the words of its block in the berth's pages and no other byte, CELLAR_READ returns the words as they stand. PAGE_SHARE moves OWNED
pages that no writable descriptor maps to SHARED in the group. A page that is not the berth's answers DENIED and changes nothing; a word whose entry
gives the harbourmaster no right answers DENIED and is logged. Stated for cellar groups that are ON. (04_berth_core.md R128, 04_berth_core.md R129,
02_cellar_ledgers.md R73, 13_harbour_interface.md R460, 13_harbour_interface.md R466, 13_harbour_interface.md R467, 13_harbour_interface.md R468,
15_power_keeper.md R526, 02_cellar_ledgers.md R78) -/
def Obligations.PageCommandsTakeEffect : Prop :=
  ∀ (s : State) (c : Cmd) (at_ : Nat) (x : Berth),
    let u := s.at at_
    let v := u.fetched c
    let does := fun (op : Nat) => u.takes op c = true ∧ v.noDeputy op c = false
    let refused := fun (i : Instr) (e : Nat) => exec i s = .next (v.answer c e 0 [])
    c.berth < v.part.berthIds → v.berth c.berth = some x → x.id = c.berth →
    (does 0x12 →
      let z := segDesc c
      let n := c.b 24 % 16
      let good := z.base % 64 = 0 ∧ z.base + z.limit < 2 ^ 29 ∧ ¬ (z.shared = true ∧ z.w = true)
      let owned := ∀ p, z.base / 32768 ≤ p → p ≤ (z.base + z.limit) / 32768 → v.pageOf x p = true ∨ v.pageShared x p = true
      (¬ good → refused (.segDefine c at_) 2) ∧
      (good → ¬ owned → refused (.segDefine c at_) 9) ∧
      (good → owned → x.hasTime = false → ∃ y : Berth, exec (.segDefine c at_) s = .next ((v.setBerth y).answer c 0 0 []) ∧
        y.side.descN n = z ∧ (∀ m, m < 16 → m ≠ n → y.side.descN m = x.side.descN m) ∧ y.side.core = x.side.core ∧
        (∀ k, y.ckpt = some k → k.side.descN n = z)) ∧
      (good → owned → x.hasTime = true →
        StaysInFlight (.segDefine c at_) s 0x12 c .commit v.htime (v.setBerth { x with segDefs := x.segDefs ++ [(n, z)] }))) ∧
    (let wa := c.p 24 4
     let n := c.dlen / 2
     let fits := c.dlen % 2 = 0 ∧ 2 ≤ c.dlen ∧ c.dlen ≤ 16777216 ∧ wa + n ≤ 2 ^ 29
     let pages := fun (ok : Nat → Bool) => ∀ p, wa / 32768 ≤ p → p ≤ (wa + n - 1) / 32768 → ok p = true
     let up := v.groupsDown x.die wa n = []
     let rights := fun (k : Kind) => ∀ w, wa ≤ w → w < wa + n → v.ledgerCheck 0 x.die w { cls := 8 } k = none
     let clean := ∀ w, wa ≤ w → w < wa + n → tfind v.ecc (pkgWord x.die w / 4) = none
     (does 0x13 → x.stateNo ≠ 1 → fits → ¬ pages (v.pageOf x) → refused (.cellarWrite c at_) 9) ∧
     (does 0x13 → x.hasTime = false → fits → pages (v.pageOf x) → up → rights .write → clean → Memory.wf v.mem = true →
       ∃ t : State, exec (.cellarWrite c at_) s = .next (t.answer c 0 n []) ∧ t = { v with mem := t.mem } ∧
         (∀ i, i < 2 * n → Memory.byte t.mem (2 * pkgWord x.die wa + i) = c.data.getD i 0) ∧
         (∀ a, a < 2 * pkgWord x.die wa ∨ 2 * (pkgWord x.die wa + n) ≤ a → Memory.byte t.mem a = Memory.byte v.mem a)) ∧
     (∀ w t e, does 0x13 → x.stateNo ≠ 1 → fits → pages (v.pageOf x) → up → wa ≤ w → w < wa + n →
       v.ledgerCheck 0 x.die w { cls := 8 } .write = some (t, e) → (∀ z, wa ≤ z → z < w → v.ledgerCheck 0 x.die z { cls := 8 } .write = none) →
       exec (.cellarWrite c at_) s = .next ((v.logViol x.die { cls := 8 } .write t e (pkgWord x.die w)).answer c 9 0 [])) ∧
     (does 0x13 → x.stateNo = 3 → fits → pages (v.pageOf x) → up → rights .write → StaysInFlight (.cellarWrite c at_) s 0x13 c .commit v.htime v) ∧
     (let seen := fun p => v.pageOf x p || v.pageShared x p
      (does 0x14 → fits → ¬ pages seen → refused (.cellarRead c at_) 9) ∧
      (does 0x14 → fits → pages seen → up → rights .read → clean → exec (.cellarRead c at_) s =
        .next (v.answer c 0 n ((List.range (2 * n)).map (fun i => Memory.byte v.mem (2 * pkgWord x.die wa + i))))))) ∧
    (let p := c.p 24 2
     let n := c.p 26 2
     let g := c.p 28 2
     let owned := ∀ q, p ≤ q → q < p + n → v.pageOf x q = true ∧ pageState (v.page x.die q) = 1
     let mapped := ∃ z ∈ x.side.desc.toList ++ x.segDefs.map (·.2), ∃ q, p ≤ q ∧ q < p + n ∧ z.mapsW q = true
     does 0x15 → tsorted v.pages = true → x.hasTime = false → n ≠ 0 → g ≠ 0 → g < 1024 → p + n ≤ 16384 →
      (¬ owned → refused (.pageShare c at_) 9) ∧ (owned → mapped → refused (.pageShare c at_) 6) ∧
      (owned → ¬ mapped → v.prof.sharepool < v.sharedPages x.die + n → refused (.pageShare c at_) 7) ∧
      (owned → ¬ mapped → v.sharedPages x.die + n ≤ v.prof.sharepool → v.groupsDown x.die (p * 32768) (n * 32768) = [] →
        ∃ t : State, exec (.pageShare c at_) s = .next (t.answer c 0 0 []) ∧ t = { v with pages := t.pages } ∧
          (∀ q, p ≤ q → q < p + n → pageState (t.page x.die q) = 2 ∧ bitsOf (t.page x.die q) 20 11 = g ∧
            bitsOf (t.page x.die q) 22 22 = 0 ∧ bitsOf (t.page x.die q) 27 27 = 0) ∧
          (∀ e q, q < 16384 → e ≠ x.die ∨ q < p ∨ p + n ≤ q → t.page e q = v.page e q)))

/-- STREAM_BIND, STREAM_UNBIND, INPUT_BIND, QUAY_CONFIG, QUAY_INJECT and MACSEC_KEY: entries, registers and keys they leave. Stated for berths without
berth time. STREAM_BIND without a standby takes the lowest free transmit entry of an enabled quay that is up, writes the scan-out registers and
returns the entry. Neither acts on a stream that is being failed over: it waits. STREAM_UNBIND removes the berth's transmit entries, ends the stream
and returns the next SEQ. INPUT_BIND writes the berth's receive entry of a target, or removes it. QUAY_CONFIG writes the quay's registers and starts
or stops its link. QUAY_INJECT, where the profile allows it, writes the injection registers and the host's right. MACSEC_KEY installs, activates or
deletes one SA and leaves the others. (08_frames_streams.md R301, 12_quays.md R412, 12_quays.md R413, 12_quays.md R414, 12_quays.md R421, 12_quays.md
R441, 13_harbour_interface.md R459, 13_harbour_interface.md R471, 13_harbour_interface.md R473, 13_harbour_interface.md R474, 13_harbour_interface.md
R475) -/
def Obligations.StreamAndQuayCommandsTakeEffect : Prop :=
  ∀ (s : State) (c : Cmd) (at_ : Nat),
    let u := s.at at_
    let v := u.fetched c
    let does := fun (op : Nat) => u.takes op c = true ∧ v.noDeputy op c = false
    (∀ x, c.berth < v.part.berthIds → v.berth c.berth = some x → x.id = c.berth → x.hasTime = false → tsorted x.regs = true →
      (does 0x21 → v.failingOver x = false → ∃ (t : State) (y : Berth), exec (.streamUnbind c at_) s = .next (t.answer c 0 x.stream.seq []) ∧ t = { v with berths := t.berths, quays := t.quays } ∧
        t.berth c.berth = some y ∧ y.stream = ({} : Machine.Stream) ∧ y.side = x.side ∧ bitsOf (y.reg R.DP_OUTCFG) 1 0 = 0 ∧
        (∀ e, e ≠ c.berth → t.berth e = v.berth e) ∧
        (∀ q k, (q, k) ∈ t.quays → ∀ r ∈ k.table, r.1 < 512 → bitOf (r.2.getD 0 0) 11 = true → bitsOf (r.2.getD 0 0) 10 0 ≠ c.berth)) ∧
      (v.failingOver x = true →
        (does 0x21 → StaysInFlight (.streamUnbind c at_) s 0x21 c .failover v.htime v) ∧
        (does 0x20 → 96 ≤ c.dlen → v.hasQuay (c.d 0 1) = true → c.d 1 1 = 0xFF → StaysInFlight (.streamBind c at_) s 0x20 c .failover v.htime v)) ∧
      (∀ e, does 0x20 →
        let q := c.d 0 1
        let w := v.dropEntries c.berth (fun e => decide (e < 512))
        v.failingOver x = false → 96 ≤ c.dlen → v.hasQuay q = true → c.d 1 1 = 0xFF → (x.stream.bound = true → x.stream.held = true) → bindReserved c = false →
        bindFits v.prof.cls (2 * x.pixLen) c = true → v.flag (quayAddr q R.QY_CFG) 0 = true → v.quayUp q = true →
        (bitOf (c.d 2 1) 2 = true → x.twoBuffers = true) → w.freeEntry q 0 512 [] = some e →
        ∃ (t : State) (y : Berth), exec (.streamBind c at_) s = .next (t.answer c 0 (e + 0xFFFF * 2 ^ 16) []) ∧ t.berth c.berth = some y ∧ t.mem = v.mem ∧
          y.stream.bound = true ∧ y.stream.held = false ∧ y.stream.quay = q ∧ y.stream.entry = e ∧ y.side = x.side ∧
          (x.stream.bound = true → y.stream.seq = x.stream.seq ∧ y.stream.rebound = true) ∧
          bitOf (t.entryWord q e 0) 11 = true ∧ bitOf (t.entryWord q e 0) 12 = true ∧ t.entryWord q e 0 % 2048 = c.berth % 2048 ∧
          y.reg R.DP_SEGCFG = (c.d 6 2 + c.d 8 1 * 2 ^ 16) % 2 ^ 32 ∧ y.reg R.DP_OFPNUM = c.d 56 4 % 2 ^ 32) ∧
      (does 0x22 →
        let q := c.b 24
        let tgt := c.b 25 % 8
        v.hasQuay q = true → tgt ≤ 5 →
        (bitOf (c.b 25) 7 = true → v.inputEntry q c.berth tgt = none → exec (.inputBind c at_) s = .next (v.answer c 2 0 [])) ∧
        (∀ e, bitOf (c.b 25) 7 = true → v.inputEntry q c.berth tgt = some e → ∃ t : State, exec (.inputBind c at_) s = .next (t.answer c 0 e []) ∧
          t = { v with berths := t.berths, quays := t.quays } ∧ (tsorted (v.quay q).table = true → tfind (t.quay q).table e = none)) ∧
        (∀ e, bitOf (c.b 25) 7 = false → v.inputEntry q c.berth tgt = none → v.ringFits x c tgt = true → v.freeEntry q 512 512 [] = some e →
          (∀ f, 512 ≤ f → f < 1024 → bitOf (v.entryWord q f 0) 11 = true → bitOf (v.entryWord q f 0) 15 = bitOf (c.b 25) 3 →
            bitsOf (v.entryWord q f 1) 15 0 ≠ c.p 26 2) →
          ∃ (t : State) (y : Berth), exec (.inputBind c at_) s = .next (t.answer c 0 e []) ∧ t = { v with berths := t.berths, quays := t.quays } ∧
            bitOf (t.entryWord q e 0) 11 = true ∧ bitsOf (t.entryWord q e 0) 14 12 = tgt ∧ t.entryWord q e 1 = c.p 26 2 ∧
            t.entryWord q e 2 = pkgWord x.die (ringStart x c tgt) ∧ t.berth c.berth = some y ∧ y.side.core = x.side.core ∧
            (1 ≤ tgt → tgt ≤ 4 → x.rx.length = 4 → ∃ r, y.rx.getD (tgt - 1) none = some r ∧ r.base = pkgWord x.die (ringStart x c tgt) ∧ r.prod = r.cons)))) ∧
    (let q := c.b 24
     let d := q / 18
     v.hasQuay q = true → tsorted v.regs = true → c.entry.length = 64 →
      (does 0x28 → bitOf (c.b 25) 0 = true → v.domain d (0x18 + q % 18 / 6) = 0 → ∃ t : State, exec (.quayConfig c at_) s = .next (t.answer c 0 0 []) ∧
        t.mem = v.mem ∧ t.berths = v.berths ∧ t.reg (quayAddr q R.QY_CFG) = c.b 25 + c.b 26 * 2 ^ 8 ∧
        t.reg (quayAddr q R.QY_MACHI) = ofBe ((c.entry.drop 28).take 2) ∧ t.flag (quayAddr q R.QY_STAT) 2 = false) ∧
      (does 0x28 → bitOf (c.b 25) 0 = true → v.domain d (0x18 + q % 18 / 6) ≠ 0 →
        StaysInFlight (.quayConfig c at_) s 0x28 c .domain v.htime (v.startReturn d (0x18 + q % 18 / 6))) ∧
      (does 0x28 → bitOf (c.b 25) 0 = false → ∃ t : State, exec (.quayConfig c at_) s = .next (t.answer c 0 0 []) ∧
        t.flag (quayAddr q R.QY_CFG) 0 = false ∧ t.flag (quayAddr q R.QY_STAT) 2 = true ∧ t.quayUp q = false ∧ (t.quay q).held = none) ∧
      (does 0x29 → v.prof.inject = false → exec (.quayInject c at_) s = .next (v.answer c 9 0 [])) ∧
      (does 0x29 → v.prof.inject = true → ∃ t : State, exec (.quayInject c at_) s = .next (t.answer c 0 0 []) ∧
        t = { v with regs := t.regs, quays := t.quays } ∧ t.reg (quayAddr q R.QY_INJSEL) = c.p 32 4 ∧ t.reg (quayAddr q R.QY_INJSEED) = c.p 44 4 ∧
        (t.quay q).lfsr = max 1 (c.p 44 4) ∧ (t.quay q).count = 0 ∧
        t.flag (dieAddr d (R.LG_REGLED + 4 * (32 + q % 18))) 1 = bitOf (c.b 25) 0) ∧
      (let sc := c.b 25
       let an := c.b 26
       let old := (v.quay q).sas
       let hit := fun (z : Sa) => z.sc = sc ∧ z.an = an ∧ (z.tx = true ↔ sc = 0)
       does 0x2A → sc ≤ 4 → an ≤ 3 →
        (c.b 27 = 0 → 64 ≤ c.dlen → ((old.filter (fun z => !z.named c)).filter (fun z => decide (z.sc = sc))).length < 2 →
          ∃ (t : State) (z : Sa), exec (.macsecKey c at_) s = .next (t.answer c 0 0 []) ∧ hit z ∧ z.active = false ∧ z.pn = c.d 56 8 ∧
            (t.quay q).sas = old.filter (fun y => !y.named c) ++ [z] ∧ t.flag (dieAddr d R.ST_SECCLR) (q % 18) = false ∧
            t = { v with regs := t.regs, quays := t.quays }) ∧
        (c.b 27 = 1 → (∃ z ∈ old, hit z) → ∃ t : State, exec (.macsecKey c at_) s = .next (t.answer c 0 0 []) ∧ t = { v with quays := t.quays } ∧
          (t.quay q).sas.length = old.length ∧ (∀ z ∈ (t.quay q).sas, z.sc = sc → (z.active = true ↔ hit z)) ∧
          (∀ z ∈ old, z.sc ≠ sc → z ∈ (t.quay q).sas)) ∧
        (c.b 27 = 2 → (∃ z ∈ old, hit z) → ∃ t : State, exec (.macsecKey c at_) s = .next (t.answer c 0 0 []) ∧ t = { v with quays := t.quays } ∧
          ∀ z, z ∈ (t.quay q).sas ↔ z ∈ old ∧ ¬ hit z)))

/-- THERMAL_POLICY, SELFTEST_POLICY and MC_RELOAD: the registers, priorities, control store banks and measurements they leave. THERMAL_POLICY with
values in range writes PW_THPOL, and a berth's priority where it names one without berth time; with one that has berth time it waits for its commit.
SELFTEST_POLICY writes ST_CFG and ST_PERIOD of one die or of every die and nothing else. MC_RELOAD of a verified image loads it into the idle bank of
each selected dock that is ON and makes it ready, or with SWITCH makes it active; records the image for every selected dock and the die; and extends
slot 6 of the die once with the image's measurement. (13_harbour_interface.md R478, 14_watches_faults_selftest.md R516, 15_power_keeper.md R545,
16_boot_measurement.md R573, 16_boot_measurement.md R578, 16_boot_measurement.md R580, 16_boot_measurement.md R581, 16_boot_measurement.md R583) -/
def Obligations.SystemCommandsTakeEffect : Prop :=
  ∀ (s : State) (c : Cmd) (at_ : Nat),
    let u := s.at at_
    let v := u.fetched c
    let does := fun (op : Nat) => u.takes op c = true ∧ v.noDeputy op c = false
    let d := c.b 24
    (does 0x31 → c.b 24 < c.b 25 → c.b 25 ≤ 110 → 2 ≤ c.b 28 → c.b 28 ≤ 16 → c.b 26 < 3 → tsorted v.regs = true →
      let pol := c.b 24 + c.b 25 * 2 ^ 8 + c.b 26 * 2 ^ 16 + c.b 27 % 2 * 2 ^ 20 + c.b 28 * 2 ^ 24
      (c.b 27 / 2 % 2 = 0 → ∃ t : State, exec (.thermalPolicy c at_) s = .next (t.answer c 0 0 []) ∧ t.reg R.PW_THPOL = pol ∧ t.berths = v.berths ∧ t.mem = v.mem) ∧
      (∀ x, c.b 27 / 2 % 2 = 1 → c.berth < v.part.berthIds → v.berth c.berth = some x → x.id = c.berth → x.hasTime = false →
        ∃ t : State, exec (.thermalPolicy c at_) s = .next (t.answer c 0 0 []) ∧ t.reg R.PW_THPOL = pol ∧ t.berth c.berth = some { x with prio := c.b 29 }) ∧
      (∀ x, c.b 27 / 2 % 2 = 1 → c.berth < v.part.berthIds → v.berth c.berth = some x → x.hasTime = true →
        StaysInFlight (.thermalPolicy c at_) s 0x31 c .commit v.htime v)) ∧
    (does 0x38 → (d = 0xFF ∨ v.hasDie d = true) → 1 ≤ c.b 26 → c.b 26 ≤ 16 → (c.b 25 / 4 % 2 = 1 → 1 ≤ c.p 28 2 ∧ c.p 28 2 ≤ 10000) →
      tsorted v.regs = true → ∃ t : State, exec (.selftestPolicy c at_) s = .next (t.answer c 0 0 []) ∧ t = { v with regs := t.regs } ∧
        (∀ n, n < v.part.dies → (d = 0xFF ∨ d = n) →
          t.reg (dieAddr n R.ST_CFG) = c.b 25 % 8 + c.b 26 * 2 ^ 8 + c.p 28 2 * 2 ^ 16 ∧ t.reg (dieAddr n R.ST_PERIOD) = c.p 32 4) ∧
        (∀ a, (∀ n, n < v.part.dies → a ≠ dieAddr n R.ST_CFG ∧ a ≠ dieAddr n R.ST_PERIOD) → t.reg a = v.reg a)) ∧
    (∀ dir m, does 0x07 → v.directory (if v.flag R.HB_BOOTSTAT 16 then 0x10000 else 0) = some dir → v.hasDie d = true →
      (∃ e ∈ dir, e.typ = 2 ∧ e.index = c.b 25) → (∀ k, k < 16 → bitOf (c.p 26 2) k = true → v.mcPending d k = false) →
      v.loadImage dir 2 (c.b 25) = some m →
      let b := bankOfPayload m.payload
      tsorted v.regs = true → tsorted v.cstore = true →
      ∃ t : State, exec (.mcReload c at_) s = .next (t.answer c 0 m.version []) ∧ t.mem = v.mem ∧ t.dieImg = tput v.dieImg d m.payload [] ∧
        t.measurement d 6 = sha384 (v.measurement d 6 ++ m.measure) ∧
        t.fld (dieAddr d (R.MS_CNT + 24)) 15 0 = (v.fld (dieAddr d (R.MS_CNT + 24)) 15 0 + 1) % 65536 ∧
        (∀ k, k < 16 → bitOf (c.p 26 2) k = true → tfind t.dockImg (d * 16 + k) = some m.payload ∧
          (v.domain d k = 0 → c.b 28 % 2 = 0 → t.csBank d k (v.idleBank d k) = b ∧ t.flag (dockAddr d k R.MC_CTL) 3 = true ∧
            t.fld (dockAddr d k R.MC_CTL) 0 0 = v.fld (dockAddr d k R.MC_CTL) 0 0) ∧
          (v.domain d k = 0 → c.b 28 % 2 = 1 → t.csBank d k (v.idleBank d k) = b ∧
            t.fld (dockAddr d k R.MC_CTL) 0 0 = v.idleBank d k ∧ t.reg (dockAddr d k R.MC_VER) = b.ver % 2 ^ 32)) ∧
        (∀ k, k < 16 → bitOf (c.p 26 2) k = false → tfind t.dockImg (d * 16 + k) = tfind v.dockImg (d * 16 + k)))

/-- A pipe composes the waiting line with the earliest deadline, releases it once composed, and after a failed check hands its dock to the spare. A
free pipe that serves its dock starts the oldest line of a berth, none of whose rivals has an earlier deadline, a line of a skipped frame without
composing it; a busy pipe, or one without a line, starts nothing. A release empties the line buffer, takes the line and the stamps on or before it out
of the pipe's keeping, and counts. A check that fires, at any time, or 20 us without a release while a line waits, discards the line in progress,
records the cause and fails the pipe; one that fires in a dock's own pipe while the spare serves the dock records its cause only. The spare pipe of a
die that is free takes the dock over; else its berths are rolled back and parked with cause PIPE, or with that of a failed replay. (03_beam_time.md
R117, 07_sprites_composition.md R252, 07_sprites_composition.md R254, 07_sprites_composition.md R257, 07_sprites_composition.md R261,
07_sprites_composition.md R262, 07_sprites_composition.md R263, 07_sprites_composition.md R264, 07_sprites_composition.md R265, 08_frames_streams.md
R284) -/
def Obligations.PipesComposeReleaseAndFailOver : Prop :=
  ∀ (s : State) (d k at_ : Nat), s.hasDie d = true → k < 16 →
    let u := s.at at_
    let p := u.pipeOf d k
    let onSpare := fun (v : State) => v.flag (dockAddr d k R.DK_PIPE) 0
    let same := fun (t v : State) => t.mem = v.mem ∧ t.berths = v.berths ∧ t.slots = v.slots ∧ t.htime = v.htime
    let fails := fun (v t : State) (cause : Nat) => same t v ∧ (t.pipeOf d k).cur = none ∧
      t.reg (dockAddr d k R.DP_ERR) = v.reg (dockAddr d k R.DP_ERR) ||| cause ∧
      (onSpare v = true → (t.pipeOf d k).dead = true ∧ t.spareFailed d = true) ∧
      (onSpare v = false → (t.pipeOf d k).failed = true ∧ t.flag (dockAddr d k R.DK_PIPE) 1 = true)
    (p.cur.isSome = true ∨ u.pipeServes d k = false ∨ (∀ x ∈ u.dockBerths d k, x.pipe.lines = []) →
      exec (.composeLine d k at_) s = .next u) ∧
    (p.cur = none → u.pipeServes d k = true → (∃ x ∈ u.dockBerths d k, x.pipe.lines ≠ []) →
      ∃ (t : State) (x : Berth) (r : LineRec) (l : List LineRec) (c : Composed), exec (.composeLine d k at_) s = .next t ∧
        x ∈ u.dockBerths d k ∧ x.pipe.lines = r :: l ∧ (t.pipeOf d k).cur = some c ∧ c.berth = x.id ∧ c.line = r ∧ c.startAt = u.htime ∧
        (r.skip = true → c.cost = 0 ∧ same t u) ∧
        (r.skip = false → c.pixels.length = r.geo.hvis ∧
          ∃ z, t.berths = (u.modBerth x.id (fun y => { y with pipe := { y.pipe with logged := (r.frame, r.line, z) } })).berths) ∧
        (∀ y ∈ u.dockBerths d k, ∀ q m, y.pipe.lines = q :: m → ∀ v, y.deadline u.htime q = some v → ∃ w, x.deadline u.htime r = some w ∧ w ≤ v)) ∧
    ((s.pipeOf d k).cur = none → exec (.lineRelease d k 0 at_) s = .next s) ∧
    (∀ check, 0 < check → check < 8 → tsorted u.regs = true → tsorted u.pipes = true →
      (u.pipeServes d k = true → ∃ t : State, exec (.lineRelease d k check at_) s = .next t ∧ fails u t check) ∧
      (u.pipeServes d k = false → exec (.lineRelease d k check at_) s = .next u) ∧
      (onSpare u = false → exec (.lineRelease d k (16 * check) at_) s = .next u) ∧
      (onSpare u = true → ∃ t : State, exec (.lineRelease d k (16 * check) at_) s = .next t ∧ same t u ∧ (t.pipeOf d k).cur = p.cur ∧
        (t.pipeOf d k).dead = p.dead ∧ (t.pipeOf d k).failed = p.failed ∧
        t.reg (dockAddr d k R.DP_ERR) = u.reg (dockAddr d k R.DP_ERR) ||| check)) ∧
    (∀ c : Composed, (s.pipeOf d k).cur = some c →
      let v := s.at (max at_ (c.startAt + (c.cost * 1000 + s.dclk d - 1) / s.dclk d))
      tsorted v.regs = true → tsorted v.pipes = true →
      (v.berth c.berth = none → ∃ t : State, exec (.lineRelease d k 0 at_) s = .next t ∧ same t v ∧ (t.pipeOf d k).cur = none) ∧
      (∀ x l, v.berth c.berth = some x → x.id = c.berth → x.pipe.lines = c.line :: l → x.die = d → x.dock = k →
        ∃ (t : State) (y : Berth), exec (.lineRelease d k 0 at_) s = .next t ∧ (t.pipeOf d k).cur = none ∧ t.berth x.id = some y ∧ y.pipe.lines = l ∧
          y.side = x.side ∧ (∀ z ∈ y.pipe.store, z ∈ x.pipe.store ∧ posLe z.frame z.line c.line.frame c.line.line = false) ∧
          (c.line.skip = true → t.mem = v.mem) ∧
          (c.line.skip = false → t.reg (dockAddr d k R.DP_RELEASED) = (v.reg (dockAddr d k R.DP_RELEASED) + 1) % 2 ^ 32))) ∧
    (let due := u.pipeServes d k = true ∧ (∃ x ∈ u.dockBerths d k, x.pipe.lines ≠ []) ∧ p.lastRelease + 20000 ≤ u.htime
     tsorted u.regs = true → tsorted u.pipes = true →
      (due → ∃ t : State, exec (.pipeWatchdogExpiry d k at_) s = .next t ∧ fails u t 8) ∧
      (¬ due → exec (.pipeWatchdogExpiry d k at_) s = .next u)) ∧
    (u.deputyHalted d = true ∨ (p.dead = false ∧ (p.failed = false ∨ onSpare u = true)) →
      exec (.sparePipeTakeover d k at_) s = .next u.startWaiting) ∧
    (u.deputyHalted d = false → p.dead = false → p.failed = true → onSpare u = false → u.spareFree d = true → tsorted u.regs = true →
      ∃ t : State, exec (.sparePipeTakeover d k at_) s = .next t.startWaiting ∧ t.berths = u.berths ∧ t.mem = u.mem ∧ onSpare t = true ∧
        t.pipeServes d k = decide (u.domain d k = 0) ∧ (t.pipeOf d k).lastRelease = u.htime ∧ t.faultLog.getLast?.map (·.code) = some 3) ∧
    (u.deputyHalted d = false → p.dead = true ∨ (p.failed = true ∧ onSpare u = false ∧ u.spareFailed d = true) →
      tsorted u.berths = true → (∀ e ∈ u.berths, e.2.id = e.1) →
      ∃ t : State, exec (.sparePipeTakeover d k at_) s = .next t.startWaiting ∧
        (∀ x ∈ u.dockBerths d k, ∃ y : Berth, t.berth x.id = some y ∧ y.pipe.lines = x.pipe.lines ∧ (∀ c, x.ckpt = some c → y.side.core = c.side.core) ∧
          (y.parked = true ∨ y.parkReq.isSome = true) ∧
          (x.cur.undo = [] → (∀ r ∈ x.ended, r.acc.undo = []) → if y.parked then y.parkCause = 2 else y.parkReq = some 2)) ∧
        ((∀ x ∈ u.dockBerths d k, x.cur.undo = [] ∧ ∀ r ∈ x.ended, r.acc.undo = []) → t.mem = u.mem))

/-- The generator starts output frames, reads source lines it can trust and fills the rest, and queues the segments in order. At the next output frame
start the LOCKED generator takes the next beam frame, a FREE one turns to the other buffer only when enough newer lines stand in it and else repeats
the one shown; a gap sends no frame. A source line whose tag matches and whose words read without denial or poison gives its pixels; the rest of the
line is FILL, and an underrun counts with its line. The next segment of the line read is queued and the generator moves to the next segment, after the
last to the next line. The berth's own state, its registers, core and beam, stays. (08_frames_streams.md R271, 08_frames_streams.md R274,
08_frames_streams.md R275, 08_frames_streams.md R277, 08_frames_streams.md R281, 08_frames_streams.md R282, 08_frames_streams.md R283,
08_frames_streams.md R287, 08_frames_streams.md R288, 08_frames_streams.md R300) -/
def Obligations.ScanOutStartsReadsAndQueues : Prop :=
  ∀ (s : State) (b : Nat) (x : Berth), s.berth b = some x → x.id = b →
    let same := fun (t u : State) => t.htime = u.htime ∧ t.slots = u.slots ∧ (∀ e, e ≠ b → t.berth e = u.berth e)
    (x.nextStart s.htime = none → exec (.outputFrameStart b) s = .next s) ∧
    (∀ T, x.nextStart s.htime = some T →
      let u := s.at T
      u.berth b = some x → ∃ (t : State) (y : Berth), exec (.outputFrameStart b) s = .next t ∧ t.mem = u.mem ∧ same t u ∧ t.berth b = some y ∧ y.side = x.side ∧
        y.pipe = x.pipe ∧
        (x.gapCause ≠ none → y.gen.frame = none ∧ y.gen.row = none ∧ y.gen.startT = T ∧ (x.stream.bound = true → x.stream.held = true →
          y.stream.lostFrames = x.stream.lostFrames + 1)) ∧
        (x.gapCause = none → x.latchOut.gen.free = false → (x.frameInfo x.latchOut.gen.nextF).skip = false →
          y.gen.frame = some x.latchOut.gen.nextF ∧ y.gen.nextF = x.latchOut.gen.nextF + 1 ∧ y.gen.startT = T ∧ y.gen.restart = false ∧
          y.gen.oline = 0 ∧ y.gen.seg = 0 ∧ y.gen.row = none) ∧
        (x.gapCause = none → x.latchOut.gen.free = true →
          let o := 1 - x.gen.buf
          let fresh := ∃ f n, x.gen.hold o = some (f, n) ∧ (∀ g, x.gen.shown = some g → g < f) ∧ bitsOf (x.reg R.DP_SWLINE) 11 0 ≤ n
          y.gen.startT = T ∧ y.gen.oline = 0 ∧ y.gen.seg = 0 ∧
          (fresh → y.gen.buf = o ∧ y.gen.shown = (x.gen.hold o).map (fun e => e.1) ∧ y.gen.frame = y.gen.shown ∧ y.gen.again = false) ∧
          (¬ fresh → y.gen.buf = x.gen.buf ∧ y.gen.shown = x.gen.shown ∧ y.gen.frame = x.gen.shown ∧ y.gen.again = x.gen.shown.isSome))) ∧
    (x.dueLine = none → exec (.scanoutLineRead b) s = .next s) ∧
    (∀ l, x.dueLine = some l →
      let u := s.at (x.outLineTime (l * max 1 x.gen.scale))
      let g := x.gen.geo.getD x.side.beam.geo
      let buf := if x.gen.free then x.gen.buf else 0
      let wa := x.fbLine buf l
      let n := g.hvis * x.pixLen
      let tagged := ∃ f, x.gen.frame = some f ∧ tfind (x.gen.tags buf) l = some f
      let fill := (List.range g.hvis).map (fun c => pixVal (x.fillWords l c))
      u.berth b = some x → l < g.vvis → tsorted x.regs = true →
      (∃ t y px bad, exec (.scanoutLineRead b) s = .next t ∧ same t u ∧ t.berth b = some y ∧ y.side = x.side ∧
        y.gen = { x.gen with row := some (l, px, bad) } ∧ px.length = g.hvis ∧ y.uLines = x.uLines + b2n bad ∧
        (bad = true → bitsOf (y.reg R.DP_UNDERRUN) 15 0 = (bitsOf (x.reg R.DP_UNDERRUN) 15 0 + 1) % 2 ^ 16 ∧
          bitsOf (y.reg R.DP_UNDERRUN) 27 16 = l % 2 ^ 12) ∧
        (¬ tagged → px = fill ∧ bad = decide (0 < g.hvis) ∧ t.mem = u.mem) ∧
        (tagged → wa + n ≤ 2 ^ 29 →
          (∀ i, i < n → u.ledgerCheck x.die x.die (wa + i) { cls := 4, id := b } .read = none ∧ tfind u.ecc (pkgWord x.die (wa + i) / 4) = none) →
          bad = false ∧ t.mem = u.mem ∧ ∀ c, c < g.hvis → px.getD c 0 = (if x.pixLen = 1 then (u.word (pkgWord x.die (wa + c))).toNat else
            (u.word (pkgWord x.die (wa + 2 * c))).toNat + 65536 * (u.word (pkgWord x.die (wa + 2 * c + 1))).toNat)))) ∧
    (∀ l px bad, x.gen.row = some (l, px, bad) →
      let g := x.gen
      let per := g.segBytes / (2 * x.pixLen)
      let size := x.outSize
      let from_ := g.seg * per
      let n := min per (size.1 - from_)
      let last := decide (size.1 ≤ from_ + n)
      let u := s.at (x.pixelTime g.oline (from_ + n))
      (g.vmode ≠ 2 ∨ g.oline / max 1 g.scale ≠ l ∨ size.2 ≤ g.oline ∨ per = 0 → exec (.scanSegmentQueue b) s = .next s) ∧
      (g.vmode = 2 → g.oline / max 1 g.scale = l → g.oline < size.2 → 0 < per → u.berth b = some x →
        ∃ (t : State) (y : Berth), exec (.scanSegmentQueue b) s = .next t ∧ t.mem = u.mem ∧ same t u ∧ t.berth b = some y ∧ y.side = x.side ∧
          y.gen = { g with seg := if last then 0 else g.seg + 1, oline := if last then g.oline + 1 else g.oline } ∧
          (x.stream.bound = true → x.stream.held = false → (g.seg = 0 → x.stream.opened.length < u.leadQ x) → (0 < g.seg → x.stream.cur ≠ none) →
            ∃ (q : List Packet) (z : Packet), y.stream.queue = x.stream.queue ++ q ++ [z] ∧ q.length = (if x.stream.control.isSome then 1 else 0) ∧
              z.typ = 1 ∧ z.seg = g.seg ∧ z.line = g.oline ∧ z.last = last ∧ z.frame = g.frame.getD 0 % 65536 ∧
              (x.stream.report = false → z.payload = x.outBytes g.oline px from_ n)) ∧
          (x.stream.bound = true → x.stream.held = false → g.seg = 0 → u.leadQ x ≤ x.stream.opened.length →
            y.stream.queue = x.stream.queue ∧ y.qLines = x.qLines + 1))) ∧
    (x.gen.row = none → exec (.scanSegmentQueue b) s = .next s)

/-- A quay sends by priority and turn, receives into firmware and rings or discards and counts, pauses, and moves streams on failover. A locked quay
sends the next frame of the highest class that is not paused and has a sender ready: harbour traffic, or a stream's oldest packet with the stream's
SEQ, which counts on; a packet that no fabric route can carry is lost without a number (assumption log 129). A held frame is released after its
candidates, 100 us, or the end of injection, unless its class is paused. A frame with a bad FCS or length is discarded and counted; a PFC frame pauses
the honoured classes; a frame for firmware reaches it; an INPUT payload for a stream ring that has room stands in the ring. Pauses run out. XOFF, XON,
alignment with LOCK and then LINKUP, its loss, and the failover of every stream of a quay, each at most once, act as Tables 12-4 and 12-5 give.
(08_frames_streams.md R290, 12_quays.md R414, 12_quays.md R415, 12_quays.md R422, 12_quays.md R423, 12_quays.md R429, 12_quays.md R431, 12_quays.md
R433, 12_quays.md R437, 12_quays.md R438, 12_quays.md R441, 12_quays.md R443) -/
def Obligations.QuaysSendReceiveAndFailOver : Prop :=
  ∀ (s : State) (q at_ : Nat), s.hasQuay q = true →
    let u := s.at at_
    let k := u.quay q
    let same := fun (t v : State) => t.htime = v.htime ∧ t.slots = v.slots ∧ t.pages = v.pages
    let sends := fun (t v : State) (bytes : List Byte) (fcs : Bool) => (t.quay q).sent = (v.quay q).sent ++ [⟨bytes, fcs, v.htime⟩] ∧
      t.reg (quayAddr q R.QY_TXPKTS) = (v.reg (quayAddr q R.QY_TXPKTS) + 1) % 2 ^ 32
    let counts := fun (t v : State) (off : Nat) => same t v ∧ t.mem = v.mem ∧ t.quays = v.quays ∧ t.berths = v.berths ∧
      t.reg (quayAddr q off) = (v.reg (quayAddr q off) + 1) % 2 ^ 32 ∧
      t.reg (quayAddr q R.QY_RXDISC) = (v.reg (quayAddr q R.QY_RXDISC) + 1) % 2 ^ 32
    let idle := fun c : Nat => u.classPaused q c = true ∨ u.senders q c = []
    tsorted u.regs = true → tsorted u.quays = true →
    ((u.quayLocked q = false ∨ ∀ c, c < 8 → idle c) → exec (.quayTransmitFrame q at_) s = .next u) ∧
    (∀ c, c < 8 → u.quayLocked q = true → ¬ idle c → (∀ e, c < e → e < 8 → idle e) → u.injectOn q = false →
      (∀ e ∈ u.berths, e.2.id = e.1 ∧ e.1 < 4096) → tsorted u.berths = true →
      ∃ t n, exec (.quayTransmitFrame q at_) s = .next t ∧ n ∈ u.senders q c ∧ same t u ∧ t.mem = u.mem ∧
        (∀ m ∈ u.senders q c, k.turn.getD c 0 ≤ n → k.turn.getD c 0 ≤ m → n ≤ m) ∧
        (n = 4096 → t.berths = u.berths ∧ (t.quay q).harbour = k.harbour.tail ∧ sends t u (k.harbour.headD []) true) ∧
        (n ≠ 4096 → ∃ x y p l, u.berth n = some x ∧ x.stream.queue = p :: l ∧ t.berth n = some y ∧ y.side = x.side ∧
          y.stream.queue = l ∧ (∀ e, e ≠ n → t.berth e = u.berth e) ∧
          (u.reaches x.die (q / 18) = false → y.stream.seq = x.stream.seq ∧ t.quays = u.quays ∧ t.faultLog.getLast?.map (·.code) = some 7) ∧
          (u.reaches x.die (q / 18) = true → y.stream.seq = (x.stream.seq + 1) % 2 ^ 32 ∧ ∃ h : List Byte, h.length = 16 ∧ ofBe ((h.drop 8).take 4) = x.stream.seq % 2 ^ 32 ∧ h.getD 0 0 = BitVec.ofNat 8 (0x10 + p.typ) ∧
            sends t u (u.buildFrame q (u.entryWord q x.stream.entry) k.txSa (h ++ p.payload)) true))) ∧
    (k.held = none → exec (.injectReorderRelease q at_) s = .next u) ∧
    (∀ f c n T, k.held = some (f, c, n, T) →
      let due := (n = 0 ∨ T + 100000 ≤ u.htime ∨ u.injectOn q = false) ∧ u.classPaused q c = false ∧ u.quayLocked q = true
      (¬ due → exec (.injectReorderRelease q at_) s = .next u) ∧
      (due → ∃ t : State, exec (.injectReorderRelease q at_) s = .next t ∧ same t u ∧ t.berths = u.berths ∧ (t.quay q).held = none ∧ sends t u f.bytes f.fcs)) ∧
    (∀ bytes fcs reply,
      let e := exec (.quayReceiveFrame q bytes fcs reply at_) s
      let typ := ofBe ((bytes.drop 12).take 2)
      let r := bytes.drop 14
      let good := u.quayLocked q = true ∧ fcs = true ∧ 60 ≤ bytes.length ∧ bytes.length ≤ 9212
      (u.quayLocked q = false → e = .next u) ∧
      (u.quayLocked q = true → ¬ good → ∃ t : State, e = .next t ∧ counts t u R.QY_RXFRAME) ∧
      (good → typ = 0x8808 → ofBe (r.take 2) ≠ 0x0101 → ∃ t : State, e = .next t ∧ counts t u R.QY_RXFRAME) ∧
      (good → typ = 0x8808 → ofBe (r.take 2) = 0x0101 → k.pause.length = 8 → ∃ t : State, e = .next t ∧ t = { u with quays := t.quays } ∧
        ∀ c, c < 8 →
          let z := ofBe ((r.drop (4 + 2 * c)).take 2)
          (t.quay q).pause.getD c 0 = (if bitOf (ofBe ((r.drop 2).take 2)) c ∧ bitOf (u.reg (quayAddr q R.QY_PFC)) c then
            (if z = 0 then 0 else u.htime + (z * (if k.speed = 1 then 512 else 256) + 99) / 100) else k.pause.getD c 0)) ∧
      (good → typ ≠ 0x8808 → u.flag (quayAddr q R.QY_CFG) 4 = true → k.unprotect bytes = none → ∃ t : State, e = .next t ∧ counts t u R.QY_RXSEC) ∧
      (good → typ ≠ 0x8808 → u.flag (quayAddr q R.QY_CFG) 4 = false → bytes.take 6 = u.macOf q →
        (rxKind bytes = .firmware → q ∉ u.ptp → ∃ t : State, e = .next t ∧ same t u ∧ t.mem = u.mem ∧ t.berths = u.berths ∧ (t.quay q).fw = k.fw ++ [bytes] ∧
          (t.quay q).harbour = k.harbour ++ reply.toList) ∧
        (rxKind bytes = .other → ∃ t : State, e = .next t ∧ counts t u R.QY_RXNOMATCH) ∧
        (∀ six ip, rxKind bytes = .udp six ip → u.ipOk q six ip = false → ∃ t : State, e = .next t ∧ counts t u R.QY_RXBADIP) ∧
        (∀ six ip ent x ring n,
          let d := udpOf six ip
          let ql := d.drop 8
          let tgt := bitsOf (u.entryWord q ent 0) 14 12
          u.reaches (q / 18) x.die = true → rxKind bytes = .udp six ip → u.ipOk q six ip = true → udpOk six ip d = true → u.rxEntry q six ip d = some ent →
          18 ≤ ql.length → ql.getD 0 0 = 0x13 → ofBe ((ql.drop 2).take 2) % 2048 = x.id → bitsOf (u.entryWord q ent 0) 10 0 = x.id →
          ql.length = 16 + 2 * n → n ≤ 512 → u.berth x.id = some x → 1 ≤ tgt → tgt ≤ 4 → x.rx.getD (tgt - 1) none = some ring →
          ring.prod + n ≤ ring.cons + 2 ^ ring.k → n ≤ 2 ^ ring.k → ring.base / 2 ^ 29 = x.die → ring.base % 2 ^ 29 + 2 ^ ring.k ≤ 2 ^ 29 →
          (∀ i, i < 2 ^ ring.k → u.clear x.die (ring.base % 2 ^ 29 + i) { cls := 5, id := x.id } .write = true) → Memory.wf u.mem = true →
          x.rx.length = 4 →
          ∃ (t : State) (y : Berth), e = .next t ∧ same t u ∧ t.berth x.id = some y ∧ y = { x with rx := y.rx } ∧
            y.rx.getD (tgt - 1) none = some { ring with prod := ring.prod + n } ∧
            t.reg (quayAddr q R.QY_RXPKTS) = (u.reg (quayAddr q R.QY_RXPKTS) + 1) % 2 ^ 32 ∧
            (∀ i, i < n → t.word (ring.base + (ring.prod + i) % 2 ^ ring.k) = w16 (ofBe ((ql.drop (16 + 2 * i)).take 2))) ∧
            (∀ w, (∀ i, i < n → w ≠ ring.base + (ring.prod + i) % 2 ^ ring.k) → t.word w = u.word w)))) ∧
    (∀ c, c < 8 →
      let z := (s.quay q).pause.getD c 0
      (z = 0 → exec (.pfcPauseExpiry q c) s = .next s) ∧
      (z ≠ 0 → ((s.at z).quay q).pause.length = 8 → tsorted (s.at z).quays = true → ∃ t : State, exec (.pfcPauseExpiry q c) s = .next t ∧
        t = { s.at z with quays := t.quays } ∧ t.quay q = { (s.at z).quay q with pause := ((s.at z).quay q).pause.set c 0 } ∧ t.classPaused q c = false)) ∧
    (∀ fill,
      let gen := bitsOf (u.reg (quayAddr q R.QY_PFC)) 15 8
      let th := max 64 (bitsOf (u.reg (quayAddr q R.QY_PFC)) 23 16)
      ∃ t : State, exec (.quayPfcGenerate q fill at_) s = .next t ∧ same t u ∧ t.mem = u.mem ∧ t.berths = u.berths ∧ (t.quay q).rxFill = fill ∧
        (u.quayLocked q = false ∨ gen = 0 → (t.quay q).sent = k.sent ∧ (t.quay q).xoff = k.xoff) ∧
        (u.quayLocked q = true → gen ≠ 0 → th < fill → (t.quay q).xoff = true ∧ sends t u (u.pfcFrame q gen 65535) true) ∧
        (u.quayLocked q = true → gen ≠ 0 → fill < th - 32 → k.xoff = true → (t.quay q).xoff = false ∧ sends t u (u.pfcFrame q gen 0) true) ∧
        (fill ≤ th → (th - 32 ≤ fill ∨ k.xoff = false) → (t.quay q).sent = k.sent ∧ (t.quay q).xoff = k.xoff)) ∧
    (∀ speed fault,
      (u.flag (quayAddr q R.QY_CFG) 0 = false → exec (.quayLinkUp q ⟨speed, fault, at_⟩) s = .next u) ∧
      (u.flag (quayAddr q R.QY_CFG) 0 = true → ∃ t : State, exec (.quayLinkUp q ⟨speed, fault, at_⟩) s = .next t ∧ same t u ∧ t.mem = u.mem ∧
        t.berths = u.berths ∧ t.quayLocked q = true ∧ t.quayUp q = !fault ∧ t.flag (quayAddr q R.QY_STAT) 3 = fault ∧
        t.quay q = { k with speed := if u.flag (quayAddr q R.QY_CFG) 3 then speed % 2 else b2n (u.flag (quayAddr q R.QY_CFG) 1) })) ∧
    (∀ cause,
      (cause = 0 ∨ 4 < cause ∨ (u.quayUp q = false ∧ 3 ≤ cause) → exec (.quayLossOfLock q cause at_) s = .next u) ∧
      (u.quayUp q = false → cause = 1 ∨ cause = 2 → ∃ t : State, exec (.quayLossOfLock q cause at_) s = .next t ∧ t = { u with regs := t.regs } ∧
        t.quayUp q = false ∧ t.quayLocked q = false ∧ t.flag (quayAddr q R.QY_STAT) 4 = u.flag (quayAddr q R.QY_STAT) 4)) ∧
    (∀ cause, u.quayUp q = true → 1 ≤ cause → cause ≤ 4 → ∃ t : State, exec (.quayLossOfLock q cause at_) s = .next t ∧ same t u ∧ t.mem = u.mem ∧
      t.berths = u.berths ∧ t.quayUp q = false ∧ t.quayLocked q = false ∧ t.flag (quayAddr q R.QY_STAT) 4 = true ∧
      t.quay q = { k with held := none, downCause := cause, downAt := u.htime, failing := true } ∧
      (cause = 4 → t.flag (quayAddr q R.QY_STAT) 3 = true)) ∧
    (tsorted u.berths = true → (∀ e ∈ u.berths, e.2.id = e.1) → (∀ e ∈ u.quays, tsorted e.2.table = true) →
      ∃ t : State, exec (.quayFailover q at_) s = .next t.afterFailover.startWaiting ∧ same t u ∧ t.mem = u.mem ∧ (t.quay q).failing = false ∧
      ((∀ f ∈ t.flying, f.why ≠ .failover) → t.afterFailover = t) ∧
      ∀ b x, u.berth b = some x → ∃ y : Berth, t.berth b = some y ∧ y.side = x.side ∧
        (¬ (x.stream.bound = true ∧ x.stream.held = false ∧ x.stream.quay = q) → y = x) ∧
        (x.stream.bound = true → x.stream.held = false → x.stream.quay = q →
          let p := bitsOf (u.entryWord q x.stream.entry 10) 7 0
          let moves := p ≠ 255 ∧ x.stream.spent = false
          y.stream.queue = [] ∧ y.stream.seq = x.stream.seq ∧ (y.stream.held = false ↔ moves ∧ u.quayUp p = true) ∧
          (moves → y.stream.quay = p ∧ y.stream.entry = bitsOf (u.entryWord q x.stream.entry 10) 16 8 ∧ y.stream.spent = true) ∧
          (¬ moves → y.stream.quay = q)))

/-- Ferry manifests and Lighter jobs start in order, move, fill, compare and write rows as given, complete once, and engine faults fault or stop them.
An idle engaged berth's oldest manifest starts, or completes at once with ABORTED or DENIED. A FILL stores the value in every destination word, a COPY
without overlap the source words, a COMPARE stores nothing and finds the first difference; nothing else of memory changes, for accesses that pass the
ledger and find sound words, that no later store of the core replaced; an abort before the first word moves nothing. A stream unit moves 32 words of
its ring. The next job in PUSH order starts within its limits; a FILL or a COPY row of 16-bit pixels is stored word by word, and completion is
reported once. An engine fault records its cause; a second within 1 s stops the engine, whose items then complete with FAULT. (10_ferry_lighter.md
R345, 10_ferry_lighter.md R349, 10_ferry_lighter.md R362, 10_ferry_lighter.md R364, 10_ferry_lighter.md R367, 10_ferry_lighter.md R369,
10_ferry_lighter.md R372, 10_ferry_lighter.md R374, 10_ferry_lighter.md R377, 10_ferry_lighter.md R379, 10_ferry_lighter.md R380, 10_ferry_lighter.md
R381) -/
def Obligations.FerryAndLighterItems : Prop :=
  (∀ (s : State) (b at_ n : Nat) (x : Berth) (f : FItem) (l : List FItem), s.berth b = some x → x.id = b → x.fq = f :: l → l.all (fun g => g.ch ≠ f.ch) = true →
    (∀ e ∈ x.stores, e.1 ≤ f.trig) →
    let u := s.at at_
    let m : Master := { cls := 1, id := b }
    let stopped := s.engineStopped x.die x.dock 0
    let done := fun (y : Berth) (r c d : Nat) => y.fq = l ∧
      y.outside = x.outside ++ [{ chg := .ferryDone f.ch r c d (bitOf (itemWord f.man 0) 10) }] ∧ y.side = x.side
    (f.started = true ∨ x.engaged = false → exec (.ferryManifestStart b at_) s = .next s) ∧
    (u.berth b = some x → f.started = false → x.engaged = true → stopped = true →
      ∃ (t : State) (y : Berth), exec (.ferryManifestStart b at_) s = .next t ∧ t.mem = u.mem ∧ t.berth b = some y ∧ done y 10 0 0) ∧
    (u.berth b = some x → f.started = false → x.engaged = true → stopped = false →
      (f.aborted = true → ∃ (t : State) (y : Berth), exec (.ferryManifestStart b at_) s = .next t ∧ t.mem = u.mem ∧ t.berth b = some y ∧ done y 5 0 0) ∧
      (f.aborted = false → f.rightsOk = false → ∃ (t : State) (y : Berth), exec (.ferryManifestStart b at_) s = .next t ∧ t.mem = u.mem ∧ t.berth b = some y ∧ done y 8 0 0) ∧
      (f.aborted = false → f.rightsOk = true → exec (.ferryManifestStart b at_) s = .next (u.setBerth { x with fq := { f with started := true } :: l }))) ∧
    (let len := manLen f.man
     let at2 := fun (k : Kind) (a : Nat → Nat) => ∀ i, i < len → u.clear x.die (a i) m k = true
     let once := ∀ i j, i < len → j < len → f.dst i = f.dst j → i = j
     let wpk := fun i => pkgWord x.die (f.dst i)
     let e := exec (.ferryManifestComplete b n at_) s
     (f.started = false → e = .next s) ∧
     (u.berth b = some x → f.started = true → manStream f.man = false ∨ x.engaged = true → stopped = true →
       ∃ (t : State) (y : Berth), e = .next t ∧ t.mem = u.mem ∧ t.berth b = some y ∧ done y 10 f.moved 0) ∧
     (u.berth b = some x → f.started = true → manStream f.man = false → stopped = false → f.aborted = true → n = 0 →
       ∃ (t : State) (y : Berth), e = .next t ∧ t.mem = u.mem ∧ t.berth b = some y ∧ done y 5 0 0) ∧
     (u.berth b = some x → f.started = true → manStream f.man = true → x.engaged = true → stopped = false →
       (f.aborted = true → ∃ (t : State) (y : Berth), e = .next t ∧ t.mem = u.mem ∧ t.berth b = some y ∧ done y 5 f.moved 0) ∧
       (f.aborted = false → f.deadline = true → ∃ (t : State) (y : Berth), e = .next t ∧ t.mem = u.mem ∧ t.berth b = some y ∧ done y 4 f.moved 0)) ∧
     (u.berth b = some x → f.started = true → manStream f.man = false → stopped = false → f.aborted = false → Memory.wf u.mem = true →
       (manOp f.man = 1 → at2 .write f.dst → (bitOf (itemWord f.man 0) 7 = true → at2 .read f.dst) →
         ∃ (t : State) (y : Berth), e = .next t ∧ t.berth b = some y ∧ done y 1 len 0 ∧
           (∀ i, i < len → t.word (wpk i) = w16 (itemWord f.man 1)) ∧ (∀ w, (∀ i, i < len → w ≠ wpk i) → t.word w = u.word w)) ∧
       (manOp f.man = 0 → at2 .write f.dst → at2 .read f.src → (bitOf (itemWord f.man 0) 7 = true → at2 .read f.dst) → f.overlaps = false → once →
         ∃ (t : State) (y : Berth), e = .next t ∧ t.berth b = some y ∧ done y 1 len 0 ∧
           (∀ i, i < len → t.word (wpk i) = u.word (pkgWord x.die (f.src i))) ∧ (∀ w, (∀ i, i < len → w ≠ wpk i) → t.word w = u.word w)) ∧
       (manOp f.man = 2 → at2 .read f.dst → at2 .read f.src →
         let eq := fun i => u.word (pkgWord x.die (f.src i)) = u.word (wpk i)
         ((∀ i, i < len → eq i) → ∃ (t : State) (y : Berth), e = .next t ∧ t.mem = u.mem ∧ t.berth b = some y ∧ done y 2 len 0) ∧
         (∀ i, i < len → ¬ eq i → (∀ j, j < i → eq j) → ∃ (t : State) (y : Berth), e = .next t ∧ t.mem = u.mem ∧ t.berth b = some y ∧ done y 3 i i)))) ∧
    (let ch := bitsOf (itemWord f.man 1) 1 0
     ∀ ring, x.rx.getD ch none = some ring → x.rx.length = 4 →
      (f.started = true → x.engaged = true → stopped = false → manStream f.man = true → f.aborted = false → f.deadline = false → 32 ≤ ring.prod - ring.cons →
        f.moved + 32 < manLen f.man → u.berth b = some x → Memory.wf u.mem = true → ring.base / 2 ^ 29 = x.die →
        ring.base % 2 ^ 29 + 2 ^ ring.k ≤ 2 ^ 29 →
        (∀ i, i < 2 ^ ring.k → u.clear x.die (ring.base % 2 ^ 29 + i) m .read = true) →
        (∀ j, j < 32 → u.clear x.die (f.dst (f.moved + j)) m .write = true) →
        (∀ i j, i < 32 → j < 32 → f.dst (f.moved + i) = f.dst (f.moved + j) → i = j) →
        (∀ i j, i < 2 ^ ring.k → j < 32 → ring.base + i ≠ pkgWord x.die (f.dst (f.moved + j))) →
        ∃ (t : State) (y : Berth), exec (.ferryStreamUnit b at_) s = .next t ∧ t.berth b = some y ∧ y.fq = { f with moved := f.moved + 32 } :: l ∧
          y.rx.getD ch none = some { ring with cons := ring.cons + 32 } ∧ y.outside = x.outside ∧
          (∀ j, j < 32 → t.word (pkgWord x.die (f.dst (f.moved + j))) = u.word (ring.base + (ring.cons + j) % 2 ^ ring.k))) ∧
      (ring.prod - ring.cons < 32 → exec (.ferryStreamUnit b at_) s = .next s))) ∧
  (∀ (s : State) (b at_ : Nat) (x : Berth) (j : LItem), s.berth b = some x → x.id = b →
    let u := s.at at_
    let m : Master := { cls := 2, id := b }
    let stopped := s.engineStopped x.die x.dock 1
    (x.lq.find? (fun e => decide (e.seq = x.nextJob) && !e.started) = some j → x.deadJobs = [] → x.engaged = true →
      (x.lq.filter (fun e => e.started)).length < 2 → s.dockJobs x.die x.dock < 8 →
      (∀ e ∈ x.lq, e.started = true → j.waitsFor e = false) → u.berth b = some x →
      (stopped = false → j.rightsOk = true → exec (.lighterJobStart b at_) s = .next (u.setBerth { x with
        nextJob := x.nextJob + 1, lq := x.lq.map (fun e => if e.seq = j.seq then { e with started := true } else e) })) ∧
      (stopped = true ∨ j.rightsOk = false → ∃ (t : State) (y : Berth), exec (.lighterJobStart b at_) s = .next t ∧ t.mem = u.mem ∧ t.berth b = some y ∧
        y.nextJob = x.nextJob + 1 ∧ y.lq = x.lq.filter (fun e => decide (e.seq ≠ j.seq)) ∧
        y.outside = x.outside ++ [{ chg := .lighterDone j.tag (if stopped then 10 else 8) (bitOf (itemWord j.words 0) 9) }])) ∧
    (x.lq.find? (fun e => decide (e.tag = j.tag) && e.started) = some j → x.engaged = true → u.berth b = some x →
      (∀ e ∈ x.lq, e.seq = j.seq → e = j) → (∀ e ∈ x.stores, e.1 ≤ j.trig) →
      let z := jobDest j.words
      let w := fun i => pkgWord x.die (j.dst j.rows i)
      let stored := fun (t : State) (v : Nat → Word) => (∀ i, i < z.1 → t.word (w i) = v i) ∧ (∀ a, (∀ i, i < z.1 → a ≠ w i) → t.word a = u.word a)
      let row := fun (y : Berth) => y.lq = x.lq.map (fun e => if e.seq = j.seq then { j with rows := j.rows + 1 } else e) ∧ y.side = x.side ∧
        y.outside.take (x.outside.length + 1) = x.outside ++ [{ chg := .lighterRows j.tag (j.rows + 1) }]
      (j.result = none → j.rows < z.2 → jobBits j.words = 16 → Memory.wf u.mem = true → stopped = false →
        (∀ i, i < z.1 → u.clear x.die (j.dst j.rows i) m .write = true) → (∀ i i', i < z.1 → i' < z.1 → w i = w i' → i = i') →
        (jobOp j.words = 1 → ∃ (t : State) (y : Berth), exec (.lighterRowComplete b j.tag at_) s = .next t ∧ t.berth b = some y ∧ row y ∧
          stored t (fun _ => w16 (itemWord j.words 9))) ∧
        (jobOp j.words = 0 → jobXf j.words = 0 → meets j.srcSpan j.dstSpan = false →
          (∀ i, i < z.1 → u.clear x.die (j.src j.rows i) m .read = true) →
          ∃ (t : State) (y : Berth), exec (.lighterRowComplete b j.tag at_) s = .next t ∧ t.berth b = some y ∧ row y ∧
            stored t (fun i => u.word (pkgWord x.die (j.src j.rows i))))) ∧
      (stopped = true → j.result = none → j.rows < z.2 → ∃ (t : State) (y : Berth), exec (.lighterRowComplete b j.tag at_) s = .next t ∧ t.mem = u.mem ∧
        t.berth b = some y ∧ y.lq = x.lq.filter (fun e => decide (e.seq ≠ j.seq)) ∧
        y.outside = x.outside ++ [{ chg := .lighterDone j.tag 10 (bitOf (itemWord j.words 0) 9) }]) ∧
      (j.result = none → j.rows < z.2 → exec (.lighterJobComplete b j.tag at_) s = .next s) ∧
      (j.result ≠ none ∨ z.2 ≤ j.rows → ∃ (t : State) (y : Berth), exec (.lighterJobComplete b j.tag at_) s = .next t ∧ t.mem = u.mem ∧ t.berth b = some y ∧
        y.lq = x.lq.filter (fun e => decide (e.seq ≠ j.seq)) ∧
        y.outside = x.outside ++ [{ chg := .lighterDone j.tag (if stopped then 10 else j.result.getD 1) (bitOf (itemWord j.words 0) 9) }]))) ∧
  (∀ (s : State) (d k e cause at_ : Nat), s.hasDie d = true → k < 16 → e < 2 →
    let u := s.at at_
    let err := dockAddr d k (if e = 0 then R.FY_ERR else R.LT_ERR)
    let stat := dockAddr d k (if e = 0 then R.FY_STAT else R.LT_STAT)
    let again := ∃ T, tfind u.engAt ((d * 16 + k) * 2 + e) = some T ∧ u.htime < T + 1000000000
    (cause % 4 = 0 ∨ s.engineStopped d k e = true → exec (.engineFault d k e cause at_) s = .next s) ∧
    (cause % 4 ≠ 0 → s.engineStopped d k e = false → tsorted u.regs = true → ∃ t : State, exec (.engineFault d k e cause at_) s = .next t ∧
      t.mem = u.mem ∧ t.reg err = u.reg err ||| cause % 4 ∧ tfind t.engAt ((d * 16 + k) * 2 + e) = some u.htime ∧
      (again → t.flag stat 8 = true ∧ t.faultLog.getLast?.map (·.code) = some 6) ∧
      (¬ again → t.flag stat 8 = u.flag stat 8 ∧ t.faultLog.getLast?.map (·.code) = some 5 ∧
        (tsorted u.berths = true → (∀ e ∈ u.berths, e.2.id = e.1) → ∀ x ∈ u.dockBerths d k, x.fq = [] → x.lq = [] → x ∈ t.dockBerths d k))))

/-- Voters outvote, exclude and halt; self-test slices queue, run, are cut by BUDGET and end with a record; scan entry clears secrets; the watchdog
restarts. A member in service that disagrees in a full triple is out of service, excluded where it rejoined within 1 s, counted, logged as VOTER, with
HIC source 429 pending; in a checked pair the core halts; berths stand; then waiting commands that now may start do so. A rejoin sets its bit and
time. A schedule queues a slice of each unit whose domain is ON and sets LATE. A turn marks the first ready slice running, or asks a rotation. BUDGET
requeues what is left. A slice's end drops it with a record: a signature that is not the expected one, or a check of the pipe in its turn, gives
RESULT 1, no failing bit 0, rows that the two spare rows of a slot's or pipe's memory carry 2, else 3; a cellar row takes a spare of its bank; a slot
becomes SPARE or RETIRED. While the TAP runs JTAG_SCAN_ENTER clears every secret and extends slot 5 of die 0 once. Only the harbourmaster's writes of
HB_WDOG act; a due count restarts, or shuts down when READY has not been set since the last. (14_watches_faults_selftest.md R514,
14_watches_faults_selftest.md R515, 14_watches_faults_selftest.md R516, 14_watches_faults_selftest.md R517, 14_watches_faults_selftest.md R518,
14_watches_faults_selftest.md R519, 14_watches_faults_selftest.md R521, 14_watches_faults_selftest.md R522, 16_boot_measurement.md R571,
17_pins_electrical.md R608, 17_pins_electrical.md R609, 17_pins_electrical.md R610) -/
def Obligations.HarbourCoresAreVotedAndSlicesRun : Prop :=
  (∀ (s : State) (d : Nat) (hm : Bool) (m at_ : Nat), s.hasVoter d hm = true → m < 3 →
    let u := s.at at_
    let a := dieAddr d R.ST_VOTE
    let k := if hm then 8 else 0
    let halted := if hm then u.hmHalt else u.deputyHalted d
    let soon := ∃ T, tfind u.voteAt (voteKey d hm m) = some T ∧ u.htime < T + 1000000000
    (halted = true ∨ u.flag a (k + m) = false → exec (.voterDisagree d hm m at_) s = .next u.startWaiting) ∧
    (halted = false → u.flag a (k + m) = true → tsorted u.regs = true →
      ∃ t : State, exec (.voterDisagree d hm m at_) s = .next t.startWaiting ∧ t.berths = u.berths ∧ t.mem = u.mem ∧
        t.fld a (k + 23) (k + 16) = (u.fld a (k + 23) (k + 16) + 1) % 256 ∧
        (u.fld a (k + 2) k = 7 → t.flag a (k + m) = false ∧ t.hmHalt = u.hmHalt ∧ t.flying = u.flying ∧
          t.flag (dieAddr d (R.HIC_PEND + 52)) 13 = true ∧ t.faultLog.getLast?.map (·.code) = some 8 ∧
          (soon → t.flag a (k + 3) = true) ∧ (¬ soon → t.flag a (k + 3) = u.flag a (k + 3))) ∧
        (u.fld a (k + 2) k ≠ 7 → if hm then t.hmHalt = true else t.deputyHalted d = true)) ∧
    (let stays := u.flag a (k + m) = true ∨ u.flag a (k + 3) = true ∨ halted = true
     (stays → exec (.voterRejoin d hm m at_) s = .next u) ∧
     (¬ stays → exec (.voterRejoin d hm m at_) s =
       .next { u.setFlag a (k + m) true with voteAt := tins u.voteAt (voteKey d hm m) u.htime }))) ∧
  (∀ (s : State) (d at_ : Nat), s.hasDie d = true →
    let u := s.at at_
    let cfg := dieAddr d R.ST_CFG
    let up := u.deputyHalted d = false ∧ u.serving = true
    let run := (u.slices.filter (fun z => decide (z.die = d) && z.running)).length
    let may := up ∧ (u.flag cfg 1 = true → run < u.fld cfg 12 8)
    (¬ (up ∧ u.flag cfg 0 = true) → exec (.selftestSchedule d at_) s = .next u) ∧
    (up → u.flag cfg 0 = true → ∃ t : State, exec (.selftestSchedule d at_) s = .next t ∧ t.mem = u.mem ∧ t.berths = u.berths ∧
      (∀ z ∈ u.slices, z ∈ t.slices) ∧
      (∀ z ∈ t.slices, z ∈ u.slices ∨ (z.die = d ∧ z.running = false ∧ z.left = sliceLen z.kind ∧ z.queuedAt = u.htime)) ∧
      (∀ e ∈ unitsOf d, (∀ c, sliceDomain e.1 e.2 = some c → u.domain d c = 0) → ∃ z ∈ t.slices, z.die = d ∧ z.kind = e.1 ∧ z.unit = e.2) ∧
      (tsorted u.regs = true → t.flag (dieAddr d R.ST_STAT) 16 = (u.flag (dieAddr d R.ST_STAT) 16 ||
        u.slices.any (fun z => decide (z.die = d) && !z.running && decide (z.queuedAt + u.reg (dieAddr d R.ST_PERIOD) * 1000000 < u.htime))))) ∧
    (¬ may → exec (.selftestTurnStart d at_) s = .next u) ∧
    (may → u.slices.find? (fun y => decide (y.die = d) && !y.running && (u.mayTurn y || (u.mayRotate y).isSome)) = none →
      exec (.selftestTurnStart d at_) s = .next u) ∧
    (∀ z, may → u.slices.find? (fun y => decide (y.die = d) && !y.running && (u.mayTurn y || (u.mayRotate y).isSome)) = some z →
      (∀ x m, u.mayRotate z = some (x, m) → exec (.selftestTurnStart d at_) s = .next (u.setBerth (x.askMove 2 x.dock m))) ∧
      (u.mayRotate z = none → ∃ t : State, exec (.selftestTurnStart d at_) s = .next t ∧ t.mem = u.mem ∧ t.berths = u.berths ∧
        t.slices = u.slices.map (fun y => if y.die = d ∧ y.kind = z.kind ∧ y.unit = z.unit then { y with running := true, turnAt := u.htime } else y) ∧
        (z.kind = 1 → tsorted u.regs = true → t.flag (dockAddr d z.unit R.DK_PIPE) 0 = true) ∧
        (z.kind = 5 → tsorted u.quays = true → (t.quay z.unit).sas = [])))) ∧
  (∀ (s : State) (d k n at_ : Nat) (z : Slice), s.hasDie d = true →
    let u := s.at at_
    u.runningSlice d k n = some z →
    (∀ b, u.budget d = some b →
      (u.htime < z.turnAt + b ∨ u.sliceNeeds z ≤ b → exec (.selftestBudgetEnd d k n at_) s = .next u) ∧
      (z.turnAt + b ≤ u.htime → b < u.sliceNeeds z → exec (.selftestBudgetEnd d k n at_) s = .next { u with
        slices := u.slices.filter (fun y => !decide (y.die = d ∧ y.kind = k ∧ y.unit = n)) ++
          [{ z with running := false, left := z.left - b * u.dclk d / 1200, queuedAt := u.htime }] })) ∧
    (∀ sig bit addr rows, k ≤ 6 → u.deputyHalted d = false → (∀ b, u.budget d = some b → u.sliceNeeds z ≤ b) →
      (k = 1 → (u.pipeOf d n).cur = none) →
      let v := u.at (z.turnAt + u.sliceNeeds z)
      let broken := sig % 2 ^ 32 ≠ (v.signature z).1 ∨ (k = 1 ∧ (v.pipeOf d n).testFault = true)
      let w := n * 32768 + addr % 32768
      let carries := if k = 6 then v.fld (dieAddr d (R.ST_REPAIR + 4 * bankOf w)) 5 0 < 32 else k ≤ 2 ∧ tget v.memRows (memKey z addr) 0 + max 1 rows ≤ 2
      let res := if k ≠ 6 ∧ broken then 1 else if bit = 255 then 0 else if carries then 2 else 3
      ∃ t : State, exec (.selftestSliceEnd d k n sig bit addr rows at_) s = .next t ∧
        (∀ y ∈ t.slices, ¬ (y.die = d ∧ y.kind = k ∧ y.unit = n)) ∧
        (∃ l : TestRec, t.testLog.getLast? = some l ∧ l.die = d ∧ l.kind = k ∧ l.unit = n ∧ l.htime = v.now ∧ l.result = res ∧
          (res ≤ 1 → l.bit = 255 ∧ l.repairs = 0 ∧ l.addr = 0) ∧
          (2 ≤ res → l.bit = bit ∧ l.addr = if k = 6 then w else addr) ∧
          (res = 2 → l.repairs = if k = 6 then 1 else max 1 rows)) ∧
        (k = 0 → n < 512 → tsorted v.slots = true →
          t.slot d (n / 32 % 16) (n % 32) = (if res = 0 ∨ res = 2 then 0 else 3)))) ∧
  (∀ (s : State) (at_ : Nat),
    let u := s.at at_
    (u.tapUp = false → exec (.jtagScanEnter at_) s = .next u) ∧
    (u.tapUp = true → ∃ t : State, exec (.jtagScanEnter at_) s = .next t ∧ t.sessions = [] ∧ t.attKey = none ∧ t.keyStore = none ∧ t.scanned = true ∧
      t.berths = u.berths ∧ t.mem = u.mem ∧
      (tsorted u.quays = true → ∀ q, u.hasQuay q = true → (t.quay q).sas = []) ∧
      (tsorted u.regs = true → t.measurement 0 5 =
        (if u.scanned then u.measurement 0 5 else sha384 (u.measurement 0 5 ++ sha384 [0x4A, 0x54, 0x41, 0x47, 0x2D, 0x53, 0x43, 0x41, 0x4E]))))) ∧
  (∀ (s : State) (r : Requester) (v at_ : Nat),
    let u := s.at at_
    let ok := u.enters r R.HB_WDOG true = true ∧ u.hasReq r = true
    let set := ({ u.setFld R.HB_WDOG 15 0 v with wdogAt := u.htime } : State).respond .done
    let kick := exec (.wdogKick r v at_) s
    let time := exec (.wdogTimeoutSet r v at_) s
    (¬ ok → kick = .next (u.respond .unsupported) ∧ time = .next (u.respond .unsupported)) ∧
    (ok → r ≠ .master ∨ u.hmHalt = true → kick = .next (u.respond .done) ∧ time = .next (u.respond .done)) ∧
    (ok → r = .master → u.hmHalt = false → time = .next set ∧ (bitsOf v 23 16 = 0xA5 → kick = .next set) ∧
      (bitsOf v 23 16 ≠ 0xA5 → kick = .next (u.respond .done)))) ∧
  (∀ (s : State) (w : BootIn) (at_ : Nat), s.keeper.phase = .on →
    let u := s.at at_
    let e := exec (.watchdogExpiry w at_) s
    let due := u.hmHalt = true ∨ u.wdogAt + max 100 (u.fld R.HB_WDOG 15 0) * 1000000 ≤ u.htime
    (¬ due → e = .next u) ∧
    (due → u.wdogFired = true → u.serving = false → ∃ t : State, e = .next t ∧ t.keeper.phase = .shut ∧ t.keeper.trip = false ∧ t.mem = [] ∧ t.berths = [] ∧
      (tsorted u.regs = true → t.flag R.KP_SHUT 1 = true)) ∧
    (due → ¬ (u.wdogFired = true ∧ u.serving = false) →
      let v : State := { (u.addFld R.HB_WDOG 31 24 1).warmRestart w with wdogAt := u.htime }
      let z : State := if v.serving = true then v.logFault 13 0 none 0 0 [0] else { v with wdogFired := true }
      e = .next z))

/-- POWER_SET and PW_MODE arm an entry or start a return; an entry starts at WAIT, is committed at AP4 or abandoned by a wake; a return ends ON.
POWER_SET of a domain already in the state completes at once; of one that leaves ON it arms the entry, with a CELG mask set, and stays in flight; of
one that returns to ON it starts the return and stays in flight, or waits while that domain's entry is armed or in progress. A granted write of
PW_MODE with ON starts the return of a domain in RET or OFF; with RET or OFF it arms an entry where Table 15-2 allows one; refused, it sets MODEERR
and changes no domain; ungranted it is answered as the gate answers. DOMAIN_ENTRY starts an armed entry, reading CHANGING, or abandons it with LASTAP
0 where a presentable source targets the deputy; an entry in progress is abandoned at the abort point of the first wake seen before AP4, and else
committed at AP4, where a CELG keeps the banks of its mask in RET and every other group. A wake event takes an entry it abandons to its abort point;
after a commit with AUTOWAKE it starts the return. An SX8's wake window hides a wake that does not stand on as a level until AP4. A finished return
leaves the domain ON, a dock's slots SPARE but for those RETIRED, its POWER_SETs complete, and lets the commands that wait for it go on. After each
event waiting commands that now may start do so. Stated for domains whose records are in canonical form. (13_harbour_interface.md R477,
15_power_keeper.md R524, 15_power_keeper.md R525, 15_power_keeper.md R526, 15_power_keeper.md R527, 15_power_keeper.md R528, 15_power_keeper.md R529,
15_power_keeper.md R530, 15_power_keeper.md R531, 15_power_keeper.md R532) -/
def Obligations.DomainsEnterAbandonAndReturn : Prop :=
  (∀ (s : State) (c : Cmd) (at_ : Nat),
    let u := s.at at_
    let v := u.fetched c
    let i := Instr.powerSet c at_
    let d := c.b 24
    let code := c.b 25
    let st := c.b 26
    let m := c.p 28 4
    let celg := 0x10 ≤ code ∧ code < 0x18
    u.takes 0x30 c = true → v.noDeputy 0x30 c = false → v.hasDie d = true → hasDomain d code = true → st ≤ 2 →
    (m = 0 ∨ (m = 255 ∧ celg)) → (st ≠ 0 → v.onlyOn d code = false) →
    (v.domain d code = st → exec i s = .next (v.answer c 0 st [])) ∧
    (v.domain d code ≠ 0 → st = 0 →
      ((∃ e ∈ v.entries, e.1 = d ∧ e.2.code = code ∧ e.2.committed = false) → StaysInFlight i s 0x30 c .start v.htime v) ∧
      ((∀ e ∈ v.entries, e.1 = d → e.2.code = code → e.2.committed = true) → StaysInFlight i s 0x30 c .domain v.htime (v.startReturn d code) ∧
        (v.domain d code = 1 ∨ v.domain d code = 2 → tsorted v.domains = true → (v.startReturn d code).domain d code = 3))) ∧
    (v.domain d code = 0 → st ≠ 0 → (∀ e ∈ v.entries, e.1 = d → e.2.committed = true) → v.mayLeaveOn d code st m = true → tsorted v.regs = true →
      ∃ t : State, StaysInFlight i s 0x30 c .entry v.htime t ∧ tfind t.entries d = some { code := code, st := st, auto := false } ∧
        (celg → t.retByte d (code - 0x10) = m) ∧ t = { v with entries := t.entries, regs := t.regs })) ∧
  (∀ (s : State) (r : Requester) (d v at_ : Nat),
    let u := s.at at_
    let a := dieAddr d R.PW_MODE
    let code := v % 32
    let st := bitsOf v 9 8
    let i := if st = 0 then Instr.pwModeOn r d v at_ else Instr.pwModeArm r d v at_
    let m := if 0x10 ≤ code ∧ code < 0x18 then u.retByte d (code - 0x10) else 0
    let bad := u.arming d = true ∨ hasDomain d code = false ∨
      (st ≠ 0 ∧ (st = 3 ∨ u.onlyOn d code = true ∨ u.domain d code ≠ 0 ∨ u.mayLeaveOn d code st m = false))
    ((u.gate r a true).1 = none → exec i s = .next (u.gate r a true).2) ∧
    (∀ l, (u.gate r a true).1 = some l → tsorted u.regs = true → tsorted u.domains = true →
      ∃ t : State, exec i s = .next t ∧ t.bus = .done ∧ t.mem = u.mem ∧ t.berths = u.berths ∧
        (bad → t.flag a 17 = true ∧ t.domains = u.domains ∧ t.entries = u.entries) ∧
        (¬ bad → st ≠ 0 → t.domains = u.domains ∧ tfind t.entries d = some { code := code, st := st, auto := bitOf v 12 }) ∧
        (¬ bad → st = 0 → t.entries = u.entries ∧ (u.domain d code = 0 ∨ u.domain d code = 3 → t.domains = u.domains) ∧
          (u.domain d code = 1 ∨ u.domain d code = 2 → t.domain d code = 3 ∧ tfind t.domains (backKey d code) = some (u.domain d code))))) ∧
  (∀ (s : State) (d ap1 src at_ : Nat) (e : Entry), s.hasDie d = true →
    let u := s.at at_
    let en := exec (.domainEntry d ap1 at_) s
    let w := exec (.domainEntryAbandon d src at_) s
    let pw := dieAddr d R.PW_ENTRY
    let dropped := fun (v t : State) (ap : Nat) => t.domain d e.code = 0 ∧ tfind t.entries d = none ∧ t.fld pw 2 0 = ap ∧
      t.fld pw 15 8 = (v.fld pw 15 8 + 1) % 256 ∧ t.mem = v.mem ∧ t.berths = v.berths
    let hidden := fun (v : State) (p : Nat × Nat) => v.part = .sx8 ∧ v.abortPoint d e 3 ≤ p.2 ∧ p.2 < v.abortPoint d e 3 + v.dclkNs d 5
    let seen := fun (v : State) (p : Nat × Nat) => p.2 < v.abortPoint d e 4 ∧ v.wakes d p.1 = true ∧
      (hidden v p → levelKind d p.1 = true ∧ v.hicLevel d p.1 = true)
    let point := fun (v : State) (p : Nat × Nat) => if hidden v p then 4 else if p.2 ≤ v.abortPoint d e 1 then 1
      else if p.2 ≤ v.abortPoint d e 2 then 2 else if p.2 ≤ v.abortPoint d e 3 then 3 else 4
    tfind u.entries d = some e → tsorted u.entries = true → tsorted u.domains = true → tsorted u.regs = true →
    (e.startAt = none →
      ((u.hicTop d 0).isSome = true → ∃ t : State, en = .next t.startWaiting ∧ dropped u t 0) ∧
      (u.hicTop d 0 = none → ∃ (t : State) (f : Entry), en = .next t.startWaiting ∧ t.domain d e.code = 3 ∧ t.mem = u.mem ∧ t.berths = u.berths ∧
        tfind t.entries d = some f ∧ f.startAt = some u.htime ∧ f.sets = [] ∧ f.code = e.code ∧ f.st = e.st ∧ f.auto = e.auto) ∧
      w = .next u.startWaiting) ∧
    (e.startAt ≠ none → e.committed = true →
      en = .next u.startWaiting ∧
      (let late := (∃ p ∈ e.sets, p.1 = src ∧ u.abortPoint d e 4 ≤ p.2) ∧ u.wakes d src = true
       (¬ late → w = .next u.startWaiting) ∧
       (late → ∃ t : State, w = .next t.startWaiting ∧ tfind t.entries d = none ∧ t.mem = u.mem ∧ t.berths = u.berths ∧
         (u.domain d e.code = 1 ∨ u.domain d e.code = 2 → t.domain d e.code = 3)))) ∧
    (e.startAt ≠ none → e.committed = false →
      ((∀ p ∈ e.sets, ¬ seen u p) →
        (u.htime < u.abortPoint d e 4 → en = .next u.startWaiting ∧ w = .next u.startWaiting) ∧
        (u.abortPoint d e 4 ≤ u.htime → ∃ t : State, en = .next t.startWaiting ∧ t.domain d e.code = e.st ∧ t.berths = u.berths ∧
          (tfind t.entries d = if e.auto then some { e with committed := true } else none) ∧
          (e.code < 0x10 ∨ 0x18 ≤ e.code → t.mem = u.mem) ∧
          (Memory.wf u.mem = true → ∀ x, (∀ g, e.code = 0x10 + g → g < 8 → x / 2 ^ 29 = d → bitsOf (x % 2 ^ 29) 28 26 = g →
            e.st = 1 ∧ bitOf (u.retByte d g) (bankOf (x % 2 ^ 29) % 8) = true) → t.word x = u.word x))) ∧
      (∀ pre p post, e.sets = pre ++ p :: post → seen u p → (∀ q ∈ pre, ¬ seen u q) →
        (u.htime < u.abortPoint d e (point u p) → en = .next u.startWaiting) ∧
        (u.abortPoint d e (point u p) ≤ u.htime → ∃ t : State, en = .next t.startWaiting ∧ dropped u t (point u p)) ∧
        (let v := u.at (u.abortPoint d e (point u p))
         p.1 = src → (∀ q ∈ pre, ¬ seen v q) → seen v p → v.abortPoint d e (point v p) ≤ v.htime →
         tsorted v.entries = true → tsorted v.domains = true → tsorted v.regs = true →
         ∃ t : State, w = .next t.startWaiting ∧ dropped v t (point v p))))) ∧
  (∀ (s : State) (d code at_ : Nat), s.hasDie d = true →
    let u := s.at at_
    let r := exec (.domainReturnDone d code at_) s
    (tfind u.domains (backKey d code) = none ∨ u.domain d code ≠ 3 → r = .next u.startWaiting) ∧
    (∀ was, tfind u.domains (backKey d code) = some was → u.domain d code = 3 → tsorted u.domains = true → ∃ t : State,
      r = .next (State.startWaiting ((t.flying.filter (fun f => decide (f.why = .domain ∧ f.op ≠ 0x30))).foldl
        (fun (w : State) f => w.finish f (rerunBody f.op)) t)) ∧
      t.domain d code = 0 ∧ t.berths = u.berths ∧ (code < 0x10 ∨ 0x18 ≤ code → t.mem = u.mem) ∧
      (∀ f ∈ t.flying, ¬ (f.op = 0x30 ∧ f.cmd.b 24 = d ∧ f.cmd.b 25 = code ∧ f.why = .domain)) ∧
      (∀ f ∈ u.flying, ¬ (f.op = 0x30 ∧ f.cmd.b 24 = d ∧ f.cmd.b 25 = code ∧ f.why = .domain) → f ∈ t.flying) ∧
      (code < 0x10 → tsorted u.slots = true → ∀ n, n < 17 → t.slot d code n = (if u.slot d code n = 3 then 3 else 0))))

/-- A power sample gives P and the credit and steps the package ladder; a thermal sample its die; AVSBus acknowledges, retries and faults; the trip
shuts down. PW_PKGPWR shows P and the credit, which falls by 0.1 ms above PSUS and rises by 0.025 ms else. A due step down at a sample steps the
package's DCLK ladder down while a die stands above the floor, else adds a priority level; a due step up first removes one. PW_TJ shows the sample and
the peak, HIC source 427 is set as the warning rises, and at THOT the die's ladder steps down, 10 ms apart. VDone shows the target in PW_AVSTGT;
without it 200 us send the write again once, with RETRIED; 400 us set FAULT and RAISEHOLD, drop the steps up and log AVSFAULT; RAISEHOLD clears after
1 s. At 115 C the shutdown of a thermal trip starts, THERMTRIP_N low. (15_power_keeper.md R535, 15_power_keeper.md R536, 15_power_keeper.md R537,
15_power_keeper.md R538, 15_power_keeper.md R539, 15_power_keeper.md R540, 15_power_keeper.md R541, 15_power_keeper.md R542, 15_power_keeper.md R546,
15_power_keeper.md R549) -/
def Obligations.PowerThermalAndAvsbus : Prop :=
  (∀ (s : State) (v0 i0 v1 i1 at_ : Nat),
    let u := s.at at_
    let quays := (List.range (u.part.dies * 18)).foldl (fun n q =>
      n + (if u.flag (quayAddr q R.QY_CFG) 0 then (if u.flag (quayAddr q R.QY_CFG) 1 then 7 else 11) else 0)) 0
    let p := min 65535 ((v0 * i0 + v1 * i1) / 100000 + quays + 60 * u.part.dies)
    let psus := u.part.powerLimits.1
    let ppeak := u.part.powerLimits.2
    let cr := if psus < p then u.pw.credit - 4 else min 60000 (u.pw.credit + 1)
    let down := (cr = 0 ∧ psus < p) ∨ (ppeak < p ∧ ppeak < u.pw.lastP)
    let acted := fun n => u.since u.pw.pack.acted n = true
    let lad := u.fld R.PW_LADDER 5 4
    let skip := u.fld R.PW_LADDER 11 8
    let above := (∃ d, d < u.part.dies ∧ u.ladderStep d < u.floorStep) ∧ lad < u.floorStep
    tsorted u.regs = true → u.pw.credit ≤ 60000 →
    ∃ t : State, exec (.powerSample v0 i0 v1 i1 at_) s = .next t ∧ t.mem = u.mem ∧ t.berths = u.berths ∧ t.pw.credit = cr ∧ t.pw.lastP = p ∧
      t.fld R.PW_PKGPWR 15 0 = p ∧ t.fld R.PW_PKGPWR 31 16 = cr / 40 ∧
      (down → acted (if ppeak < p then 1000000 else 10000000) →
        (above → t.fld R.PW_LADDER 5 4 = lad + 1 ∧ t.fld R.PW_LADDER 11 8 = skip) ∧
        (¬ above → skip < 8 → t.fld R.PW_LADDER 11 8 = skip + 1 ∧ t.fld R.PW_LADDER 5 4 = lad)) ∧
      (¬ down → 9 * psus < 10 * p → t.fld R.PW_LADDER 5 4 = lad ∧ t.fld R.PW_LADDER 11 8 = skip) ∧
      (¬ down → 10 * p ≤ 9 * psus → (∃ T, u.pw.pack.low = some T ∧ T + 100000000 ≤ u.htime) → 30000 ≤ cr → u.raiseHold = false → acted 100000000 →
        0 < skip → t.fld R.PW_LADDER 11 8 = skip - 1 ∧ t.fld R.PW_LADDER 5 4 = lad)) ∧
  (∀ (s : State) (d tj at_ : Nat), s.hasDie d = true → tj < 256 →
    let u := s.at at_
    let a := dieAddr d R.PW_TJ
    let hot := u.fld R.PW_THPOL 15 8
    tsorted u.regs = true → ∃ t : State, exec (.thermalSample d tj at_) s = .next t ∧ t.mem = u.mem ∧ t.berths = u.berths ∧ t.fld a 7 0 = tj ∧
      t.fld a 15 8 = max (u.fld a 15 8) tj ∧
      (u.thermalLevel d = false → u.fld R.PW_THPOL 7 0 ≤ tj → t.flag (dieAddr d (R.HIC_PEND + 52)) 11 = true) ∧
      (hot ≤ tj → u.since (u.dieLadder d).acted 10000000 = true → u.fld a 17 16 < u.floorStep →
        t.fld a 17 16 = u.fld a 17 16 + 1 ∧ t.fld a 23 20 = u.fld a 23 20) ∧
      (tj < hot → hot < tj + 5 → t.fld a 17 16 = u.fld a 17 16 ∧ t.fld a 23 20 = u.fld a 23 20)) ∧
  (∀ (s : State) (at_ : Nat),
    let u := s.at at_
    let retry := exec (.avsRetryTimeout at_) s
    let fault := exec (.avsFaultTimeout at_) s
    let st := R.PW_AVSSTAT
    (u.pw.avs = none → exec (.avsStatusPoll true at_) s = .next u ∧ retry = .next u ∧ fault = .next u) ∧
    exec (.avsStatusPoll false at_) s = .next u ∧
    (∀ a, u.pw.avs = some a → tsorted u.regs = true →
      (∃ t : State, exec (.avsStatusPoll true at_) s = .next t ∧ t.mem = u.mem ∧
        (if a.rail = 0 then t.fld R.PW_AVSTGT 15 0 = a.target % 65536 else t.fld R.PW_AVSTGT 31 16 = a.target % 65536) ∧
        (u.pw.ups = [] → u.pw.bootFault = false → t.pw.queue = u.pw.queue.tail ∧
          (t.pw.avs = match u.pw.queue with | [] => none | e :: _ => some ⟨e.1, e.2, u.htime, false⟩))) ∧
      (a.retried = true ∨ u.htime < a.startAt + 200000 → retry = .next u) ∧
      (a.retried = false → a.startAt + 200000 ≤ u.htime → ∃ t : State, retry = .next t ∧ t.mem = u.mem ∧ t.pw.avs = some { a with retried := true } ∧
        t.flag st 1 = true ∧ t.fld st 15 8 = (u.fld st 15 8 + 1) % 256 ∧ t.flag (dieAddr 0 (R.HIC_PEND + 52)) 10 = true) ∧
      (u.htime < a.startAt + 400000 → fault = .next u) ∧
      (a.startAt + 400000 ≤ u.htime → ∃ t : State, fault = .next t ∧ t.mem = u.mem ∧ t.flag st 2 = true ∧ t.raiseHold = true ∧ t.pw.holdAt = u.htime ∧
        t.pw.ups = [] ∧ t.faultLog.getLast?.map (·.code) = some 11 ∧ t.flag (dieAddr 0 (R.HIC_PEND + 52)) 10 = true)) ∧
    (let due := u.raiseHold = true ∧ u.pw.holdAt + 1000000000 ≤ u.htime
     (¬ due → exec (.raiseholdExpiry at_) s = .next u) ∧
     (due → tsorted u.regs = true → ∃ t : State, exec (.raiseholdExpiry at_) s = .next t ∧ t.mem = u.mem ∧ t.raiseHold = false))) ∧
  (∀ (s : State) (d tj at_ : Nat), s.hasDie d = true →
    let powered := s.keeper.phase = .on ∨ s.keeper.phase = .reset
    (¬ powered ∨ tj < 115 → exec (.thermalTrip d tj at_) s = .next s) ∧
    (powered → 115 ≤ tj → ∃ t : State, exec (.thermalTrip d tj at_) s = .next t ∧ t.thermTrip = true ∧ t.keeper.phase = .shut ∧
      t.keeper.trip = true ∧ t.mem = [] ∧ t.berths = [] ∧ (tsorted (s.kat at_).regs = true → t.flag R.KP_STAT 4 = true ∧ t.flag R.KP_STAT 7 = true)))

/-- Cold boot reaches READY or fails with its code, cold reset keeps the keeper, measurement extends, the control store loads and switches, repairs
are recorded. COLD_BOOT acts in PHASE 1 of a powered package: it fails at step 3 with code 1 or 2, at step 4 with code 6, and with images that verify,
dies that answer and a usable profile it reaches PHASE 3 with the straps' profile and the firmware's version. PORST_N low for 10 us resets all but the
keeper, flash and OTP, and starts link training where PERST_N is high; the end of a reset since power-up does the same; under 1 us is nothing;
between, the spec says neither and the model draws one of the two (assumption log 9). MS_EXTGO extends a slot by SHA-384 and counts it. MC_LDATA2
writes a word of the idle bank at MC_LADDR unless PENDING; a check that matches sets IDLEOK and MC_IDLEVER; SWITCH exchanges the banks, or sets SWERR.
Unrecorded repairs join the record, written to the other copy. BERTH_START's time starts the berth, stated for a berth whose reference is berth time,
and then waiting commands that now may start. (01_package.md R49, 13_harbour_interface.md R469, 16_boot_measurement.md R559, 16_boot_measurement.md
R564, 16_boot_measurement.md R568, 16_boot_measurement.md R569, 16_boot_measurement.md R570, 16_boot_measurement.md R571, 16_boot_measurement.md R572,
16_boot_measurement.md R580, 16_boot_measurement.md R581, 17_pins_electrical.md R607) -/
def Obligations.BootMeasurementAndControlStore : Prop :=
  (∀ (s : State) (w : BootIn),
    let e := exec (.coldBoot w) s
    (s.phase ≠ 1 ∨ s.keeper.phase ≠ .on → e = .next s) ∧
    (s.phase = 1 → s.keeper.phase = .on → tsorted s.regs = true →
      let failed := fun (k c : Nat) => ∃ t : State, e = .next t ∧ t.phase = 5 ∧ t.fld R.HB_BOOTSTAT 11 8 = k ∧ t.fld R.HB_BOOTSTAT 15 12 = c ∧ t.berths = (s.advance w.took).berths
      (w.answers = false → failed 3 1) ∧
      (w.answers = true → s.bootDir = none → failed 3 2) ∧
      (∀ dir b, w.answers = true → s.bootDir = some (dir, b) → s.otp.revoked % 16 = 15 → failed 4 6) ∧
      (∀ dir b fw mc p, w.answers = true → w.dies = true → s.bootDir = some (dir, b) → s.otp.revoked % 16 ≠ 15 →
        s.loadImage dir 1 0 = some fw → s.loadImage dir 2 0 = some mc → s.loadImage dir 3 0 = some p →
        descOk (sliceD p.payload (128 * (w.straps % 4)) 128 0) = true →
        ∃ t : State, e = .next t ∧ t.serving = true ∧ t.fld R.HB_PRFSEL 1 0 = w.straps % 4 ∧ t.fwVer = fw.version ∧ t.mem = s.mem))) ∧
  (∀ (s : State) (dur : Nat),
    let e := exec (.coldReset dur) s
    let z := fun t : State => t.mem = [] ∧ t.berths = [] ∧ t.keeper.phase = .on ∧ t.htime = 0 ∧ t.flash = s.flash ∧
      t.otp = { s.otp with shut := false } ∧ (tsorted s.regs = true → ∀ a, 0x70000 ≤ a → a < 0x80000 → t.reg a = s.reg a) ∧
      (∀ n, n < 2 → (t.ep n).training = !(s.ep n).perst)
    (s.keeper.phase ≠ .on → s.keeper.phase ≠ .reset → e = .next s) ∧
    (s.keeper.phase = .reset → ∃ t : State, e = .next t ∧ z t) ∧
    (s.keeper.phase = .on → dur < 1000 → e = .next s) ∧
    (s.keeper.phase = .on → 10000 ≤ dur → ∃ t : State, e = .next t ∧ z t) ∧
    (s.keeper.phase = .on → 1000 ≤ dur → dur < 10000 → ∃ t : State, e = .next t ∧ (t = { s with draws := s.draws + 1 } ∨ z t))) ∧
  (∀ (s : State) (r : Requester) (d k v at_ : Nat), k < 16 →
    let u := s.at at_
    let c := dockAddr d k R.MC_CTL
    let la := dockAddr d k R.MC_LADDR
    let le := dockAddr d k R.MC_LEND
    let n := u.idleBank d k
    let no := fun (i : Instr) (a : Nat) => (u.gate r a true).1 = none → exec i s = .next (u.gate r a true).2
    let does := fun (i : Instr) (a : Nat) (z : State → Prop) => ∀ l, (u.gate r a true).1 = some l → ∃ t : State, exec i s = .next t ∧ t.bus = .done ∧
      t.mem = u.mem ∧ z t
    tsorted u.regs = true → tsorted u.cstore = true →
    no (.measureExtend r d v at_) (dieAddr d R.MS_EXTGO) ∧
    does (.measureExtend r d v at_) (dieAddr d R.MS_EXTGO) (fun t =>
      t.measurement d (v % 16) = sha384 (u.measurement d (v % 16) ++ (List.range 12).flatMap (fun j => le32 (u.reg (dieAddr d (R.MS_EXTDATA + 4 * j))))) ∧
      t.fld (dieAddr d (R.MS_CNT + 4 * (v % 16))) 15 0 = (u.fld (dieAddr d (R.MS_CNT + 4 * (v % 16))) 15 0 + 1) % 65536) ∧
    no (.mcLaddrWrite r d k v at_) la ∧
    does (.mcLaddrWrite r d k v at_) la (fun t => t.reg la = v % 4096 ∧ t.flag c 3 = false ∧ t.cstore = u.cstore) ∧
    no (.mcLoadWord r d k v at_) (dockAddr d k R.MC_LDATA2) ∧
    does (.mcLoadWord r d k v at_) (dockAddr d k R.MC_LDATA2) (fun t => t.reg la = (u.reg la + 1) % 4096 ∧ t.flag c 3 = false ∧
      (u.mcPending d k = true → t.cstore = u.cstore) ∧
      (u.mcPending d k = false → tsorted (u.csBank d k n).words = true → tget (t.csBank d k n).words (u.reg la) 0 =
        u.reg (dockAddr d k R.MC_LDATA0) + u.reg (dockAddr d k R.MC_LDATA1) * 2 ^ 32 + v % 65536 * 2 ^ 64)) ∧
    no (.mcCrcCheck r d k v at_) le ∧
    does (.mcCrcCheck r d k v at_) le (fun t => t.flag c 4 = true ∧ t.reg le = v % 2 ^ 32 ∧ t.cstore = u.cstore) ∧
    (s.hasDie d = true →
      (u.flag c 4 = false → exec (.mcCrcCheckDone d k at_) s = .next u) ∧
      (u.flag c 4 = true → ∃ t : State, exec (.mcCrcCheckDone d k at_) s = .next t ∧ t.flag c 4 = false ∧ t.mem = u.mem ∧
        (crc32 (u.csBank d k n).bytes = u.reg le → t.flag c 3 = true ∧
          t.reg (dockAddr d k R.MC_IDLEVER) = u.reg (dockAddr d k R.MC_LVER) ∧ (t.csBank d k n).ver = u.reg (dockAddr d k R.MC_LVER)) ∧
        (crc32 (u.csBank d k n).bytes ≠ u.reg le → t.flag c 3 = u.flag c 3 ∧ t.cstore = u.cstore))) ∧
    no (.mcSwitch r d k v at_) c ∧
    does (.mcSwitch r d k v at_) c (fun t =>
      let may := bitOf v 1 = true ∧ u.flag c 3 = true ∧ u.mcPending d k = false
      t.cstore = u.cstore ∧
      (bitOf v 1 = false → t.fld c 0 0 = u.fld c 0 0 ∧ t.flag c 5 = (u.flag c 5 && !bitOf v 5)) ∧
      (bitOf v 1 = true → ¬ may → t.fld c 0 0 = u.fld c 0 0 ∧ t.flag c 5 = true) ∧
      (may → t.fld c 0 0 = n ∧ t.flag c 3 = false ∧ t.reg (dockAddr d k R.MC_VER) = (u.csBank d k n).ver % 2 ^ 32 ∧
        t.reg (dockAddr d k R.MC_IDLEVER) = (u.csBank d k (1 - n)).ver % 2 ^ 32))) ∧
  (∀ (s : State) (at_ : Nat),
    let u := s.at at_
    let e := exec (.repairRecordWrite at_) s
    (u.newRepairs = [] ∨ u.serving = false → e = .next u) ∧
    (∀ dir base, u.newRepairs ≠ [] → u.serving = true → u.directory (if u.flag R.HB_BOOTSTAT 16 then 0x10000 else 0) = some dir →
      repairBase dir = some base → ∃ t : State, e = .next t ∧ t.newRepairs = [] ∧ t.repairs = u.repairs ++ u.newRepairs ∧ t.repairCopy = 1 - u.repairCopy ∧
        t.repairSeq = (u.repairSeq + 1) % 2 ^ 32 ∧ t.mem = u.mem ∧ t.flash.tail = u.flash ∧
        t.flash.head?.map (·.1) = some (base + (1 - u.repairCopy) * 135168))) ∧
  (∀ (s : State) (b : Nat),
    (s.waiter b .time = none → exec (.berthStartTime b) s = .next s.startWaiting) ∧
    (∀ f x, s.waiter b .time = some f →
      let u := s.at (f.cmd.p 24 8)
      let w := { u with flying := u.flying.erase f }
      b < u.part.berthIds → w.berth b = some x → x.id = b → x.stateNo = 0 → w.startHeld = false → w.berthDown x = [] → f.cmd.p 24 8 ≤ u.htime % 2 ^ 64 →
      ∀ y, (w.startBerth x).berth b = some y → y.htimeMode = false →
        y.started = true ∧ y.side.core = { st := .run } ∧ y.side.bt = 0 ∧
        exec (.berthStartTime b) s = .next ((w.startBerth x).answer f.cmd 0 (u.htime % 2 ^ 64) []).startWaiting))

/-- Power-up, shutdown, supply return and loss, wakes, the calendar and its load: what the keeper does and what is left. PWRGD's rise ends a power-up,
with the package in reset and the keeper's registers kept; its absence sets PGFAIL, its fall SUPLOSS, GO of KP_SHUT starts too: each a shutdown, which
leaves the keeper alone powered, its enables PWREN3 to PWREN0 going in turn, 7 of KP_STAT standing until the hold-off has ended, when a held wake or
RESTART powers up again unless a trip was the cause. VKEEP's return makes every register its reset value but scratch, and powers up. A wake by its
MODE sets its bit and, with its power bit, powers up or is held. A calendar of 32768 cycles a second steps to the next second and stops at its last; a
low level wakes again. LOAD takes a staged time that is valid whole, with the day of the week, and refuses another with CALERR. (15_power_keeper.md
R547, 15_power_keeper.md R548, 15_power_keeper.md R549, 15_power_keeper.md R550, 15_power_keeper.md R551, 15_power_keeper.md R552, 15_power_keeper.md
R553, 15_power_keeper.md R554, 15_power_keeper.md R556) -/
def Obligations.KeeperPowersWakesAndCounts : Prop :=
  (∀ s : State,
    (s.keeper.phase ≠ .wait → exec .pwrgdRise s = .next s ∧ exec .pwrgdTimeout s = .next s) ∧
    (s.keeper.phase = .wait → ∃ t : State, exec .pwrgdRise s = .next t ∧ t.keeper.phase = .reset ∧ t.mem = [] ∧ t.berths = [] ∧ t.htime = 0 ∧ t.flash = s.flash ∧
      (tsorted s.regs = true → ∀ a, 0x70000 ≤ a → a < 0x80000 → t.reg a = s.reg a)) ∧
    exec .vkeepLoss s = .next { s with keeper := { s.keeper with vkeep := false } } ∧
    (s.keeper.vkeep = true → exec .vkeepApply s = .next s) ∧
    (s.keeper.vkeep = false → ∃ t : State, exec .vkeepApply s = .next t ∧ t.keeper.vkeep = true ∧ t.keeper.phase = .wait ∧ t.keeper.pwren = 15 ∧ t.mem = [] ∧
      t.berths = [] ∧ (∀ a, ¬ (R.KP_SCRATCH ≤ a ∧ a < R.KP_SCRATCH + 256) → t.reg a = regDefault s.part a % 2 ^ 32))) ∧
  (∀ (s : State), tsorted s.regs = true →
    let shut := fun (i : Instr) (bit : Nat) => ∃ t : State, exec i s = .next t ∧ t.keeper.phase = .shut ∧ t.keeper.trip = false ∧ t.mem = [] ∧ t.berths = [] ∧
      t.flag R.KP_STAT bit = true ∧ t.flag R.KP_STAT 7 = true
    (s.keeper.phase = .wait → shut .pwrgdTimeout 6) ∧
    (∀ at_, s.keeper.phase = .on ∨ s.keeper.phase = .reset → shut (.supplyLoss at_) 5) ∧
    (∀ at_, s.keeper.phase ≠ .on → s.keeper.phase ≠ .reset → exec (.supplyLoss at_) s = .next s) ∧
    (∀ ms, s.keeper.phase ≠ .shut → exec (.shutdownHoldoffEnd ms) s = .next s) ∧
    (let q := s.reg R.KP_SEQ
     let a := 1 + bitsOf q 23 16
     let b := a + bitsOf q 15 8
     ∀ ms, s.keeper.phase = .shut → ms < b + bitsOf q 7 0 → exec (.shutdownHoldoffEnd ms) s = .next { s with keeper := { s.keeper with
       pwren := if ms < 1 then 15 else if ms < a then 7 else if ms < b then 3 else 1 } }) ∧
    (∀ ms, s.keeper.phase = .shut → s.holdoffAt ≤ ms → ∃ t : State, exec (.shutdownHoldoffEnd ms) s = .next t ∧ t.keeper.vkeep = s.keeper.vkeep ∧
      t.thermTrip = false ∧ t.mem = s.mem ∧
      (ms < s.holdoffAt + 10 → t.keeper.phase = .shut ∧ t.keeper.pwren = 0 ∧ t.flag R.KP_STAT 8 = true ∧ t.flag R.KP_STAT 7 = s.flag R.KP_STAT 7) ∧
      (s.holdoffAt + 10 ≤ ms → t.flag R.KP_STAT 7 = false ∧ t.flag R.KP_STAT 8 = false ∧
        (if s.keeper.trip = false ∧ (s.keeper.held = true ∨ s.flag R.KP_SHUT 1 = true) then t.keeper.phase = .wait ∧ t.keeper.pwren = 15
          else t.keeper.phase = .off ∧ t.keeper.pwren = 0)))) ∧
  (∀ (s : State) (r : Requester) (v at_ : Nat),
    let u := s.at at_
    let e := exec (.keeperShutdown r v at_) s
    ((u.gate r R.KP_SHUT true).1 = none → e = .next (u.gate r R.KP_SHUT true).2) ∧
    (∀ l, (u.gate r R.KP_SHUT true).1 = some l → u.keeper.vkeep = true → u.keeper.phase = .on → tsorted u.regs = true →
      ∃ t : State, e = .next t ∧ t.bus = .done ∧ t.flag R.KP_SHUT 1 = bitOf v 1 ∧
        (bitOf v 0 = true → t.keeper.phase = .shut ∧ t.keeper.trip = false ∧ t.mem = []) ∧
        (bitOf v 0 = false → t.keeper = u.keeper ∧ t.mem = u.mem))) ∧
  (∀ (s : State) (n at_ : Nat) (level : Bool), n < 4 →
    let u := s.kat at_
    let m := u.fld R.KP_WAKECFG (4 * n + 1) (4 * n)
    let old := u.flag R.KP_WAKESTAT (8 + n)
    let hit := (m = 1 ∧ old = false ∧ level = true) ∨ (m = 2 ∧ old = true ∧ level = false) ∨ (m = 3 ∧ level = false)
    let on := u.flag R.KP_WAKECFG (4 * n + 2)
    (u.keeper.vkeep = false → exec (.keeperWake n level at_) s = .next u) ∧
    (u.keeper.vkeep = true → tsorted u.regs = true → ∃ t : State, exec (.keeperWake n level at_) s = .next t ∧ t.mem = u.mem ∧
      t.flag R.KP_WAKESTAT (8 + n) = level ∧ (hit → t.flag R.KP_WAKESTAT n = true) ∧
      (¬ hit → t.flag R.KP_WAKESTAT n = u.flag R.KP_WAKESTAT n ∧ t.keeper = u.keeper) ∧
      (hit → on = true → u.keeper.phase = .off → t.keeper.phase = .wait ∧ t.keeper.pwren = 15) ∧
      (hit → on = true → u.keeper.phase = .shut → t.keeper.held = true ∧ t.keeper.phase = .shut) ∧
      (hit → on = false ∨ u.keeper.phase = .on → t.keeper = u.keeper))) ∧
  (∀ (s : State) (n at_ : Nat),
    let u := s.kat at_
    let e := exec (.calendarTick n at_) s
    let sub := u.fld R.KP_CALTIME 31 17 + n
    (u.keeper.vkeep = false ∨ n = 0 → e = .next u) ∧
    (u.keeper.vkeep = true → n ≠ 0 → u.cal.ok = true → tsorted u.regs = true → ∃ t : State, e = .next t ∧ t.mem = u.mem ∧
      (∀ k, k < 4 → u.fld R.KP_WAKECFG (4 * k + 1) (4 * k) = 3 → u.flag R.KP_WAKESTAT (8 + k) = false → t.flag R.KP_WAKESTAT k = true) ∧
      (u.cal.last = true → t.cal = u.cal ∧ t.flag R.KP_STAT 2 = true) ∧
      (u.cal.last = false → sub < 32768 → t.cal = u.cal ∧ t.fld R.KP_CALTIME 31 17 = sub) ∧
      (u.cal.last = false → 32768 ≤ sub → sub < 65536 → t.cal = u.cal.next ∧
        t.fld R.KP_CALTIME 31 17 = (if u.cal.next.last then 0 else sub - 32768) ∧
        (u.cal.next.last = true → t.flag R.KP_STAT 2 = true)))) ∧
  (∀ (s : State) (r : Requester) (v at_ : Nat),
    let u := s.at at_
    let e := exec (.calLoad r v at_) s
    let c := calOf (u.reg R.KP_CALNTIME) (u.reg R.KP_CALNDATE)
    ((u.gate r R.KP_CALCTL true).1 = none → e = .next (u.gate r R.KP_CALCTL true).2) ∧
    (∀ l, (u.gate r R.KP_CALCTL true).1 = some l → u.keeper.vkeep = true → tsorted u.regs = true →
      ∃ t : State, e = .next t ∧ t.bus = .done ∧ t.mem = u.mem ∧ t.fld R.KP_CALCTL 15 8 = bitsOf v 15 8 ∧
        (bitOf v 0 = false → t.cal = u.cal ∧ t.reg R.KP_STAT = u.reg R.KP_STAT) ∧
        (bitOf v 0 = true → c.ok = false → t.cal = u.cal ∧ t.flag R.KP_STAT 1 = true) ∧
        (bitOf v 0 = true → c.ok = true → t.cal = c ∧ t.fld R.KP_CALTIME 31 17 = 0 ∧ t.fld R.KP_CALDATE 14 12 = weekDay c.y c.mo c.d ∧
          t.flag R.KP_STAT 0 = true ∧ t.flag R.KP_STAT 2 = c.last)))

/-- GPIO functions, drives and events, GENLOCK stamps, fan seconds, ADC conversions and the reference clock: what each does to its registers. A
granted write of GP_CFGn takes the setting, or sets CFGERR and changes nothing where the pin has no such function; a change of FUNC starts a switch,
which a write during it joins: from edge 2 of the first write the device drives nothing, at edge 3 of the last the new function drives the pad. A
write of GP_OUT or GP_OE takes each bit its writer may drive and no later writer of the cycle has written; a pad that the device drives anew takes its
level. The board's level reaches a pad that the device does not drive; the change shows in its synchronised level, sets the event flag of its EVT
mode, and HIC source 448 + n where the pin is not lent. A rising edge counts and stamps GENLOCK, stated for a pad whose synchronised level follows it.
At a whole second each GP_TACH takes the falling edges counted, STALL after two seconds without one. A conversion stores floor(4096 V / 1.5 V), at
most 4095, and counts. A lost reference sets REFLOSS and holdover on every die; requalified, REFOK returns and harbour time takes the offset then
found. (01_package.md R38, 03_beam_time.md R104, 17_pins_electrical.md R588, 17_pins_electrical.md R589, 17_pins_electrical.md R590,
17_pins_electrical.md R591, 17_pins_electrical.md R592, 17_pins_electrical.md R593, 17_pins_electrical.md R594, 17_pins_electrical.md R595,
17_pins_electrical.md R601, 17_pins_electrical.md R603) -/
def Obligations.PinsTachometersAdcAndReference : Prop :=
  (∀ (s : State) (r : Requester) (n v at_ : Nat), n < 48 →
    let u := s.at at_
    let a := R.GP_CFG + 4 * n
    let e := exec (.gpioFunctionSwitch r n v at_) s
    let f := v % 4
    let bad := f = 3 ∨ (f = 1 ∧ ¬ (n ≤ 6 ∨ (8 ≤ n ∧ n ≤ 25))) ∨ (f = 2 ∧ n < 40) ∨ (f ≠ 1 ∧ n ≤ 1) ∨ u.flag (R.LG_PIN + 4 * n) 11 = true
    ((u.gate r a true).1 = none → e = .next (u.gate r a true).2) ∧
    (∀ l, (u.gate r a true).1 = some l → tsorted u.regs = true → ∃ t : State, e = .next t ∧ t.bus = .done ∧ t.mem = u.mem ∧
      (bad → t.flag R.GP_STAT 0 = true ∧ t.reg a = u.reg a ∧ t.pads = u.pads ∧ t.sync = u.sync ∧ t.switches = u.switches) ∧
      (¬ bad → t.reg a = v % 4096 ∧ t.reg R.GP_STAT = u.reg R.GP_STAT) ∧
      (¬ bad → u.switchOf n = none → f ≠ u.fld a 1 0 → t.pads = u.pads ∧ t.sync = u.sync ∧
        t.switchOf n = some { pin := n, old := u.reg a, first := u.htime, last := u.htime }) ∧
      (¬ bad → u.switchOf n = none → f = u.fld a 1 0 → t.switches = u.switches ∧
        ((u.setReg a (v % 4096)).pinHolds n = true → t.flag (R.GP_EVTLO + 4 * (n / 32)) (n % 32) = true)) ∧
      (∀ w, ¬ bad → u.switchOf n = some w → t.pads = u.pads ∧ t.switchOf n = some { w with last := u.htime }))) ∧
  (∀ (s : State) (n : Nat) (w : Switch), n < 48 → s.switchOf n = some w →
    let t := s.pinEdges n
    let since := fun T => (s.htime - T) * s.dclk 0 / 1000
    (since w.first < 2 → since w.last < 3 → t = s) ∧
    (2 ≤ since w.first → since w.last < 3 → w.kept = false → t.switchOf n = some { w with kept := true } ∧ t.padDrive n = none ∧ t.mem = s.mem) ∧
    (3 ≤ since w.last → t.switchOf n = none ∧ t.mem = s.mem ∧ ∀ lv, t.padDrive n = some lv → bitOf t.pads n = lv)) ∧
  (∀ (s : State) (r : Requester) (j v at_ : Nat), j < 4 →
    let u := s.at at_
    let a := R.GP_OUTLO + 4 * j
    ((u.gate r a true).1 = none → exec (.gpioOutWrite r j v at_) s = .next (u.gate r a true).2) ∧
    (∀ l, (u.gate r a true).1 = some l → tsorted u.regs = true → ∃ t : State, exec (.gpioOutWrite r j v at_) s = .next t ∧ t.bus = .done ∧ t.mem = u.mem ∧
      (∀ i, i < 32 → let mine := (j % 2 = 0 ∨ i < 16) ∧ u.mayDrive r (j % 2 * 32 + i) = true ∧
          ∀ k, pinRank r < k → k < 5 → bitOf (tget u.cyc.bits (a * 8 + k) 0) i = false
        (mine → t.flag a i = bitOf v i) ∧ (¬ mine → t.flag a i = u.flag a i)) ∧
      (∀ n lv, n < 48 → t.padDrive n = some lv → u.padDrive n ≠ some lv → bitOf t.pads n = lv))) ∧
  (∀ (s : State) (n at_ : Nat) (level : Bool), n < 48 →
    let u := s.at at_
    let v : State := { u with outside := tins u.outside n level }
    let e := exec (.gpioEvent n level at_) s
    let cfg := u.pinCfg n
    let evt := R.GP_EVTLO + 4 * (n / 32)
    let m := bitsOf cfg 11 9
    let old := u.syncBit n
    let new := level && bitsOf cfg 1 0 != 2
    let edge := (m = 1 ∧ old = false ∧ new = true) ∨ (m = 2 ∧ old = true ∧ new = false) ∨ (m = 3 ∧ old ≠ new)
    (∀ lv, u.padDrive n = some lv → ∃ t : State, e = .next t ∧ t.mem = u.mem ∧ bitOf t.pads n = lv ∧ tfind t.outside n = some level ∧
      (bitOf u.pads n = lv → t = v)) ∧
    (u.padDrive n = none → bitOf u.pads n = level → e = .next v) ∧
    (u.padDrive n = none → bitOf u.pads n ≠ level → tsorted u.regs = true → ∃ t : State, e = .next t ∧ t.mem = u.mem ∧ t.syncBit n = new ∧
      tfind t.outside n = some level ∧ (∀ k, bitOf t.pads k = if k = n then level else bitOf u.pads k) ∧
      (edge ∨ t.pinHolds n = true → t.flag evt (n % 32) = true) ∧
      (¬ edge → t.pinHolds n = false → t.reg evt = u.reg evt) ∧
      (edge → u.flag (R.LG_PIN + 4 * n) 11 = false → t.flag (R.HIC_PEND + 4 * ((448 + n) / 32)) (n % 32) = true) ∧
      (bitsOf cfg 1 0 = 1 → old = true → level = false → 12 ≤ n → n < 16 → tsorted u.toggles = true →
        tget t.toggles (n - 12) 0 = tget u.toggles (n - 12) 0 + 1))) ∧
  (∀ (s : State) (at_ : Nat),
    let u := s.at at_
    let clk := fun d => dieAddr d R.HB_CLKSTAT
    tsorted u.regs = true →
    (∃ t : State, exec (.genlockEdge at_) s = .next t ∧ t.mem = u.mem ∧
      (bitsOf (u.pinCfg 25) 1 0 = 1 → bitOf u.pads 25 = bitOf u.sync 25 →
        t.reg R.GP_GLCNT = (u.reg R.GP_GLCNT + 1) % 2 ^ 32 ∧ t.reg R.GP_GLTSLO + t.reg R.GP_GLTSHI * 2 ^ 32 = u.now) ∧
      (bitsOf (u.pinCfg 25) 1 0 ≠ 1 → t.reg R.GP_GLCNT = u.reg R.GP_GLCNT)) ∧
    (∀ uv, (u.nextChannel = none → exec (.adcConversion uv at_) s = .next u) ∧
      (∀ c, u.nextChannel = some c → ∃ t : State, exec (.adcConversion uv at_) s = .next t ∧ t.mem = u.mem ∧ t.adcAt = c + 1 ∧
        t.fld (R.GP_ADC + 4 * c) 11 0 = min 4095 (4096 * uv / 1500000) ∧
        t.fld (R.GP_ADC + 4 * c) 31 16 = (u.fld (R.GP_ADC + 4 * c) 31 16 + 1) % 65536)) ∧
    (∃ t : State, exec (.refclkLoss at_) s = .next t ∧ t.mem = u.mem ∧ t.berths = u.berths ∧ ∀ d, d < u.part.dies →
      t.flag (clk d) 0 = false ∧ t.flag (clk d) 1 = true ∧ t.flag (clk d) 3 = true ∧
      (u.flag (clk d) 3 = false → t.flag (dieAddr d (R.HIC_PEND + 52)) 9 = true)) ∧
    (∃ (t : State) (o : Int), exec (.refclkRequalify at_) s = .next t ∧ t.mem = u.mem ∧ t.corr = u.corr + o * 5 ∧
      (u.flag R.HB_CLKSTAT 1 = false → o = 0 ∧ t.berths = u.berths) ∧
      (∀ b x, u.berth b = some x → ∃ y : Berth, t.berth b = some y ∧ y.side = x.side) ∧
      ∀ d, d < u.part.dies → t.flag (clk d) 0 = true ∧ t.flag (clk d) 1 = false ∧ t.flag (clk d) 3 = u.flag (clk d) 3)) ∧
  (∀ s : State,
    let u := s.at ((s.htime / 1000000000 + 1) * 1000000000)
    tsorted u.regs = true → tsorted u.toggles = true → ∃ t : State, exec .fanTachSecond s = .next t ∧ t.mem = u.mem ∧
      ∀ k, k < 4 → let n := tget u.toggles k 0
        t.fld (R.GP_TACH + 4 * k) 15 0 = min 65535 n ∧ tget t.toggles k 0 = 0 ∧
        t.flag (R.GP_TACH + 4 * k) 16 = decide (n = 0 ∧ 1 ≤ tget u.toggles (4 + k) 0))

/-- MCTP requests are answered on a transport that answers, with HIC source 497 set; SPDM is Busy before READY; sessions open, complete and end. While
the package is not on, the harbourmaster has halted, or the transport is the VDM of an endpoint that is absent, without link or with PERST_N low, a
request leaves the state as its time finds it; else it sets HIC source 497 and is answered on its transport. A vendor command that the host channel
accepts is carried out for the MCTP requester, waits where it must, and another opcode answers BADOPCODE; status, endpoint IDs, versions and message
types answer as given, EID 0 and 0xFF refused. Every SPDM request before READY answers Busy; then version 1.2, capabilities, algorithms, digests and
certificate pieces; CHALLENGE, signed measurements and KEY_EXCHANGE need the attestation key, at most four sessions stand, FINISH completes one and
END_SESSION ends one. Message codes and layouts are the model's, PRESUMED from the DMTF standards (assumption log 24), signatures and nonces open
bytes. (13_harbour_interface.md R482, 13_harbour_interface.md R483, 13_harbour_interface.md R484, 16_boot_measurement.md R574, 16_boot_measurement.md
R575, 16_boot_measurement.md R576) -/
def Obligations.MctpAndSpdmAreAnswered : Prop :=
  (∀ (s : State) (t at_ : Nat),
    let v := s.at at_
    let answers := v.keeper.phase = .on ∧ v.hmHalt = false ∧
      (t = 0 ∨ (t ≤ v.part.endpoints ∧ (v.ep (t - 1)).link = true ∧ (v.ep (t - 1)).perst = false))
    let u := v.hicSet 0 497
    let say := fun (i : Instr) (l : List Byte) => exec i s = .next { u with mctp := u.mctp ++ [(t, l)] }
    (tsorted v.regs = true → u.flag (dieAddr 0 (R.HIC_PEND + 60)) 17 = true) ∧ u.mem = v.mem ∧ u.berths = v.berths ∧
    (¬ answers → ∀ (a b c : Nat) (cmd : Cmd) (req : List Byte) (sg : Bool), ∀ i ∈ ([.mctpCommand t cmd at_, .mctpStatus ⟨t, at_⟩, .setEndpointId t b at_,
        .getEndpointId t at_, .getMctpVersionSupport ⟨t, at_⟩, .getMessageTypeSupport ⟨t, at_⟩, .getVersion ⟨t, at_⟩, .getCapabilities ⟨t, at_⟩ req,
        .negotiateAlgorithms ⟨t, at_⟩ req, .getDigests ⟨t, at_⟩, .getCertificate ⟨t, at_⟩ a b c, .challenge ⟨t, at_⟩ req, .getMeasurements ⟨t, at_⟩ sg a req,
        .keyExchange ⟨t, at_⟩ a req, .finish ⟨t, at_⟩ a req, .endSession ⟨t, at_⟩ a] : List Instr), exec i s = .next v) ∧
    (answers →
      say (.mctpStatus ⟨t, at_⟩) (leBytes 1 u.phase ++ leBytes 1 (u.fld R.HB_PRFSEL 1 0) ++ leBytes 1 (u.fld R.HB_PRFSEL 3 2) ++ [0] ++
        le32 (u.reg R.HB_PARTID) ++ le32 u.fwVer) ∧
      say (.getMessageTypeSupport ⟨t, at_⟩) [5, 0, 3, 0, 5, 0x7F] ∧
      say (.getEndpointId t at_) [2, 0, BitVec.ofNat 8 (tget u.eids t 0), 0, 0] ∧
      (∃ n, exec (.getMctpVersionSupport ⟨t, at_⟩) s = .next { u with draws := u.draws + 1, mctp := u.mctp ++ [(t, [4, 0, 1] ++ le32 n)] }) ∧
      (∀ eid, (eid % 256 = 0 ∨ eid % 256 = 255 → say (.setEndpointId t eid at_) [1, 2]) ∧
        (eid % 256 ≠ 0 → eid % 256 ≠ 255 → tsorted u.eids = true → ∃ w, exec (.setEndpointId t eid at_) s = .next w ∧
          w.mctp = u.mctp ++ [(t, [1, 0, 0, BitVec.ofNat 8 eid, 0])] ∧ w.mem = u.mem ∧ w.regs = u.regs ∧ w.berths = u.berths ∧
          tget w.eids t 0 = eid % 256 ∧ ∀ k, k ≠ t → tget w.eids k 0 = tget u.eids k 0)) ∧
      (∀ c : Cmd,
        let z := { c with ep := 2, ring := t, memOk := true }
        let op := c.opcode
        let known := op ∈ [0x01, 0x02, 0x1C, 0x06, 0x05, 0x39, 0x30, 0x31]
        let e := exec (.mctpCommand t c at_) s
        (u.serving = false → e = .next u) ∧
        (u.serving = true → ¬ known → e = .next { u with mctp := u.mctp ++ [(t, completionBytes z 1 0)] }) ∧
        (u.serving = true → known → u.mayStart op z = false →
          e = .next { u with flying := u.flying ++ [{ op := op, cmd := z, startAt := u.htime, why := .start }] }) ∧
        (u.serving = true → known → u.mayStart op z = true →
          (reservedSet op z = true → e = .next { u with mctp := u.mctp ++ [(t, completionBytes z 2 0)] }) ∧
          (reservedSet op z = false → u.noDeputy op z = false →
            (op = 0x01 → e = .next (u.conclude2 op z (cmdEcho u z))) ∧ (op = 0x02 → e = .next (u.conclude2 op z (cmdProfileQuery u z))) ∧
            (op = 0x06 → e = .next (u.conclude2 op z (cmdMeasureRead u z))) ∧ (op = 0x1C → e = .next (u.conclude2 op z (cmdBerthStatus u z))) ∧
            (op = 0x05 → e = .next (u.conclude2 op z (cmdFaultLogRead u z))) ∧ (op = 0x39 → e = .next (u.conclude2 op z (cmdSelftestReport u z))) ∧
            (op = 0x30 → e = .next (u.conclude2 op z (cmdPowerSet u z))) ∧ (op = 0x31 → e = .next (u.conclude2 op z (runThermalPolicy u z)))))))) ∧
  (∀ (s : State) (t at_ : Nat), (s.at at_).answersMctp t = true →
    let u := (s.at at_).hicSet 0 497
    let say := fun (i : Instr) (l : List Byte) => exec i s = .next { u with spdmSeq := u.spdmSeq + 1, mctp := u.mctp ++ [(t, l)] }
    let err := fun (c : Byte) => ([0x12, 0x7F, c, 0] : List Byte)
    let op := fun (req : List Byte) (k : Nat) => (List.range k).map (Config.spdmByte req u.spdmSeq)
    (u.serving = false → ∀ (a b c : Nat) (req : List Byte) (sg : Bool), ∀ i ∈ ([.getVersion ⟨t, at_⟩, .getCapabilities ⟨t, at_⟩ req,
        .negotiateAlgorithms ⟨t, at_⟩ req, .getDigests ⟨t, at_⟩, .getCertificate ⟨t, at_⟩ a b c, .challenge ⟨t, at_⟩ req, .getMeasurements ⟨t, at_⟩ sg a req,
        .keyExchange ⟨t, at_⟩ a req, .finish ⟨t, at_⟩ a req, .endSession ⟨t, at_⟩ a] : List Instr), say i (err 3)) ∧
    (u.serving = true → ∀ (req : List Byte) (a off len : Nat),
      say (.getVersion ⟨t, at_⟩) [0x10, 0x04, 0, 0, 0, 1, 0, 0x12] ∧
      say (.getCapabilities ⟨t, at_⟩ req) ([0x12, 0x61, 0, 0] ++ op req 4 ++ le32 0x2F6 ++ op req 8) ∧
      say (.negotiateAlgorithms ⟨t, at_⟩ req) ([0x12, 0x63, 0, 0] ++ le32 0x80 ++ le32 2 ++ leBytes 2 0x10 ++ leBytes 2 2 ++ op req 20) ∧
      (u.chain = none → say (.getDigests ⟨t, at_⟩) (err 5) ∧ say (.getCertificate ⟨t, at_⟩ a off len) (err 5)) ∧
      (∀ l, u.chain = some l → say (.getDigests ⟨t, at_⟩) ([0x12, 0x01, 0, 1] ++ sha384 l) ∧ (a ≠ 0 → say (.getCertificate ⟨t, at_⟩ a off len) (err 1)) ∧
        (a = 0 → off + len ≤ l.length → say (.getCertificate ⟨t, at_⟩ a off len)
          ([0x12, 0x02, 0, 0] ++ leBytes 2 len ++ leBytes 2 (l.length - off - len) ++ (l.drop off).take len))) ∧
      (u.attKey = none → say (.challenge ⟨t, at_⟩ req) (err 5) ∧ say (.keyExchange ⟨t, at_⟩ a req) (err 5) ∧ say (.getMeasurements ⟨t, at_⟩ true a req) (err 5)) ∧
      (u.attKey ≠ none → say (.challenge ⟨t, at_⟩ req) ([0x12, 0x03, 0, 1] ++ op req 224) ∧
        (4 ≤ u.sessions.length → say (.keyExchange ⟨t, at_⟩ a req) (err 3)) ∧
        (u.sessions.length < 4 → ∃ rsp v, rsp < 65536 ∧ exec (.keyExchange ⟨t, at_⟩ a req) s = .next v ∧
          v.mctp = u.mctp ++ [(t, [0x12, 0x64, 0, 0] ++ leBytes 2 rsp ++ op req 320)] ∧ v.spdmSeq = u.spdmSeq + 1 ∧ v.mem = u.mem ∧
          v.sessions = u.sessions ++ [{ id := a % 65536 + rsp * 65536 }])) ∧
      say (.getMeasurements ⟨t, at_⟩ false 0 req) [0x12, 0x60, BitVec.ofNat 8 (16 * u.part.dies), 0, 0, 0, 0, 0] ∧
      (0 < a → a ≤ 16 * u.part.dies → say (.getMeasurements ⟨t, at_⟩ false a req) ([0x12, 0x60, 0, 0, 1] ++ leBytes 3 55 ++ u.measureBlock a)) ∧
      (let l := u.sessions.any (fun z => decide (z.id = a) && !z.done)
       (l = false → say (.finish ⟨t, at_⟩ a req) (err 2)) ∧
       (l = true → exec (.finish ⟨t, at_⟩ a req) s = .next { u with
         spdmSeq := u.spdmSeq + 1, mctp := u.mctp ++ [(t, [0x12, 0x65, 0, 0] ++ op req 48)]
         sessions := u.sessions.map (fun z => if z.id = a then { z with done := true } else z) })) ∧
      (let l := u.sessions.any (fun z => decide (z.id = a) && z.done)
       (l = false → say (.endSession ⟨t, at_⟩ a) (err 2)) ∧
       (l = true → exec (.endSession ⟨t, at_⟩ a) s = .next { u with
         spdmSeq := u.spdmSeq + 1, mctp := u.mctp ++ [(t, [0x12, 0x6C, 0, 0])], sessions := u.sessions.filter (fun z => decide (z.id ≠ a)) }))))

/-- A step runs the command at the front of the queue on the rest of the state; with none waiting harbour time counts once. With command c at the
front of the queue, step is exec of c on the state whose queue is the rest. With an empty queue the block's clock runs: one count of harbour time
passes, which is the model's choice for an idle step (assumption log 2), and cellar and queue stay, and the berths while no pin switches its function.
(01_package.md R36, 03_beam_time.md R89) -/
def Obligations.StepRunsTheFrontCommand : Prop :=
  (∀ (s : State) (c : Instr) (rest : List Instr), s.pending = c :: rest → step s = exec c { s with pending := rest }) ∧
  (∀ s : State, s.pending = [] → ∃ t : State, step s = .next t ∧ t.htime = s.htime + 1 ∧ t.pending = [] ∧ t.mem = s.mem ∧
    (s.switches = [] → t.berths = s.berths))

/-- At reset no command waits, no berth exists, slots are SPARE, domains ON, registers at their reset values, the cellar lists nothing. The block at
the release of PORST_N, on the SX8 (the model's choice of part, assumption log 1): the boot ROM's phase, harbour time 0, every slot SPARE, every
domain ON, every harbour register at the reset value of its tables (a value the spec does not give is the model's, assumption log 4), the voted cores
in service, the watchdog at 2000 ms, no berth, and an empty cellar in canonical form. (00_scope.md R13, 01_package.md R36, 02_cellar_ledgers.md R69,
14_watches_faults_selftest.md R514, 17_pins_electrical.md R608) -/
def Obligations.ResetStandsAtColdReset : Prop :=
  let s := State.reset
  s.pending = [] ∧ s.mem = [] ∧ Memory.wf s.mem = true ∧ s.part = .sx8 ∧ s.phase = 1 ∧ s.htime = 0 ∧ s.keeper.phase = .on ∧ s.hmHalt = false ∧
  (∀ b, s.berth b = none) ∧ (∀ d k n, s.slot d k n = 0) ∧ (∀ d c, s.domain d c = 0) ∧ (∀ a, s.reg a = regDefault .sx8 a % 2 ^ 32) ∧
  s.fld R.ST_VOTE 2 0 = 7 ∧ s.fld R.ST_VOTE 10 8 = 7 ∧ s.fld R.HB_WDOG 15 0 = 2000 ∧ (∀ e, e < 2 → (s.ep e).events = [] ∧ (s.ep e).link = false)

/-- Decoding the words of a well-formed B16 instruction gives it back with the words after it, and every decoded instruction spells its words. For
every instruction word form of the core, with every operand at every value the encoding admits, decoding its words followed by any others gives that
instruction and those others; and what decoding answers encodes to exactly the words consumed. An undefined first word is the illegal encoding of that
word. (05_b16_instructions.md R167, 05_b16_instructions.md R168, 05_b16_instructions.md R170, 05_b16_instructions.md R171) -/
def Obligations.DecodeInvertsEncode : Prop :=
  (∀ (i : Instr) (ws r : List Word), wellFormed i = true → encode i = some ws → ∃ b, decodeWords b (ws ++ r) = some (i, r)) ∧
  (∀ (b : Nat) (ws r : List Word) (i : Instr), b < 2048 → decodeWords b ws = some (i, r) → wellFormed i = true ∧
    ∃ e, encode i = some e ∧ e ≠ [] ∧ ws = e ++ r)

/-- Every step that answers a next state keeps the cellar in canonical form and the part, and takes one command from the queue. From any state whose
cellar cells are in canonical form, with strictly rising addresses and no byte equal to what an unlisted address reads as, every step, whatever the
command, leaves them so; it leaves the part as it is, and of the queue it leaves the rest. (01_package.md R39, 02_cellar_ledgers.md R54) -/
def Obligations.EveryStepKeepsTheCellarCanonical : Prop :=
  ∀ s t : State, step s = .next t → t.part = s.part ∧ t.pending = s.pending.tail ∧ (Memory.wf s.mem = true → Memory.wf t.mem = true)

/-- Every command is answered with a next state where the units it names exist on the part; otherwise it faults, and no command is refused. For all
235 commands: with the dies, docks, quays, endpoints, ports, pins and voters that the command names present, exec answers a next state. A fault is
only that of a unit the part does not have, which nothing of the spec describes. No command is refused. (01_package.md R16, 01_package.md R17,
01_package.md R18, 01_package.md R46, 00_scope.md R10) -/
def Obligations.CommandsCompleteWhereTheirUnitsExist : Prop :=
  ∀ (i : Instr) (s : State),
    (unitsExist s i = true → Completes i s) ∧ (∀ r, exec i s ≠ .refused r) ∧
    (∀ f, exec i s = .fault f → unitsExist s i = false ∧ ∃ n, f = .noSuchUnit n)
end

