-- ==== Sys2Proof/Laws/Table.lean ====
section
/-! SUPPORT. The laws of the sparse table: reads after writes, and the canonical form that every operation keeps; then the same for the
cellar's bytes and words. -/

namespace Sys2Proof.Machine

set_option Elab.async false

variable {α : Type}

/-- Every key of the table is above k. -/
def Above (k : Nat) (t : Tbl α) : Prop := ∀ e ∈ t, k < e.1

theorem tsorted_cons (k : Nat) (v : α) (t : Tbl α) : tsorted ((k, v) :: t) = true ↔ Above k t ∧ tsorted t = true := by
  induction t generalizing k v with
  | nil => simp [tsorted, Above]
  | cons e r ih =>
    obtain ⟨j, w⟩ := e
    simp only [tsorted, Bool.and_eq_true, decide_eq_true_eq]
    refine ⟨fun ⟨h, hs⟩ => ⟨fun x hx => ?_, hs⟩, fun ⟨h, hs⟩ => ⟨h (j, w) (by simp), hs⟩⟩
    rcases List.mem_cons.mp hx with rfl | hx
    · exact h
    · exact Nat.lt_trans h (((ih j w).mp hs).1 x hx)

theorem above_tdel {k : Nat} {t : Tbl α} (j : Nat) (h : Above k t) : Above k (tdel t j) := by
  induction t with
  | nil => exact h
  | cons e r ih =>
    obtain ⟨i, w⟩ := e
    have hr : Above k r := fun x hx => h x (by simp [hx])
    intro x hx
    simp only [tdel] at hx
    split at hx
    · exact hr x hx
    · split at hx
      · exact h x hx
      · rcases List.mem_cons.mp hx with rfl | hx
        · exact h (i, w) (by simp)
        · exact ih hr x hx

theorem above_tins {k : Nat} {t : Tbl α} (j : Nat) (x : α) (h : Above k t) (hj : k < j) : Above k (tins t j x) := by
  induction t with
  | nil => intro e he; simp [tins] at he; simpa [he] using hj
  | cons e r ih =>
    obtain ⟨i, w⟩ := e
    have hr : Above k r := fun y hy => h y (by simp [hy])
    intro y hy
    simp only [tins] at hy
    split at hy
    · rcases List.mem_cons.mp hy with rfl | hy
      · exact hj
      · exact hr y hy
    · split at hy
      · rcases List.mem_cons.mp hy with rfl | hy
        · exact hj
        · exact h y hy
      · rcases List.mem_cons.mp hy with rfl | hy
        · exact h (i, w) (by simp)
        · exact ih hr y hy

/-- Deleting keeps the keys rising. -/
theorem tsorted_tdel {t : Tbl α} (j : Nat) (h : tsorted t = true) : tsorted (tdel t j) = true := by
  induction t with
  | nil => rfl
  | cons e r ih =>
    obtain ⟨i, w⟩ := e
    have h' := (tsorted_cons i w r).mp h
    simp only [tdel]
    split
    · exact h'.2
    · split
      · exact h
      · exact (tsorted_cons i w _).mpr ⟨above_tdel j h'.1, ih h'.2⟩

/-- Inserting keeps the keys rising. -/
theorem tsorted_tins {t : Tbl α} (j : Nat) (x : α) (h : tsorted t = true) : tsorted (tins t j x) = true := by
  induction t with
  | nil => rfl
  | cons e r ih =>
    obtain ⟨i, w⟩ := e
    have h' := (tsorted_cons i w r).mp h
    simp only [tins]
    split
    · rename_i hij
      subst hij
      exact (tsorted_cons _ _ _).mpr h'
    · split
      · rename_i hlt
        refine (tsorted_cons _ _ _).mpr ⟨fun y hy => ?_, h⟩
        rcases List.mem_cons.mp hy with rfl | hy
        · exact hlt
        · exact Nat.lt_trans hlt (h'.1 y hy)
      · exact (tsorted_cons i w _).mpr ⟨above_tins j x h'.1 (by omega), ih h'.2⟩

theorem mem_tdel {t : Tbl α} {j : Nat} {e : Nat × α} (h : e ∈ tdel t j) : e ∈ t := by
  induction t with
  | nil => simp [tdel] at h
  | cons f r ih =>
    obtain ⟨i, w⟩ := f
    simp only [tdel] at h
    split at h
    · simp [h]
    · split at h
      · exact h
      · rcases List.mem_cons.mp h with rfl | h
        · simp
        · simp [ih h]

theorem mem_tins {t : Tbl α} {j : Nat} {x : α} {e : Nat × α} (h : e ∈ tins t j x) : e = (j, x) ∨ e ∈ t := by
  induction t with
  | nil => simpa [tins] using h
  | cons f r ih =>
    obtain ⟨i, w⟩ := f
    simp only [tins] at h
    split at h
    · rcases List.mem_cons.mp h with rfl | h
      · exact .inl rfl
      · exact .inr (by simp [h])
    · split at h
      · rcases List.mem_cons.mp h with rfl | h
        · exact .inl rfl
        · exact .inr h
      · rcases List.mem_cons.mp h with rfl | h
        · exact .inr (by simp)
        · exact (ih h).imp id (by simp +contextual)

variable [DecidableEq α]

/-- A write keeps the canonical form of a table. -/
theorem twf_tput {t : Tbl α} {d : α} (k : Nat) (x : α) (h : twf t d = true) : twf (tput t k x d) d = true := by
  simp only [twf, Bool.and_eq_true, List.all_eq_true, decide_eq_true_eq] at h ⊢
  unfold tput
  split
  · exact ⟨tsorted_tdel k h.1, fun e he => h.2 e (mem_tdel he)⟩
  · rename_i hx
    refine ⟨tsorted_tins k x h.1, fun e he => ?_⟩
    rcases mem_tins he with rfl | he
    · exact hx
    · exact h.2 e he

omit [DecidableEq α] in
theorem tsorted_filter {t : Tbl α} (p : Nat × α → Bool) (h : tsorted t = true) : tsorted (t.filter p) = true := by
  induction t with
  | nil => rfl
  | cons e r ih =>
    obtain ⟨i, w⟩ := e
    have h' := (tsorted_cons i w r).mp h
    rw [List.filter_cons]
    split
    · exact (tsorted_cons i w _).mpr ⟨fun x hx => h'.1 x ((List.mem_filter.mp hx).1), ih h'.2⟩
    · exact ih h'.2

/-- Dropping entries keeps the canonical form of a table. -/
theorem twf_filter {t : Tbl α} {d : α} (p : Nat × α → Bool) (h : twf t d = true) : twf (t.filter p) d = true := by
  simp only [twf, Bool.and_eq_true, List.all_eq_true] at h ⊢
  exact ⟨tsorted_filter p h.1, fun e he => h.2 e ((List.mem_filter.mp he).1)⟩

omit [DecidableEq α]

theorem tfind_above {k : Nat} {t : Tbl α} (h : Above k t) : tfind t k = none := by
  cases t with
  | nil => rfl
  | cons e r =>
    obtain ⟨j, v⟩ := e
    have hj : k < j := h (j, v) (by simp)
    simp [tfind, Nat.ne_of_gt hj, hj]

/-- An inserted entry is found; this needs no order. -/
@[simp] theorem tfind_tins_same (t : Tbl α) (k : Nat) (x : α) : tfind (tins t k x) k = some x := by
  induction t with
  | nil => simp [tins, tfind]
  | cons e r ih =>
    obtain ⟨j, v⟩ := e
    simp only [tins]
    split
    · simp [tfind]
    · split
      · simp [tfind]
      · rename_i h1 h2
        simp [tfind, h1, h2, ih]

/-- An insertion leaves every other key alone. -/
theorem tfind_tins_other (t : Tbl α) {k i : Nat} (x : α) (h : i ≠ k) : tfind (tins t k x) i = tfind t i := by
  induction t with
  | nil => simp [tins, tfind, Ne.symm h]
  | cons e r ih =>
    obtain ⟨j, v⟩ := e
    simp only [tins]
    split
    · rename_i hjk
      subst hjk
      simp [tfind, Ne.symm h]
    · split
      · rename_i h1 h2
        simp only [tfind]
        rcases Nat.lt_trichotomy i k with hlt | heq | hgt
        · have hj : ¬ j = i := by omega
          have hij : i < j := by omega
          simp [Nat.ne_of_gt hlt, hlt, hj, hij]
        · exact absurd heq h
        · simp [Nat.ne_of_lt hgt, Nat.lt_asymm hgt]
      · simp only [tfind, ih]

theorem tget_eq_tfind (t : Tbl α) (k : Nat) (d : α) : tget t k d = (tfind t k).getD d := by
  induction t with
  | nil => rfl
  | cons e r ih =>
    obtain ⟨j, v⟩ := e
    simp only [tget, tfind]
    split
    · rfl
    · split <;> simp [ih]

/-- A deleted key of a table with rising keys is not found. -/
theorem tfind_tdel_same {t : Tbl α} (k : Nat) (h : tsorted t = true) : tfind (tdel t k) k = none := by
  induction t with
  | nil => rfl
  | cons e r ih =>
    obtain ⟨j, v⟩ := e
    have h' := (tsorted_cons j v r).mp h
    simp only [tdel]
    split
    · rename_i hj
      subst hj
      exact tfind_above h'.1
    · split
      · rename_i h1 h2
        simp [tfind, h1, h2]
      · rename_i h1 h2
        simp [tfind, h1, h2, ih h'.2]

/-- A deletion leaves every other key alone. -/
theorem tfind_tdel_other {t : Tbl α} {k i : Nat} (h : tsorted t = true) (hi : i ≠ k) : tfind (tdel t k) i = tfind t i := by
  induction t with
  | nil => rfl
  | cons e r ih =>
    obtain ⟨j, v⟩ := e
    have h' := (tsorted_cons j v r).mp h
    simp only [tdel]
    split
    · rename_i hj
      subst hj
      simp only [tfind, Ne.symm hi, if_false]
      split
      · rename_i hlt
        exact tfind_above (fun x hx => Nat.lt_trans hlt (h'.1 x hx))
      · rfl
    · split
      · rfl
      · simp only [tfind, ih h'.2]

variable [DecidableEq α]

/-- A read after a write at the same key of a table with rising keys gives the value written. -/
theorem tget_tput_same {t : Tbl α} (k : Nat) (x d : α) (h : tsorted t = true) : tget (tput t k x d) k d = x := by
  unfold tput
  split
  · rename_i hx
    simp [tget_eq_tfind, tfind_tdel_same k h, hx]
  · simp [tget_eq_tfind]

/-- A write leaves every other key alone. -/
theorem tget_tput_other {t : Tbl α} {k i : Nat} (x d : α) (h : tsorted t = true) (hi : i ≠ k) :
    tget (tput t k x d) i d = tget t i d := by
  unfold tput
  split
  · simp [tget_eq_tfind, tfind_tdel_other h hi]
  · simp [tget_eq_tfind, tfind_tins_other t x hi]

/-- The canonical form has rising addresses. -/
theorem Memory.wf_sorted {m : List Host.Cell} (h : Memory.wf m = true) : tsorted m = true := by
  simp only [Memory.wf, twf, Bool.and_eq_true] at h
  exact h.1

/-- Writing a byte keeps the canonical form of the cellar. -/
theorem Memory.putByte_wf {m : List Host.Cell} (a : Nat) (v : Byte) (h : Memory.wf m = true) :
    Memory.wf (Memory.putByte m a v) = true := twf_tput a v h

/-- Writing a word keeps the canonical form of the cellar. -/
theorem Memory.putWord_wf {m : List Host.Cell} (w : Nat) (v : Word) (h : Memory.wf m = true) :
    Memory.wf (Memory.putWord m w v) = true := putByte_wf _ _ (putByte_wf _ _ h)

/-- Forgetting cells keeps the canonical form of the cellar. -/
theorem Memory.filter_wf {m : List Host.Cell} (p : Host.Cell → Bool) (h : Memory.wf m = true) :
    Memory.wf (m.filter p) = true := twf_filter p h

/-- A byte read after a write of the same byte is the one written. -/
theorem Memory.byte_putByte_same {m : List Host.Cell} (a : Nat) (v : Byte) (h : Memory.wf m = true) :
    Memory.byte (Memory.putByte m a v) a = v := tget_tput_same a v _ (wf_sorted h)

/-- A write of a byte leaves every other byte alone. -/
theorem Memory.byte_putByte_other {m : List Host.Cell} {a i : Nat} (v : Byte) (h : Memory.wf m = true) (hi : i ≠ a) :
    Memory.byte (Memory.putByte m a v) i = Memory.byte m i := tget_tput_other v _ (wf_sorted h) hi

/-- A write of a word leaves every byte outside the word alone. -/
theorem Memory.byte_putWord_other {m : List Host.Cell} {w i : Nat} (v : Word) (h : Memory.wf m = true)
    (h0 : i ≠ 2 * w) (h1 : i ≠ 2 * w + 1) : Memory.byte (Memory.putWord m w v) i = Memory.byte m i := by
  unfold Memory.putWord
  rw [byte_putByte_other _ (putByte_wf _ _ h) h1, byte_putByte_other _ h h0]

/-- A word read after a write of the same word is the one written. -/
theorem Memory.word_putWord_same {m : List Host.Cell} (w : Nat) (v : Word) (h : Memory.wf m = true) :
    Memory.word (Memory.putWord m w v) w = v := by
  have h1 := putByte_wf (2 * w) (BitVec.ofNat 8 v.toNat) h
  unfold Memory.word Memory.putWord
  rw [byte_putByte_same _ _ h1, byte_putByte_other _ h1 (by omega), byte_putByte_same _ _ h]
  apply BitVec.eq_of_toNat_eq
  simp only [w16, BitVec.toNat_ofNat]
  have := v.isLt
  omega

/-- A write of a word leaves every other word alone. -/
theorem Memory.word_putWord_other {m : List Host.Cell} {w i : Nat} (v : Word) (h : Memory.wf m = true) (hi : i ≠ w) :
    Memory.word (Memory.putWord m w v) i = Memory.word m i := by
  unfold Memory.word
  rw [byte_putWord_other v h (by omega) (by omega), byte_putWord_other v h (by omega) (by omega)]

end Sys2Proof.Machine
end

