-- ==== Sys2Proof/Laws/Still.lean ====
section
/-! SUPPORT. What berth time passing leaves of a berth: the still part of the berth through every operation of a microcycle. -/

namespace Sys2Proof.Machine

set_option Elab.async false

theorem still_au {x : BSide} {a : Audio} (h : a.sacc = x.au.sacc) : ({ x with au := a } : BSide).still = x.still := by
  simp only [BSide.still, h]

theorem mapGens_sacc (a : Audio) (v : Nat) (f : Nat → EnvGen → EnvGen) : (a.mapGens v f).sacc = a.sacc := by
  unfold Audio.mapGens
  split
  · rfl
  · split <;> rfl

theorem still_bi (x : BSide) (i : BIC) : ({ x with bi := i } : BSide).still = x.still := rfl

theorem still_cur (x : Berth) (c : WatchAcc) : ({ x with cur := c } : Berth).still = x.still := rfl

theorem still_side {x : Berth} {b : BSide} (h : b.still = x.side.still) : ({ x with side := b } : Berth).still = x.still := by
  simp only [Berth.still, h]

theorem hwSet_still (x : BSide) (p m : Nat) : (x.hwSet p m).still = x.still := rfl

theorem frameStep_still (x : BSide) (cls : Nat) : (x.frameStep cls).still = x.still := by
  unfold BSide.frameStep
  dsimp only
  split
  · exact hwSet_still ..
  · rfl

theorem applyKey_still (x : BSide) (k : AuAct) : (x.applyKey k).still = x.still := by
  unfold BSide.applyKey
  split
  · dsimp only
    split <;> exact still_au (mapGens_sacc ..)
  · exact still_au rfl

theorem stepEnvs_still (x : BSide) : x.stepEnvs.still = x.still := by
  refine still_au ?_
  generalize List.range 32 = l
  generalize he : x.au = a
  have h : ∀ q : Audio, (l.foldl (fun a v => a.mapGens v (fun k g => g.step (x.port (envPort v k)) (x.port (envPort v k + 1)))) q).sacc
      = q.sacc := by
    induction l with
    | nil => exact fun _ => rfl
    | cons v l ih => exact fun q => (ih _).trans (mapGens_sacc ..)
  exact h a

theorem setShifts_still (x : BSide) : x.setShifts.still = x.still := still_au rfl

theorem filter_still (x : BSide) (v : Nat) (y : Int) : (x.filter v y).1.still = x.still := by
  unfold BSide.filter
  dsimp only
  split
  · rfl
  · exact still_au rfl

theorem fmVoice_still (x : BSide) (v : Nat) : (x.fmVoice v).1.still = x.still := by
  unfold BSide.fmVoice
  exact still_au rfl

theorem qVoice_still (x : BSide) (v : Nat) : (x.qVoice v).1.still = x.still := by
  unfold BSide.qVoice
  exact still_au rfl

theorem hwSome_still (x : BSide) (p m : Nat) : (x.hwSome p m).still = x.still := by
  unfold BSide.hwSome
  split
  · rfl
  · exact hwSet_still ..

theorem hwSome_au (x : BSide) (p m : Nat) : (x.hwSome p m).au = x.au := by
  unfold BSide.hwSome
  split <;> rfl

theorem sampleVoice_still (s : State) (x : Berth) (v : Nat) : (s.sampleVoice x v).2.1.still = x.still := by
  unfold State.sampleVoice
  extract_lets
  split
  · rfl
  · refine still_side ((still_au ?_).trans (hwSome_still ..))
    rfl

theorem voice_still (s : State) (x : Berth) (m : Sums) (v : Nat) : (s.voice x m v).2.1.still = x.still := by
  unfold State.voice
  extract_lets act r fl
  have h : r.2.1.still = x.still := by
    unfold r
    split
    · split
      · exact sampleVoice_still ..
      · rfl
    · split
      · exact still_side (fmVoice_still ..)
      · exact still_side (qVoice_still ..)
  have h1 : ({ r.2.1 with side := fl.1 } : Berth).still = x.still := (still_side (filter_still ..)).trans h
  split <;> exact h1

theorem undoEntry_still (s : State) (x : Berth) (wa : Nat) : (s.undoEntry x wa).2.2.still = x.still := by
  unfold State.undoEntry
  split
  · rfl
  · dsimp only
    split
    · rfl
    · rfl
    · split <;> rfl

theorem fxRead_still (s : State) (x : Berth) (l : Bool) (off : Nat) : (s.fxRead x l off).2.1.still = x.still := by
  unfold State.fxRead
  dsimp only
  split
  · exact still_side (hwSet_still ..)
  · split
    · exact still_side (hwSet_still ..)
    · split
      · rfl
      · exact still_side (hwSet_still ..)

theorem fxWrite_still (s : State) (x : Berth) (l : Bool) (off : Nat) (v : Int) : (s.fxWrite x l off v).2.1.still = x.still := by
  unfold State.fxWrite
  dsimp only
  split
  · exact still_side (hwSet_still ..)
  · split
    · have h := undoEntry_still s x (x.side.gaddr (bitsOf (x.side.port 0x9C4) 3 0) (x.side.port 0x9C5 * 64 + off))
      split <;> rename_i e <;> rw [e] at h <;> exact h
    · exact still_side (hwSet_still ..)
    · exact still_side (hwSet_still ..)

theorem comb_still (s : State) (x : Berth) (l : Bool) (inp : Int) (k : Nat) : (s.comb x l inp k).2.1.still = x.still := by
  unfold State.comb
  exact (fxWrite_still ..).trans ((still_side (still_au rfl)).trans (fxRead_still ..))

theorem combs_still (s : State) (x : Berth) (l : Bool) (inp : Int) (taps : List Int) (k n : Nat) :
    (s.combs x l inp taps k n).1.2.1.still = x.still := by
  induction n generalizing s x l taps k with
  | zero => rfl
  | succ n ih => exact (ih ..).trans (comb_still ..)

theorem delayLine_still (s : State) (x : Berth) (l : Bool) (inp : Int) : (s.delayLine x l inp).2.1.still = x.still := by
  unfold State.delayLine
  exact (fxWrite_still ..).trans (fxRead_still ..)

theorem fxAdvance_still (x : BSide) : x.fxAdvance.still = x.still := by
  unfold BSide.fxAdvance
  exact still_au rfl

theorem effects_still (s : State) (x : Berth) (inp : Int) : (s.effects x inp).2.1.still = x.still := by
  unfold State.effects
  split
  · rfl
  · exact (still_side (fxAdvance_still _)).trans ((delayLine_still ..).trans (combs_still ..))

theorem foldl_still {α σ : Type} (g : σ → Berth) (f : σ → α → σ) (h : ∀ t a, (g (f t a)).still = (g t).still) (s : σ) (l : List α) :
    (g (l.foldl f s)).still = (g s).still := by
  induction l generalizing s with
  | nil => rfl
  | cons a l ih => exact (ih _).trans (h s a)

theorem keys_still (l : List AuAct) (x : BSide) :
    (l.foldl (fun (y : BSide) (k : AuAct) => y.applyKey k) x).still = x.still := by
  induction l generalizing x with
  | nil => rfl
  | cons a l ih => exact (ih _).trans (applyKey_still ..)

theorem countShifts_still (x : BSide) : x.countShifts.still = x.still := still_au rfl

theorem sampleStart_still (x : BSide) : x.sampleStart.still = x.still := by
  have h (y : BSide) : ({ y with au := { y.au with keys := [] } } : BSide).stepEnvs.still = y.still :=
    (stepEnvs_still _).trans (still_au rfl)
  unfold BSide.sampleStart
  dsimp only
  refine (setShifts_still _).trans ?_
  split
  · exact (countShifts_still _).trans ((h _).trans (keys_still ..))
  · exact (h _).trans (keys_still ..)

theorem sampleVoices_still (s : State) (x : Berth) : (s.sampleVoices x).2.1.still = x.still := by
  unfold State.sampleVoices
  generalize List.range 32 = l
  exact (foldl_still (fun (z : State × Berth × Sums) => z.2.1) _ (fun _ _ => voice_still ..) _ _).trans
    (still_side (sampleStart_still _))

theorem audioRaise_still (x : BSide) (lev0 : Bool) : (x.audioRaise lev0).still = x.still := by
  unfold BSide.audioRaise
  split
  · exact still_bi ..
  · rfl

theorem sampleOut_still (x : BSide) (m : Sums) (a : Audio) (retL retR : Int) (n : Nat) (lev0 : Bool) :
    (x.sampleOut m a retL retR n lev0).1.still = x.still := by
  unfold BSide.sampleOut
  refine (audioRaise_still ..).trans ((still_au ?_).trans (hwSome_still ..))
  rfl

theorem samplePacket_still (y : Berth) (n : Nat) (out : Int × Int) : (y.samplePacket n out).still = y.still := by
  unfold Berth.samplePacket
  refine (still_cur ..).trans (still_side (still_au ?_))
  rfl

/-- A sample instant leaves the still part of its berth (R307 to R340). -/
theorem sampleInstant_still (s : State) (x : Berth) : (s.sampleInstant x).2.still = x.still := by
  unfold State.sampleInstant
  dsimp only
  rw [samplePacket_still, still_side (sampleOut_still ..), effects_still, sampleVoices_still]

theorem fireFerry_still (x : Berth) (n : Fin 4) : (x.fireFerry n).still = x.still := rfl

theorem fireFerries_still (x : Berth) (p : List Word → Bool) : (x.fireFerries p).still = x.still := by
  unfold Berth.fireFerries
  refine foldl_still id _ (fun t n => ?_) x _
  dsimp only [id]
  split <;> rfl

theorem fireJobs_still (x : Berth) (p : List Word → Bool) : (x.fireJobs p).still = x.still := rfl

theorem deadlines_still (x : Berth) : x.deadlines.still = x.still := by
  unfold Berth.deadlines
  refine foldl_still id _ (fun t n => ?_) x _
  dsimp only [id]
  split <;> rfl

theorem govFrame_still (x : Berth) (old : Geometry) : (x.govFrame old).still = x.still := rfl

theorem setReg_still (x : Berth) (off v : Nat) : (x.setReg off v).still = x.still := rfl

theorem fixFrame_still (x : Berth) (i : FrameInfo) (sk : Bool) : (x.fixFrame i sk).still = x.still := rfl

theorem restartDelay_still (x : Berth) : x.restartDelay.still = x.still := by
  unfold Berth.restartDelay
  extract_lets f
  split
  · exact setReg_still ..
  · rfl

theorem outFrame_still (s : State) (x : Berth) : (s.outFrame x).still = x.still := by
  unfold State.outFrame
  exact (restartDelay_still _).trans ((fixFrame_still ..).trans (setReg_still ..))

/-- A berth whose still part is that of x after n more microcycles. -/
theorem waited_still {x y : Berth} {n : Nat} (h : y.still = x.waited n) (k : Nat) :
    y.waited k = x.waited (n + k) := by
  have h1 : y.side.still = { x.side.still with bt := x.side.bt + n, au := { sacc := (x.side.au.sacc + n) % 10000 } } := congrArg Berth.side h
  have hb : y.side.bt = x.side.bt + n := congrArg BSide.bt h1
  have hs : y.side.au.sacc = (x.side.au.sacc + n) % 10000 := congrArg (fun b : BSide => b.au.sacc) h1
  unfold Berth.waited
  rw [h, h1, hb, hs]
  simp only [Berth.waited, Nat.add_assoc, Nat.mod_add_mod]

theorem newLine_still (k : Core) (c : Bool) : { (if c then k.newLine else k) with charges := 0, overrun := 0 } =
    { k with charges := 0, overrun := 0 } := by cases c <;> rfl

theorem beamTick_still (x : Berth) (m : Beam) (a : Advance) :
    (x.beamTick m a).still = { x.still with side := { x.side.still with bt := x.side.bt + 1 } } := by
  simp only [Berth.beamTick, Berth.still, BSide.still]
  cases a.newLine <;> rfl

theorem frameTick_still (s : State) (x : Berth) (g : Geometry) : (s.frameTick x g).still = x.still := by
  unfold State.frameTick
  exact (outFrame_still ..).trans ((still_side (still_bi ..)).trans ((govFrame_still ..).trans (still_side (frameStep_still ..))))

theorem beamStep_still (s : State) (x : Berth) (m : Beam) (a : Advance) :
    (s.beamStep x m a).still = { x.still with side := { x.side.still with bt := x.side.bt + 1 } } := by
  unfold State.beamStep
  split
  · exact (frameTick_still ..).trans (beamTick_still ..)
  · exact beamTick_still ..

theorem still_gov (x : Berth) (g : Gov) : ({ x with gov := g } : Berth).still = x.still := rfl

theorem slewTo_still (x : Berth) (o : Int) : (x.slewTo o).still = x.still := by
  unfold Berth.slewTo
  split <;> rfl

theorem lineStep_still (x : Berth) : x.lineStep.still = x.still := by
  unfold Berth.lineStep
  extract_lets l i1 i2 sd y ps o o1 z
  refine (fireJobs_still ..).trans ((fireFerries_still ..).trans ?_)
  have h : (y.slewTo o1).still = x.still := (slewTo_still ..).trans (still_side (still_bi ..))
  unfold z
  split
  · exact (show (y.slewTo o1).passVis.still = (y.slewTo o1).still from rfl).trans h
  · exact h

theorem still_timers (x : BSide) (t : Vector BTimer 4) : ({ x with timers := t } : BSide).still = x.still := rfl

theorem markNow_still (x : BSide) (p m : Nat) : (x.markNow p m).still = x.still := rfl

theorem timerHit_still (x : Berth) (a : Advance) (smp : Bool) (tw : Option (Fin 4 × TimerWrite)) (n : Fin 4) :
    (x.timerHit a smp tw n).still = x.still := by
  unfold Berth.timerHit
  dsimp only
  split
  · exact (fireFerries_still ..).trans (still_side ((still_bi ..).trans ((markNow_still ..).trans (still_timers ..))))
  · exact still_side (still_timers ..)

theorem timerHits_still (x : Berth) (a : Advance) (smp : Bool) (tw : Option (Fin 4 × TimerWrite)) (l : List (Fin 4)) :
    (l.foldl (fun (y : Berth) (n : Fin 4) => y.timerHit a smp tw n) x).still = x.still :=
  foldl_still id (fun y n => y.timerHit a smp tw n) (fun _ _ => timerHit_still ..) x l

theorem microEnd_still (x : Berth) (charged : Bool) (pe : Word32) :
    (x.microEnd charged pe).still = { x.still with side := { x.side.still with au := { sacc := (x.side.au.sacc + 1) % 10000 } } } := by
  unfold Berth.microEnd
  cases charged <;> rfl

theorem fireFerries_park (x : Berth) (p : List Word → Bool) : (x.fireFerries p).parkReq = x.parkReq := by
  unfold Berth.fireFerries
  generalize List.finRange 4 = l
  induction l generalizing x with
  | nil => rfl
  | cons n l ih =>
    refine (ih _).trans ?_
    dsimp only
    split <;> rfl

theorem deadlines_park (x : Berth) : x.deadlines.parkReq = x.parkReq := by
  unfold Berth.deadlines
  generalize List.finRange 4 = l
  induction l generalizing x with
  | nil => rfl
  | cons n l ih =>
    refine (ih _).trans ?_
    dsimp only
    split <;> rfl

theorem fixFrame_park (x : Berth) (i : FrameInfo) (sk : Bool) : (x.fixFrame i sk).parkReq = x.parkReq := rfl

theorem setReg_park (x : Berth) (off v : Nat) : (x.setReg off v).parkReq = x.parkReq := rfl

theorem restartDelay_park (x : Berth) : x.restartDelay.parkReq = x.parkReq := by
  unfold Berth.restartDelay
  extract_lets f
  split <;> rfl

theorem outFrame_park (s : State) (x : Berth) : (s.outFrame x).parkReq = x.parkReq := by
  unfold State.outFrame
  exact (restartDelay_park _).trans ((fixFrame_park ..).trans (setReg_park ..))

theorem frameTick_park (s : State) (x : Berth) (g : Geometry) : (s.frameTick x g).parkReq = x.parkReq := by
  unfold State.frameTick
  exact outFrame_park ..

theorem beamStep_park (s : State) (x : Berth) (m : Beam) (a : Advance) : (s.beamStep x m a).parkReq = x.parkReq := by
  unfold State.beamStep
  split
  · exact frameTick_park ..
  · rfl

theorem fireJobs_park (x : Berth) (p : List Word → Bool) : (x.fireJobs p).parkReq = x.parkReq := rfl

theorem lineStep_park (x : Berth) : x.lineStep.parkReq = x.parkReq := by
  unfold Berth.lineStep
  extract_lets l i1 i2 sd y ps o o1 z
  refine (fireJobs_park ..).trans ((fireFerries_park ..).trans ?_)
  have h : (y.slewTo o1).parkReq = x.parkReq := by
    unfold Berth.slewTo
    split <;> rfl
  unfold z
  split <;> exact h

theorem timerHits_park (x : Berth) (a : Advance) (smp : Bool) (tw : Option (Fin 4 × TimerWrite)) (l : List (Fin 4)) :
    (l.foldl (fun (y : Berth) (n : Fin 4) => y.timerHit a smp tw n) x).parkReq = x.parkReq := by
  induction l generalizing x with
  | nil => rfl
  | cons n l ih =>
    refine (ih _).trans ?_
    unfold Berth.timerHit
    dsimp only
    split
    · exact fireFerries_park ..
    · rfl

theorem still_sacc (x : Berth) : x.still.side.au.sacc = x.side.au.sacc := rfl

theorem still_sides (x : Berth) : x.still.side = x.side.still := rfl

/-- One microcycle of a berth: all that it leaves of the berth, and, where no sample instant falls in it, of the state (R88 to R90). -/
theorem micro_still (s : State) (b : Nat) (charged : Bool) (tw : Option (Fin 4 × TimerWrite)) {x : Berth} (h : s.berth b = some x) :
    ∃ t y, s.micro b charged tw = t.setBerth y ∧ y.still = x.waited 1 ∧ (x.side.au.sacc ≠ 0 → t = s ∧ y.parkReq = x.parkReq) := by
  unfold State.micro
  rw [h]
  dsimp only
  generalize x.side.beam.step x.side.bt = st
  generalize h3 : (s.beamStep x st.1 st.2).deadlines = x3
  have e3 : x3.still = { x.still with side := { x.side.still with bt := x.side.bt + 1 } } := by
    rw [← h3, deadlines_still, beamStep_still]
  have p3 : x3.parkReq = x.parkReq := by rw [← h3, deadlines_park, beamStep_park]
  generalize h4 : (if st.2.newLine then x3.lineStep else x3) = x4
  have e4 : x4.still = { x.still with side := { x.side.still with bt := x.side.bt + 1 } } := by
    rw [← h4]
    split
    · rw [lineStep_still, e3]
    · exact e3
  have p4 : x4.parkReq = x.parkReq := by
    rw [← h4]
    split
    · rw [lineStep_park, p3]
    · exact p3
  have hs : x4.side.au.sacc = x.side.au.sacc := by
    have q := still_sacc x4
    rw [e4] at q
    exact q.symm
  generalize h5 : (if decide (x4.side.au.sacc = 0) then s.sampleInstant x4 else (s, x4)) = z
  have e5 : z.2.still = { x.still with side := { x.side.still with bt := x.side.bt + 1 } } := by
    rw [← h5]
    split
    · rw [sampleInstant_still, e4]
    · exact e4
  have q5 : x.side.au.sacc ≠ 0 → z = (s, x4) := fun h0 => by
    rw [← h5, if_neg (by rw [hs]; simpa using h0)]
  generalize h7 : (List.finRange 4).foldl (fun (y : Berth) (n : Fin 4) => y.timerHit st.2 (decide (x4.side.au.sacc = 0)) tw n) z.2 = x7
  have e7 : x7.still = { x.still with side := { x.side.still with bt := x.side.bt + 1 } } := by rw [← h7, timerHits_still, e5]
  refine ⟨z.1, _, rfl, ?_, fun h0 => ⟨by rw [q5 h0], ?_⟩⟩
  · have e8 := microEnd_still x7 charged (x.side.bi.pend &&& x.side.bi.en)
    have s7 : x7.side.still = { x.side.still with bt := x.side.bt + 1 } := by
      have q := still_sides x7
      rw [e7] at q
      exact q.symm
    have a7 : x7.side.au.sacc = x.side.au.sacc := by
      have q := still_sacc x7
      rw [e7] at q
      exact q.symm
    rw [e8, e7, s7, a7]
    rfl
  · refine (show _ = x7.parkReq from rfl).trans ?_
    rw [← h7, timerHits_park, q5 h0, p4]

theorem berth_setBerth (s : State) (y : Berth) : (s.setBerth y).berth y.id = some y := tfind_tins_same ..

theorem berth_setBerth_other (s : State) (y : Berth) {c : Nat} (h : c ≠ y.id) : (s.setBerth y).berth c = s.berth c :=
  tfind_tins_other _ _ h

theorem tins_tins {α : Type} (t : Tbl α) (k : Nat) (x y : α) : tins (tins t k x) k y = tins t k y := by
  induction t with
  | nil => simp [tins]
  | cons e r ih =>
    obtain ⟨i, w⟩ := e
    by_cases h : i = k
    · simp [tins, h]
    · by_cases h1 : k < i
      · simp [tins, h, h1]
      · simp [tins, h, h1, ih]

theorem setBerth_setBerth (s : State) (x y : Berth) (h : x.id = y.id) : (s.setBerth x).setBerth y = s.setBerth y := by
  simp only [State.setBerth, h, tins_tins]

/-- Nothing but a berth changes when its time passes without a sample instant: the state is s with a berth y that keeps what x.waited n says. -/
def Waits (s : State) (x : Berth) (n : Nat) (t : State) : Prop :=
  ∃ y, t = s.setBerth y ∧ y.still = x.waited n ∧ y.parkReq = x.parkReq

theorem waits_sacc {x y : Berth} {n : Nat} (h : y.still = x.waited n) : y.side.au.sacc = (x.side.au.sacc + n) % 10000 := by
  have q := still_sacc y
  rw [h] at q
  exact q.symm

theorem waits_id {x y : Berth} {n : Nat} (h : y.still = x.waited n) : y.id = x.id := by
  have q : y.still.id = y.id := rfl
  rw [h] at q
  exact q.symm

/-- A microcycle of a waiting berth. -/
theorem Waits.micro {s t : State} {x : Berth} {n : Nat} (w : Waits s x n t) (charged : Bool) (tw : Option (Fin 4 × TimerWrite))
    (h0 : 0 < x.side.au.sacc) (hn : x.side.au.sacc + n < 10000) : Waits s x (n + 1) (t.micro x.id charged tw) := by
  obtain ⟨y, rfl, hy, hp⟩ := w
  have hid := waits_id hy
  obtain ⟨u, z, hm, hz, hq⟩ := micro_still (s.setBerth y) x.id charged tw (x := y) (by rw [← hid]; exact berth_setBerth s y)
  have hs : y.side.au.sacc ≠ 0 := by rw [waits_sacc hy]; omega
  obtain ⟨rfl, hk⟩ := hq hs
  have e : z.still = x.waited (n + 1) := hz.trans (waited_still hy 1)
  exact ⟨z, hm.trans (setBerth_setBerth _ _ _ ((waits_id hy).trans (waits_id e).symm)), e, hk.trans hp⟩

/-- n microcycles of a waiting berth. -/
theorem Waits.micros {s t : State} {x : Berth} {n : Nat} (w : Waits s x n t) (charged : Bool) (k : Nat)
    (h0 : 0 < x.side.au.sacc) (hn : x.side.au.sacc + n + k ≤ 10000) : Waits s x (n + k) (t.micros x.id charged k) := by
  induction k generalizing t n with
  | zero => exact w
  | succ k ih =>
    have h := ih (w.micro charged none h0 (by omega)) (by omega)
    rwa [show n + 1 + k = n + (k + 1) by omega] at h

/-- A state differs from s only in its berths. -/
theorem Waits.ledger {s t : State} {x : Berth} {n : Nat} (w : Waits s x n t) (md d wa : Nat) (m : Master) (k : Kind) :
    t.ledgerCheck md d wa m k = s.ledgerCheck md d wa m k := by
  obtain ⟨y, rfl, -, -⟩ := w
  rfl

/-- A core's fetch of a word that passes its checks, in a cellar without ECC errors, changes nothing (R57, R131). -/
theorem coreRead_quiet (s : State) (x : Berth) (n : SegReg) (off : Word) (k : Kind) (he : s.ecc = [])
    (hc : (x.segDesc n).check off k = none) (hl : s.ledgerCheck x.die x.die (x.segAddr n off) (coreMaster x) k = none) :
    s.coreRead x n off k = (.ok (s.word (pkgWord x.die (x.segAddr n off))), s) := by
  have h0 : ∀ i, flipMask [] i = 0 := fun _ => rfl
  simp only [State.coreRead, State.coreCheck, hc, hl, State.coreFetchWord, State.bankRead, State.eccRead, he, tfind, h0]
  exact congrArg (fun v => (CoreRead.ok v, s)) BitVec.xor_zero

theorem Waits.berth {s t : State} {x : Berth} {n : Nat} (w : Waits s x n t) :
    ∃ y, t.berth x.id = some y ∧ t = s.setBerth y ∧ y.still = x.waited n ∧ y.parkReq = x.parkReq := by
  obtain ⟨y, rfl, hy, hp⟩ := w
  exact ⟨y, by rw [← waits_id hy]; exact berth_setBerth s y, rfl, hy, hp⟩

/-- What a waiting berth's checks of its accesses rest on stays as it was. -/
theorem waits_desc {x y : Berth} {n : Nat} (h : y.still = x.waited n) : y.side.desc = x.side.desc ∧ y.side.core.seg = x.side.core.seg ∧
    y.die = x.die ∧ y.side.core.pc = x.side.core.pc ∧ y.side.core.w = x.side.core.w ∧ y.side.core.fl = x.side.core.fl := by
  have q : y.still.side.desc = y.side.desc ∧ y.still.side.core.seg = y.side.core.seg ∧ y.still.die = y.die ∧
      y.still.side.core.pc = y.side.core.pc ∧ y.still.side.core.w = y.side.core.w ∧ y.still.side.core.fl = y.side.core.fl :=
    ⟨rfl, rfl, rfl, rfl, rfl, rfl⟩
  rw [h] at q
  exact ⟨q.1.symm, q.2.1.symm, q.2.2.1.symm, q.2.2.2.1.symm, q.2.2.2.2.1.symm, q.2.2.2.2.2.symm⟩

/-- The fetch of words that stand in the cellar and pass their checks, in a cellar without ECC errors and without a sample instant: one microcycle a
word. -/
theorem Waits.fetch {s t : State} {x : Berth} {n : Nat} (w : Waits s x n t) (pc : Word) (i : Nat) (ws : List Word) (he : s.ecc = [])
    (h0 : 0 < x.side.au.sacc) (hn : x.side.au.sacc + n + ws.length ≤ 10000)
    (hc : ∀ j < ws.length, (x.segDesc 0).check (pc + w16 j) .exec = none)
    (hl : ∀ j < ws.length, s.ledgerCheck x.die x.die (x.segAddr 0 (pc + w16 j)) (coreMaster x) .exec = none)
    (hw : ∀ j < ws.length, s.word (pkgWord x.die (x.segAddr 0 (pc + w16 j))) = ws.getD j 0) :
    ∃ u, t.fetchWords x.id pc i ws = (some .done, u) ∧ Waits s x (n + ws.length) u := by
  induction ws generalizing t n pc i with
  | nil => exact ⟨t, rfl, w⟩
  | cons v ws ih =>
    simp only [List.length_cons] at hn hc hl hw
    have w1 := w.micro true none h0 (by omega)
    obtain ⟨y, hb, hs, hy, -⟩ := w1.berth
    obtain ⟨hd, hg, hdie, -, -, -⟩ := waits_desc hy
    have e0 : pc + w16 0 = pc := by simp [w16]
    have hr := coreRead_quiet (t.micro x.id true none) y 0 pc .exec (by rw [hs]; exact he)
      (by have q := hc 0 (by omega); rw [e0] at q; simpa only [Berth.segDesc, BSide.descN, hd, hg] using q)
      (by have q := hl 0 (by omega); rw [e0] at q
          rw [w1.ledger]
          simpa only [Berth.segAddr, Berth.segDesc, BSide.descN, coreMaster, hd, hg, hdie, waits_id hy] using q)
    have hv : (t.micro x.id true none).word (pkgWord y.die (y.segAddr 0 pc)) = v := by
      have q := hw 0 (by omega)
      rw [e0, List.getD_cons_zero] at q
      have hw1 : ∀ a, (t.micro x.id true none).word a = s.word a := fun a => by rw [hs]; rfl
      rw [hw1]
      simpa only [Berth.segAddr, Berth.segDesc, BSide.descN, hd, hg, hdie] using q
    have e1 : ∀ j, pc + 1 + w16 j = pc + w16 (j + 1) := fun j => by
      simp only [w16, BitVec.ofNat_add]
      rw [BitVec.add_assoc, BitVec.add_comm 1]
      rfl
    obtain ⟨u, hu, wu⟩ := ih w1 (pc + 1) (i + 1) (by omega) (fun j hj => by rw [e1]; exact hc _ (by omega))
      (fun j hj => by rw [e1]; exact hl _ (by omega)) (fun j hj => by rw [e1, hw _ (by omega), List.getD_cons_succ])
    refine ⟨u, ?_, by rwa [List.length_cons, show n + (ws.length + 1) = n + 1 + ws.length by omega]⟩
    unfold State.fetchWords
    simp only [hb, hr, hv, if_true]
    exact hu

end Sys2Proof.Machine
end

