-- ==== Sys2Proof/Laws/Issue.lean ====
section
/-! SUPPORT. What beginning an instruction leaves (State.spend), and how an instruction that has begun ends: one lemma for each operation of Machine/Ops.lean
on that path, which proofs about instructions cite. -/

namespace Sys2Proof.Machine

set_option Elab.async false

@[simp] theorem setReg_berths (s : State) (a v : Nat) : (s.setReg a v).berths = s.berths := rfl
@[simp] theorem setFld_berths (s : State) (a hi lo v : Nat) : (s.setFld a hi lo v).berths = s.berths := rfl
@[simp] theorem addFld_berths (s : State) (a hi lo v : Nat) : (s.addFld a hi lo v).berths = s.berths := rfl
@[simp] theorem setFlag_berths (s : State) (a n : Nat) (v : Bool) : (s.setFlag a n v).berths = s.berths := by cases v <;> rfl
@[simp] theorem hicSettle_berths (s : State) (d g n : Nat) : (s.hicSettle d g n).berths = s.berths := rfl
@[simp] theorem logFault_berths (s : State) (c d : Nat) (b : Option Nat) (k u : Nat) (l : List Nat) :
    (s.logFault c d b k u l).berths = s.berths := by simp only [State.logFault]

@[simp] theorem noteWake_berths (s : State) (d : Nat) (l : List Nat) : (s.noteWake d l).berths = s.berths := by
  unfold State.noteWake
  split
  · split <;> rfl
  · rfl

@[simp] theorem hicSet_berths (s : State) (d src : Nat) : (s.hicSet d src).berths = s.berths := by
  unfold State.hicSet
  dsimp only
  split
  · exact noteWake_berths ..
  · rw [hicSettle_berths, setFlag_berths, noteWake_berths]

@[simp] theorem logViol_berths (s : State) (d : Nat) (m : Master) (k : Kind) (t r a : Nat) : (s.logViol d m k t r a).berths = s.berths := by
  simp only [State.logViol, hicSet_berths, addFld_berths, setReg_berths]

@[simp] theorem logEcc_berths (s : State) (d wa : Nat) (ue scrub : Bool) (bit cls m : Nat) :
    (s.logEcc d wa ue scrub bit cls m).berths = s.berths := by
  unfold State.logEcc
  dsimp only
  split
  · rw [logFault_berths, hicSet_berths, addFld_berths, addFld_berths, setReg_berths, setReg_berths]
  · rw [hicSet_berths, addFld_berths, addFld_berths, setReg_berths, setReg_berths]

@[simp] theorem withLevel_berths (s : State) (d src : Nat) (f : State → State) (h : (f s).berths = s.berths) :
    (s.withLevel d src f).berths = s.berths := by
  unfold State.withLevel
  dsimp only
  split <;> simp [h]

@[simp] theorem queueRepair_berths (s : State) (d bank row : Nat) : (s.queueRepair d bank row).berths = s.berths := by
  unfold State.queueRepair
  dsimp only
  split
  · have h := withLevel_berths s d 422 (fun t => t.setFlag (dieAddr d (R.ST_REPAIR + 4 * bank)) 17 true) (setFlag_berths ..)
    split <;> exact h
  · split
    · rfl
    · exact withLevel_berths _ d 422 _ (setFlag_berths ..)

@[simp] theorem countRowCe_berths (s : State) (d wa : Nat) : (s.countRowCe d wa).berths = s.berths := by
  unfold State.countRowCe
  dsimp only
  split <;> simp

@[simp] theorem flipWords_berths (s : State) (d wa : Nat) (bits : List Nat) : (s.flipWords d wa bits).berths = s.berths := rfl

@[simp] theorem eccRead_berths (s : State) (d wa : Nat) (scrub : Bool) (cls m : Nat) : (s.eccRead d wa scrub cls m).2.berths = s.berths := by
  unfold State.eccRead
  dsimp only
  split
  · rfl
  · simp
  · simp
  · simp
  · split
    · simp [State.draw]
    · split <;> simp [State.draw]

@[simp] theorem bankRead_berths (s : State) (d wa : Nat) (m : Master) : (s.bankRead d wa m).2.berths = s.berths := by
  have h := eccRead_berths s d wa false m.cls (if m.cls < 6 then m.id else 0)
  unfold State.bankRead
  split <;> rename_i he <;> rw [he] at h <;> exact h

@[simp] theorem coreCheck_berths (s : State) (x : Berth) (n : SegReg) (off : Word) (k : Kind) :
    (s.coreCheck x n off k).2.berths = s.berths := by
  unfold State.coreCheck
  split
  · rfl
  · split <;> simp

/-- A berth keeps its still part while some time passes. -/
def Later (x y : Berth) : Prop := ∃ n, y.still = x.waited n

theorem Later.trans {x y z : Berth} (h : Later x y) (k : Later y z) : Later x z := by
  obtain ⟨n, hn⟩ := h
  obtain ⟨m, hm⟩ := k
  exact ⟨n + m, hm.trans (waited_still hn m)⟩

/-- A core without what the pace budget counts. -/
def Core.rest (k : Core) : Core := { k with charges := 0, overrun := 0 }

/-- A core that begins an instruction (R173, R202). -/
def Core.begun (k : Core) : Core := { k with hold := false, tf0 := k.fl.tf }

/-- A berth with another core. -/
def Berth.withCore (x : Berth) (k : Core) : Berth := { x with side := { x.side with core := k } }

@[simp] theorem withCore_core (x : Berth) (k : Core) : (x.withCore k).side.core = k := rfl
@[simp] theorem withCore_id (x : Berth) (k : Core) : (x.withCore k).id = x.id := rfl
@[simp] theorem withCore_park (x : Berth) (k : Core) : (x.withCore k).parkReq = x.parkReq := rfl

@[simp] theorem withCore_withCore (x : Berth) (k q : Core) : (x.withCore k).withCore q = x.withCore q := rfl

theorem begun_rest (k : Core) : k.begun.rest = { k.rest with hold := false, tf0 := k.fl.tf } := rfl

/-- The parts of a core that time alone leaves as they are. -/
theorem Later.core {x y : Berth} (h : Later x y) : y.id = x.id ∧ y.side.core.rest = x.side.core.rest := by
  obtain ⟨n, hn⟩ := h
  exact ⟨waits_id hn, (congrArg (fun z : Berth => z.side.core) hn :)⟩

theorem micro_later (s : State) (b : Nat) (c : Bool) (tw : Option (Fin 4 × TimerWrite)) {x : Berth} (h : s.berth b = some x)
    (hid : x.id = b) : ∃ y, (s.micro b c tw).berth b = some y ∧ Later x y := by
  obtain ⟨t, y, ht, hy, -⟩ := micro_still s b c tw h
  refine ⟨y, ?_, 1, hy⟩
  rw [ht, ← hid, ← waits_id hy]
  exact berth_setBerth t y

theorem micros_later (s : State) (b : Nat) (c : Bool) (n : Nat) {x : Berth} (h : s.berth b = some x) (hid : x.id = b) :
    ∃ y, (s.micros b c n).berth b = some y ∧ (Later x y ∨ y = x) := by
  induction n generalizing s x with
  | zero => exact ⟨x, h, .inr rfl⟩
  | succ n ih =>
    obtain ⟨y, hy, ly⟩ := micro_later s b c none h hid
    obtain ⟨z, hz, lz⟩ := ih (s.micro b c) hy (ly.core.1.trans hid)
    refine ⟨z, hz, .inl ?_⟩
    rcases lz with lz | rfl
    · exact ly.trans lz
    · exact ly

theorem coreRead_ok {s : State} {x : Berth} {n : SegReg} {off : Word} {k : Kind} {v : Word} {t : State}
    (h : s.coreRead x n off k = (.ok v, t)) : t.berths = s.berths := by
  have hc := coreCheck_berths s x n off k
  unfold State.coreRead at h
  split at h
  · simp at h
  · rename_i t1 e
    rw [e] at hc
    unfold State.coreFetchWord at h
    have hb := bankRead_berths t1 x.die (x.segAddr n off) (coreMaster x)
    split at h
    · rename_i w t2 e2
      rw [e2] at hb
      simp only [Prod.mk.injEq] at h
      obtain ⟨-, rfl⟩ := h
      exact hb.trans hc
    · simp at h

theorem fetchWords_later {s : State} {b : Nat} {pc : Word} {i : Nat} {w : Word} {ws : List Word} {u : State} {x : Berth}
    (h : s.fetchWords b pc i (w :: ws) = (some .done, u)) (hb : s.berth b = some x) (hid : x.id = b) :
    ∃ y, u.berth b = some y ∧ Later x y := by
  induction ws generalizing s pc i x w with
  | nil =>
    obtain ⟨y, hy, ly⟩ := micro_later s b true none hb hid
    unfold State.fetchWords at h
    simp only [hy] at h
    split at h
    · rename_i v t e
      split at h
      · simp only [State.fetchWords, Prod.mk.injEq, true_and] at h
        subst h
        exact ⟨y, by rw [← hy, State.berth, coreRead_ok e]; rfl, ly⟩
      · simp at h
    · simp at h
    · simp at h
  | cons w1 ws ih =>
    obtain ⟨y, hy, ly⟩ := micro_later s b true none hb hid
    unfold State.fetchWords at h
    simp only [hy] at h
    split at h
    · rename_i v t e
      split at h
      · have ht : t.berth b = some y := by rw [← hy, State.berth, coreRead_ok e]; rfl
        obtain ⟨z, hz, lz⟩ := ih h ht (ly.core.1.trans hid)
        exact ⟨z, hz, ly.trans lz⟩
      · simp at h
    · simp at h
    · simp at h

theorem modBerth_some {s : State} {b : Nat} {x : Berth} (h : s.berth b = some x) (f : Berth → Berth) :
    s.modBerth b f = s.setBerth (f x) := by
  simp only [State.modBerth, h]

theorem modCore_some {s : State} {b : Nat} {x : Berth} (h : s.berth b = some x) (f : Core → Core) :
    s.modCore b f = s.setBerth (x.withCore (f x.side.core)) := modBerth_some h _

/-- What State.spend found: the core could begin an instruction, its words were fetched, and all that its core holds but the charges is what it held. -/
structure Spent (s : State) (b : Nat) (words : List Word) (n : Nat) (tw : Option (Fin 4 × TimerWrite)) (u : State) (x y : Berth) (t : State) : Prop where
  found : s.berth b = some x
  ready : x.issueReady = true
  tf : x.side.core.fl.tf = false
  fetched : (s.modCore b Core.begun).fetchWords b x.side.core.pc 0 words = (some .done, t)
  spent : u = if words.length < n then (t.micros b true (n - words.length - 1)).micro b true tw else t
  berth : u.berth b = some y
  park : y.parkReq = none
  id : x.id = b

theorem spend_spec {s : State} {b : Nat} {words : List Word} {n : Nat} {tw : Option (Fin 4 × TimerWrite)} {u : State} {y : Berth}
    (h : s.spend b words n tw = some (u, y)) : ∃ x t, Spent s b words n tw u x y t := by
  unfold State.spend at h
  split at h
  · simp at h
  · rename_i x hx
    split at h
    · rename_i hr
      split at h
      · rename_i t ht
        dsimp only at h
        split at h
        · rename_i z hz
          split at h
          · rename_i hq
            simp only [Option.some.injEq, Prod.mk.injEq] at h
            obtain ⟨rfl, rfl⟩ := h
            simp only [Bool.and_eq_true, Option.isNone_iff_eq_none, decide_eq_true_eq, Bool.not_eq_true'] at hq hr
            exact ⟨x, t, hx, hr.1.1, hr.1.2, ht, rfl, hz, hq, hr.2⟩
          · simp at h
        · simp at h
      · simp at h
    · simp at h

/-- The berth once an instruction has begun and its microcycles are spent: the berth that began it, some time later. -/
theorem Spent.later {s u t : State} {b : Nat} {w : Word} {ws : List Word} {n : Nat} {tw : Option (Fin 4 × TimerWrite)} {x y : Berth}
    (h : Spent s b (w :: ws) n tw u x y t) : Later (x.withCore x.side.core.begun) y := by
  have hid := h.id
  have h0 : (s.modCore b Core.begun).berth b = some (x.withCore x.side.core.begun) := by
    rw [modCore_some h.found, ← hid]
    exact berth_setBerth s (x.withCore x.side.core.begun)
  obtain ⟨z, hz, lz⟩ := fetchWords_later h.fetched h0 hid
  have hs := h.spent
  have hb := h.berth
  split at hs
  · subst hs
    obtain ⟨z1, hz1, l1⟩ := micros_later t b true (n - (w :: ws).length - 1) hz (lz.core.1.trans hid)
    have lz1 : Later (x.withCore x.side.core.begun) z1 := by
      rcases l1 with l1 | rfl
      · exact lz.trans l1
      · exact lz
    obtain ⟨z2, hz2, l2⟩ := micro_later _ b true tw hz1 (lz1.core.1.trans hid)
    rw [hz2] at hb
    obtain rfl := Option.some.inj hb
    exact lz1.trans l2
  · subst hs
    rw [hz] at hb
    obtain rfl := Option.some.inj hb
    exact lz

/-- What an instruction that has begun finds: its berth, in RUN, with nothing pending, and not to be parked. -/
structure Begun (u : State) (b : Nat) (y : Berth) : Prop where
  berth : u.berth b = some y
  id : y.id = b
  park : y.parkReq = none
  run : y.side.core.st = .run
  pend : y.side.core.pend = none
  tf0 : y.side.core.tf0 = false

theorem rest_fields {k q : Core} (h : k.rest = q.rest) : k.st = q.st ∧ k.pend = q.pend ∧ k.tf0 = q.tf0 ∧ k.pc = q.pc ∧ k.seg = q.seg :=
  ⟨(congrArg Core.st h :), (congrArg Core.pend h :), (congrArg Core.tf0 h :), (congrArg Core.pc h :), (congrArg Core.seg h :)⟩

theorem Spent.begun {s u t : State} {b : Nat} {w : Word} {ws : List Word} {n : Nat} {tw : Option (Fin 4 × TimerWrite)} {x y : Berth}
    (h : Spent s b (w :: ws) n tw u x y t) : Begun u b y ∧ y.side.core.pc = x.side.core.pc ∧ y.side.core.seg = x.side.core.seg := by
  have l := h.later.core
  obtain ⟨h1, h2, h3, h4, h5⟩ := rest_fields l.2
  have hr := h.ready
  simp only [Berth.issueReady, Bool.and_eq_true, Option.isNone_iff_eq_none, decide_eq_true_eq] at hr
  exact ⟨⟨h.berth, l.1.trans h.id, h.park, h1.trans hr.1.1.2, h2.trans hr.1.2, h3.trans h.tf⟩, h4, h5⟩

/-- An instruction whose microcycles all come before its accesses, once its words are fetched and its microcycles spent. -/
theorem issue_spend {s u : State} {b : Nat} {w : Word} {ws : List Word} {n : Nat} {tw : Option (Fin 4 × TimerWrite)} {y : Berth}
    (h : s.spend b (w :: ws) n tw = some (u, y)) (m : Nat) (body : Body) :
    Begun u b y ∧ s.issue b (w :: ws) m n body tw = (body u y).2.conclude b y.side.core.pc y.side.core.seg[0] (body u y).1 := by
  obtain ⟨x, t, q⟩ := spend_spec h
  obtain ⟨g, hp, hs⟩ := q.begun
  refine ⟨g, ?_⟩
  have hf : (s.modCore b (fun q => { q with hold := false, tf0 := q.fl.tf })).fetchWords b x.side.core.pc 0 (w :: ws) = (some .done, t) :=
    q.fetched
  unfold State.issue
  simp only [q.found, q.ready, hf, Bool.not_true, Bool.false_eq_true, if_false]
  rw [← q.spent]
  simp only [q.berth, hp, hs]

theorem completed_eq (u : State) (y : Berth) (k : Core) :
    u.completed y k = u.setBerth (y.withCore { k with lastPc := y.side.core.pc, lastSel := y.side.core.seg[0] }) := rfl

/-- An instruction that ends with core k of the berth y, with nothing to trace and nothing pending. -/
theorem conclude_done {u : State} {b : Nat} {y : Berth} (g : Begun u b y) {v : State} {k : Core}
    (hv : v = u.setBerth (y.withCore k)) (ht : k.tf0 = false) (hp : k.pend = none) (pc : Word) (sel : BitVec 4) :
    v.conclude b pc sel .done = u.setBerth (y.withCore { k with lastPc := pc, lastSel := sel }) := by
  have h1 : v.berth b = some (y.withCore k) := by
    rw [hv, ← g.id]
    exact berth_setBerth u (y.withCore k)
  have h2 : k.retired pc sel = { k with lastPc := pc, lastSel := sel } := by
    simp only [Core.retired, ht, Bool.false_and, Bool.false_eq_true, if_false]
  unfold State.conclude
  dsimp only
  rw [modCore_some h1, withCore_core, h2, hv, withCore_withCore]
  generalize hq : ({ k with lastPc := pc, lastSel := sel } : Core) = q
  have hqp : q.pend = none := by rw [← hq]; exact hp
  rw [setBerth_setBerth u (y.withCore k) (y.withCore q) rfl]
  have h3 : (u.setBerth (y.withCore q)).berth b = some (y.withCore q) := by
    rw [← g.id]
    exact berth_setBerth u (y.withCore q)
  unfold State.settle
  rw [h3]
  simp only [withCore_core, withCore_park, g.park, Option.isSome_none, Bool.false_eq_true, if_false, hqp]

/-- An instruction that only changes its core. -/
theorem issueCore_spend {s u : State} {b : Nat} {w : Word} {ws : List Word} {n : Nat} {y : Berth} (h : s.spend b (w :: ws) n = some (u, y)) (f : Core → Core)
    (ht : (f { y.side.core with pc := y.side.core.pc + w16 (w :: ws).length }).tf0 = false)
    (hp : (f { y.side.core with pc := y.side.core.pc + w16 (w :: ws).length }).pend = none) :
    s.issueCore b (w :: ws) n f = u.completed y (f { y.side.core with pc := y.side.core.pc + w16 (w :: ws).length }) := by
  obtain ⟨g, hi⟩ := issue_spend h n (coreBody (w :: ws).length f)
  unfold State.issueCore
  rw [hi]
  exact conclude_done g (modCore_some (g.id ▸ g.berth) _) ht hp _ _

end Sys2Proof.Machine
end

