-- ==== Sys2Proof/Laws/Keeps.lean ====
section
/-! SUPPORT. What every operation of the block keeps: the queue of waiting commands, the part, and the canonical form of the cellar. -/

namespace Sys2Proof.Machine

set_option Elab.async false

/-- From s to t the queue and the part stay, and a cellar in canonical form stays so. -/
structure Keeps (s t : State) : Prop where
  pending : t.pending = s.pending
  part : t.part = s.part
  mem : Memory.wf s.mem = true → Memory.wf t.mem = true

theorem keeps_iff (s t : State) : Keeps s t ↔
    t.pending = s.pending ∧ t.part = s.part ∧ (Memory.wf s.mem = true → Memory.wf t.mem = true) :=
  ⟨fun h => ⟨h.1, h.2, h.3⟩, fun h => ⟨h.1, h.2.1, h.2.2⟩⟩

theorem Keeps.refl (s : State) : Keeps s s := ⟨rfl, rfl, id⟩

theorem Keeps.trans {s t u : State} (h : Keeps s t) (k : Keeps t u) : Keeps s u :=
  ⟨k.1.trans h.1, k.2.trans h.2, k.3 ∘ h.3⟩

theorem foldl_keeps {α : Type} (f : State → α → State) (h : ∀ t x, Keeps t (f t x)) (s : State) (l : List α) :
    Keeps s (l.foldl f s) := by
  induction l generalizing s with
  | nil => exact .refl s
  | cons a l ih => exact (h s a).trans (ih _)

/-- A fold over a pair whose second half is the state. -/
theorem foldl_keeps2 {α β : Type} (f : β × State → α → β × State) (h : ∀ t x, Keeps t.2 (f t x).2) (s : β × State) (l : List α) :
    Keeps s.2 (l.foldl f s).2 := by
  induction l generalizing s with
  | nil => exact .refl _
  | cons a l ih => exact (h s a).trans (ih _)

/-- A fold over a triple whose last part is the state. -/
theorem foldl_keeps3 {α β γ : Type} (f : β × γ × State → α → β × γ × State) (h : ∀ t x, Keeps t.2.2 (f t x).2.2) (s : β × γ × State)
    (l : List α) : Keeps s.2.2 (l.foldl f s).2.2 := by
  induction l generalizing s with
  | nil => exact .refl _
  | cons a l ih => exact (h s a).trans (ih _)

/-- A fold over a tuple whose first part is the state. -/
theorem foldl_keeps1 {α β : Type} (f : State × β → α → State × β) (h : ∀ t x, Keeps t.1 (f t x).1) (s : State × β) (l : List α) :
    Keeps s.1 (l.foldl f s).1 := by
  induction l generalizing s with
  | nil => exact .refl _
  | cons a l ih => exact (h s a).trans (ih _)

/-- A fold over anything that carries a state, which g reads. -/
theorem foldl_keepsAt {α σ : Type} (g : σ → State) (f : σ → α → σ) (h : ∀ t x, Keeps (g t) (g (f t x))) (s : σ) (l : List α) :
    Keeps (g s) (g (l.foldl f s)) := by
  induction l generalizing s with
  | nil => exact .refl _
  | cons a l ih => exact (h s a).trans (ih _)

/-- What a command answers keeps them, now or in flight. -/
def ResKeeps (s : State) (r : Res) : Prop :=
  (∀ v d t, r = .ok v d t → Keeps s t) ∧ (∀ w t, r = .later w t → Keeps s t) ∧ (∀ e t, r = .fail e t → Keeps s t)

end Sys2Proof.Machine
end

