-- ==== Sys2Proof/Laws/Keeps/Regs.lean ====
section
/-! SUPPORT. Every operation of Machine/Regs.lean keeps the queue, the part and the canonical form of the cellar. -/

namespace Sys2Proof.Machine

set_option Elab.async false

theorem setReg_keeps (s : State) (a : Nat) (v : Nat)  :
    Keeps s (State.setReg s a v) := by
  unfold State.setReg
  grind [keeps_iff]

theorem resetReg_keeps (s : State) (a : Nat)  :
    Keeps s (State.resetReg s a) := by
  unfold State.resetReg
  grind [keeps_iff]

theorem setFld_keeps (s : State) (a : Nat) (hi : Nat) (lo : Nat) (x : Nat)  :
    Keeps s (State.setFld s a hi lo x) := by
  unfold State.setFld
  grind [keeps_iff, setReg_keeps]

theorem noteSet_keeps (s : State) (a : Nat) (m : Nat)  :
    Keeps s (State.noteSet s a m) := by
  unfold State.noteSet
  grind [keeps_iff]

theorem setFlag_keeps (s : State) (a : Nat) (n : Nat) (x : Bool)  :
    Keeps s (State.setFlag s a n x) := by
  unfold State.setFlag
  grind [keeps_iff, noteSet_keeps, setFld_keeps]

theorem setBits_keeps (s : State) (a : Nat) (m : Nat)  :
    Keeps s (State.setBits s a m) := by
  unfold State.setBits
  grind [keeps_iff, noteSet_keeps, setReg_keeps]

theorem addFld_keeps (s : State) (a : Nat) (hi : Nat) (lo : Nat) (k : Nat)  :
    Keeps s (State.addFld s a hi lo k) := by
  unfold State.addFld
  grind [keeps_iff, setFld_keeps]

theorem draw_keeps (s : State)  :
    Keeps s (State.draw s).2 := by
  unfold State.draw
  grind [keeps_iff]

theorem eachClkstat_keeps (s : State) (f : State → Nat → State)  (hf : ∀ t m, Keeps t (f t m)) :
    Keeps s (State.eachClkstat s f) := by
  unfold State.eachClkstat
  grind [keeps_iff, foldl_keeps, foldl_keeps1, foldl_keeps2, foldl_keeps3]

theorem drawInt_keeps (s : State)  :
    Keeps s (State.drawInt s).2 := by
  unfold State.drawInt
  grind [keeps_iff, draw_keeps]

theorem setSlot_keeps (s : State) (d : Nat) (k : Nat) (n : Nat) (v : Nat)  :
    Keeps s (State.setSlot s d k n v) := by
  unfold State.setSlot
  grind [keeps_iff]

theorem setBerth_keeps (s : State) (x : Berth)  :
    Keeps s (State.setBerth s x) := by
  unfold State.setBerth
  grind [keeps_iff]

theorem modBerth_keeps (s : State) (b : Nat) (f : Berth → Berth)  :
    Keeps s (State.modBerth s b f) := by
  unfold State.modBerth
  grind [keeps_iff, setBerth_keeps]

end Sys2Proof.Machine
end

