-- ==== Sys2Proof/Laws/Keeps/Hic.lean ====
section
/-! SUPPORT. Every operation of Machine/Hic.lean keeps the queue, the part and the canonical form of the cellar. -/

namespace Sys2Proof.Machine

set_option Elab.async false

theorem setModer_keeps (s : State) (d : Nat) (g : Nat) (m : Moder)  :
    Keeps s (State.setModer s d g m) := by
  unfold State.setModer
  grind [keeps_iff]

theorem hicModer_keeps (s : State) (d : Nat) (g : Nat) (delta : Nat) (wr : Bool)  :
    Keeps s (State.hicModer s d g delta wr) := by
  unfold State.hicModer
  grind [keeps_iff, setModer_keeps]

theorem hicSettle_keeps (s : State) (d : Nat) (g : Nat) (delta : Nat)  :
    Keeps s (State.hicSettle s d g delta) := by
  unfold State.hicSettle
  grind [keeps_iff, hicModer_keeps]

theorem moderTime_keeps (s : State)  :
    Keeps s (State.moderTime s) := by
  unfold State.moderTime
  grind [keeps_iff, foldl_keeps, foldl_keeps1, foldl_keeps2, foldl_keeps3, hicSettle_keeps]

theorem noteWake_keeps (s : State) (d : Nat) (srcs : List Nat)  :
    Keeps s (State.noteWake s d srcs) := by
  unfold State.noteWake
  grind [keeps_iff]

theorem hicSet_keeps (s : State) (d : Nat) (src : Nat)  :
    Keeps s (State.hicSet s d src) := by
  unfold State.hicSet
  grind [keeps_iff, hicSettle_keeps, noteWake_keeps, setFlag_keeps]

theorem withLevel_keeps (s : State) (d : Nat) (src : Nat) (f : State → State)  (hf : ∀ t, Keeps t (f t)) :
    Keeps s (State.withLevel s d src f) := by
  unfold State.withLevel
  grind [keeps_iff, hicSet_keeps]

theorem hicEoi_keeps (s : State) (d : Nat) (src : Nat)  :
    Keeps s (State.hicEoi s d src) := by
  unfold State.hicEoi
  grind [keeps_iff, hicSet_keeps]

end Sys2Proof.Machine
end

