-- ==== Sys2Proof/Laws/Keeps/Events.lean ====
section
/-! SUPPORT. Every operation of Machine/Events.lean keeps the queue, the part and the canonical form of the cellar. -/

namespace Sys2Proof.Machine

set_option Elab.async false

theorem modEp_keeps (s : State) (e : Nat) (f : Endpoint → Endpoint)  :
    Keeps s (State.modEp s e f) := by
  unfold State.modEp
  grind [keeps_iff]

theorem emitVec_keeps (s : State) (e : Nat) (v : Nat)  :
    Keeps s (State.emitVec s e v) := by
  unfold State.emitVec
  grind [keeps_iff, modEp_keeps, setFlag_keeps]

theorem sendVec_keeps (s : State) (e : Nat) (v : Nat)  :
    Keeps s (State.sendVec s e v) := by
  unfold State.sendVec
  grind [keeps_iff, emitVec_keeps, modEp_keeps]

theorem dueVecs_keeps (s : State) (e : Nat)  :
    Keeps s (State.dueVecs s e) := by
  unfold State.dueVecs
  grind [keeps_iff, foldl_keeps, foldl_keeps1, foldl_keeps2, foldl_keeps3, emitVec_keeps, modEp_keeps]

theorem writeEvent_keeps (s : State) (e : Nat) (ev : Event)  :
    Keeps s (State.writeEvent s e ev) := by
  unfold State.writeEvent
  grind [keeps_iff, modEp_keeps, sendVec_keeps]

theorem postTo_keeps (s : State) (e : Nat) (ev : Event)  :
    Keeps s (State.postTo s e ev) := by
  unfold State.postTo
  grind [keeps_iff, addFld_keeps, modEp_keeps, writeEvent_keeps]

theorem postAt_keeps (s : State) (t : Nat) (code : Nat) (berth : Option Nat) (die : Nat) (detail : List Byte)  :
    Keeps s (State.postAt s t code berth die detail) := by
  unfold State.postAt
  grind [keeps_iff, postTo_keeps]

theorem post_keeps (s : State) (code : Nat) (berth : Option Nat) (die : Nat) (detail : List Byte)  :
    Keeps s (State.post s code berth die detail) := by
  unfold State.post
  grind [keeps_iff, postAt_keeps]

theorem drainHeld_keeps (s : State) (e : Nat) (z0 : Nat) :
    Keeps s (State.drainHeld s e z0) := by
  induction z0 generalizing s e with
  | zero => grind [State.drainHeld, keeps_iff, modEp_keeps, writeEvent_keeps]
  | succ n ih => grind [State.drainHeld, keeps_iff, modEp_keeps, writeEvent_keeps]

theorem logFault_keeps (s : State) (code : Nat) (die : Nat) (berth : Option Nat) (slot : Nat) (unit : Nat) (detail : List Nat)  :
    Keeps s (State.logFault s code die berth slot unit detail) := by
  unfold State.logFault
  grind [keeps_iff]

theorem writeCompletion_keeps (s : State) (e : Nat) (n : Nat) (cid : Nat) (status : Nat) (result : Nat)  :
    Keeps s (State.writeCompletion s e n cid status result) := by
  unfold State.writeCompletion
  grind [keeps_iff, modEp_keeps, sendVec_keeps]

theorem complete_keeps (s : State) (e : Nat) (n : Nat) (cid : Nat) (status : Nat) (result : Nat)  :
    Keeps s (State.complete s e n cid status result) := by
  unfold State.complete
  grind [keeps_iff, modEp_keeps, writeCompletion_keeps]

theorem drainDone_keeps (s : State) (e : Nat) (n : Nat) (z0 : Nat) :
    Keeps s (State.drainDone s e n z0) := by
  induction z0 generalizing s e n with
  | zero => grind [State.drainDone, keeps_iff, modEp_keeps, writeCompletion_keeps]
  | succ n ih => grind [State.drainDone, keeps_iff, modEp_keeps, writeCompletion_keeps]

end Sys2Proof.Machine
end

