-- ==== Sys2Proof/Laws/Keeps/Cellar.lean ====
section
/-! SUPPORT. Every operation of Machine/Cellar.lean keeps the queue, the part and the canonical form of the cellar. -/

namespace Sys2Proof.Machine

set_option Elab.async false

theorem putWord_keeps (s : State) (w : Nat) (v : Word)  :
    Keeps s (State.putWord s w v) := by
  unfold State.putWord
  grind [keeps_iff, Memory.putWord_wf, Memory.putByte_wf, Memory.filter_wf]

theorem logEcc_keeps (s : State) (d : Nat) (wa : Nat) (ue : Bool) (scrub : Bool) (bit : Nat) (cls : Nat) (master : Nat)  :
    Keeps s (State.logEcc s d wa ue scrub bit cls master) := by
  unfold State.logEcc
  grind [keeps_iff, addFld_keeps, hicSet_keeps, logFault_keeps, setReg_keeps]

theorem countSpare_keeps (s : State) (d : Nat) (bank : Nat)  :
    Keeps s (State.countSpare s d bank) := by
  unfold State.countSpare
  grind [keeps_iff, addFld_keeps, setFlag_keeps, withLevel_keeps]

theorem queueRepair_keeps (s : State) (d : Nat) (bank : Nat) (row : Nat)  :
    Keeps s (State.queueRepair s d bank row) := by
  unfold State.queueRepair
  grind [keeps_iff, setFlag_keeps, withLevel_keeps]

theorem countRowCe_keeps (s : State) (d : Nat) (wa : Nat)  :
    Keeps s (State.countRowCe s d wa) := by
  unfold State.countRowCe
  grind [keeps_iff, queueRepair_keeps]

theorem flipWords_keeps (s : State) (d : Nat) (wa : Nat) (bits : List Nat)  :
    Keeps s (State.flipWords s d wa bits) := by
  unfold State.flipWords
  grind [keeps_iff, foldl_keeps, foldl_keeps1, foldl_keeps2, foldl_keeps3, Memory.putWord_wf, Memory.putByte_wf, Memory.filter_wf, putWord_keeps]

theorem eccRead_keeps (s : State) (d : Nat) (wa : Nat) (scrub : Bool) (cls : Nat) (master : Nat)  :
    Keeps s (State.eccRead s d wa scrub cls master).2 := by
  unfold State.eccRead
  grind [keeps_iff, countRowCe_keeps, draw_keeps, flipWords_keeps, logEcc_keeps]

theorem bankRead_keeps (s : State) (d : Nat) (wa : Nat) (m : Master)  :
    Keeps s (State.bankRead s d wa m).2 := by
  unfold State.bankRead
  grind [keeps_iff, eccRead_keeps]

theorem mergeRead_keeps (s : State) (d : Nat) (wa : Nat) (m : Master)  :
    Keeps s (State.mergeRead s d wa m) := by
  unfold State.mergeRead
  grind [keeps_iff, eccRead_keeps, flipWords_keeps]

theorem bankWrite_keeps (s : State) (d : Nat) (wa : Nat) (v : Word) (m : Master)  :
    Keeps s (State.bankWrite s d wa v m) := by
  unfold State.bankWrite
  grind [keeps_iff, Memory.putWord_wf, Memory.putByte_wf, Memory.filter_wf, mergeRead_keeps, putWord_keeps]

theorem bankWrite4_keeps (s : State) (d : Nat) (wa : Nat) (v : List Word)  :
    Keeps s (State.bankWrite4 s d wa v) := by
  unfold State.bankWrite4
  grind [keeps_iff, foldl_keeps, foldl_keeps1, foldl_keeps2, foldl_keeps3, Memory.putWord_wf, Memory.putByte_wf, Memory.filter_wf, putWord_keeps]

theorem bankWriteRun_keeps (s : State) (d : Nat) (wa : Nat) (v : List Word) (m : Master)  :
    Keeps s (State.bankWriteRun s d wa v m) := by
  unfold State.bankWriteRun
  grind [keeps_iff, foldl_keeps, foldl_keeps1, foldl_keeps2, foldl_keeps3, Memory.putWord_wf, Memory.putByte_wf, Memory.filter_wf, mergeRead_keeps, putWord_keeps]

end Sys2Proof.Machine
end

