-- ==== Sys2Proof/Laws/Keeps/Ledger.lean ====
section
/-! SUPPORT. Every operation of Machine/Ledger.lean keeps the queue, the part and the canonical form of the cellar. -/

namespace Sys2Proof.Machine

set_option Elab.async false

theorem setPage_keeps (s : State) (d : Nat) (p : Nat) (v : Nat)  :
    Keeps s (State.setPage s d p v) := by
  unfold State.setPage
  grind [keeps_iff]

theorem logViol_keeps (s : State) (d : Nat) (m : Master) (k : Kind) (target : Nat) (reason : Nat) (addr : Nat)  :
    Keeps s (State.logViol s d m k target reason addr) := by
  unfold State.logViol
  grind [keeps_iff, addFld_keeps, hicSet_keeps, setReg_keeps]

theorem cellRead_keeps (s : State) (md : Nat) (d : Nat) (wa : Nat) (m : Master) (k : Kind)  :
    Keeps s (State.cellRead s md d wa m k).2 := by
  unfold State.cellRead
  grind [keeps_iff, bankRead_keeps, logViol_keeps]

theorem cellWrite_keeps (s : State) (md : Nat) (d : Nat) (wa : Nat) (v : Word) (m : Master)  :
    Keeps s (State.cellWrite s md d wa v m).2 := by
  unfold State.cellWrite
  grind [keeps_iff, bankWrite_keeps, logViol_keeps]

end Sys2Proof.Machine
end

