-- ==== Sys2Proof/Laws/Keeps/Audio.lean ====
section
/-! SUPPORT. Every operation of Machine/Audio.lean keeps the queue, the part and the canonical form of the cellar. -/

namespace Sys2Proof.Machine

set_option Elab.async false

theorem undoEntry_keeps (s : State) (x : Berth) (wa : Nat)  :
    Keeps s (State.undoEntry s x wa).2.1 := by
  unfold State.undoEntry
  grind [keeps_iff, cellRead_keeps, cellWrite_keeps]

theorem ringFetch_keeps (s : State) (x : Berth) (sel base k fp n : Nat) :
    Keeps s (State.ringFetch s x sel base k fp n).1 := by
  unfold State.ringFetch
  split
  · exact .refl s
  · dsimp only
    split
    · exact cellRead_keeps ..
    · exact foldl_keeps1 _ (fun t i => by grind [keeps_iff, cellRead_keeps]) (s, _) _

theorem refill_keeps (s : State) (x : Berth) (sel : Nat) (base : Nat) (k : Nat) (q : SVoice)  :
    Keeps s (State.refill s x sel base k q).1 := by
  unfold State.refill
  grind [keeps_iff, ringFetch_keeps]

theorem sampleVoice_keeps (s : State) (x : Berth) (v : Nat)  :
    Keeps s (State.sampleVoice s x v).1 := by
  unfold State.sampleVoice
  grind [keeps_iff, refill_keeps, ringFetch_keeps]

theorem voice_keeps (s : State) (x : Berth) (m : Sums) (v : Nat)  :
    Keeps s (State.voice s x m v).1 := by
  unfold State.voice
  grind [keeps_iff, sampleVoice_keeps]

theorem fxRead_keeps (s : State) (x : Berth) (logged : Bool) (off : Nat)  :
    Keeps s (State.fxRead s x logged off).1 := by
  unfold State.fxRead
  grind [keeps_iff, cellRead_keeps]

theorem fxWrite_keeps (s : State) (x : Berth) (logged : Bool) (off : Nat) (v : Int)  :
    Keeps s (State.fxWrite s x logged off v).1 := by
  unfold State.fxWrite
  grind [keeps_iff, bankWrite_keeps, cellRead_keeps, cellWrite_keeps, undoEntry_keeps]

theorem comb_keeps (s : State) (x : Berth) (logged : Bool) (inp : Int) (k : Nat)  :
    Keeps s (State.comb s x logged inp k).1 := by
  unfold State.comb
  grind [keeps_iff, fxRead_keeps, fxWrite_keeps]

theorem combs_keeps (s : State) (x : Berth) (logged : Bool) (inp : Int) (taps : List Int) (k n : Nat) :
    Keeps s (State.combs s x logged inp taps k n).1.1 := by
  induction n generalizing s x logged taps k with
  | zero => exact .refl s
  | succ n ih => exact (comb_keeps s x logged inp k).trans (ih ..)

theorem delayLine_keeps (s : State) (x : Berth) (logged : Bool) (inp : Int)  :
    Keeps s (State.delayLine s x logged inp).1 := by
  unfold State.delayLine
  grind [keeps_iff, fxRead_keeps, fxWrite_keeps]

theorem effects_keeps (s : State) (x : Berth) (inp : Int) : Keeps s (State.effects s x inp).1 := by
  have h := combs_keeps s x false inp [] 0 4
  unfold State.effects
  generalize s.combs x false inp [] 0 4 = c at h ⊢
  split
  · exact .refl s
  · dsimp only
    have k := delayLine_keeps c.1.1 c.1.2.1 c.1.2.2 inp
    generalize c.1.1.delayLine c.1.2.1 c.1.2.2 inp = z at k ⊢
    exact h.trans k

theorem sampleVoices_keeps (s : State) (x : Berth) : Keeps s (State.sampleVoices s x).1 := by
  unfold State.sampleVoices
  exact foldl_keeps1 (fun (acc : State × Berth × Sums) n => acc.1.voice acc.2.1 acc.2.2 n) (fun t n => voice_keeps t.1 t.2.1 t.2.2 n) (s, _, _) _

theorem sampleInstant_keeps (s : State) (x : Berth) : Keeps s (State.sampleInstant s x).1 :=
  (sampleVoices_keeps s x).trans (effects_keeps _ _ _)

end Sys2Proof.Machine
end

