-- ==== Sys2Proof/Laws/Keeps/Berths.lean ====
section
/-! SUPPORT. Every operation of Machine/Berths.lean keeps the queue, the part and the canonical form of the cellar. -/

namespace Sys2Proof.Machine

set_option Elab.async false

theorem queueSlice_keeps (s : State) (d : Nat) (kind : Nat) (unit : Nat) (head : Bool)  :
    Keeps s (State.queueSlice s d kind unit head) := by
  unfold State.queueSlice
  grind [keeps_iff]

theorem slotToTest_keeps (s : State) (d : Nat) (k : Nat) (n : Nat) (fault : Bool)  :
    Keeps s (State.slotToTest s d k n fault) := by
  unfold State.slotToTest
  grind [keeps_iff, queueSlice_keeps, setFlag_keeps, setSlot_keeps]

theorem parkHere_keeps (s : State) (x : Berth) (cause : Nat)  :
    Keeps s (State.parkHere s x cause) := by
  unfold State.parkHere
  grind [keeps_iff, post_keeps, setBerth_keeps, slotToTest_keeps]

theorem settlePark_keeps (s : State) (b : Nat)  :
    Keeps s (State.settlePark s b) := by
  unfold State.settlePark
  grind [keeps_iff, parkHere_keeps]

theorem setCorr_keeps (s : State) (c : Int)  :
    Keeps s (State.setCorr s c) := by
  unfold State.setCorr
  grind [keeps_iff]

theorem micro_keeps (s : State) (b : Nat) (charged : Bool) (tw : Option (Fin 4 × TimerWrite))  :
    Keeps s (State.micro s b charged tw) := by
  unfold State.micro
  grind [keeps_iff, foldl_keeps, foldl_keeps1, foldl_keeps2, foldl_keeps3, sampleInstant_keeps, setBerth_keeps]

theorem micros_keeps (s : State) (b : Nat) (charged : Bool) (z0 : Nat) :
    Keeps s (State.micros s b charged z0) := by
  induction z0 generalizing s b charged with
  | zero => grind [State.micros, keeps_iff, micro_keeps]
  | succ n ih => grind [State.micros, keeps_iff, micro_keeps]

end Sys2Proof.Machine
end

