-- ==== Sys2Proof/Laws/Keeps/Pads.lean ====
section
/-! SUPPORT. Every operation of Machine/Pads.lean keeps the queue, the part and the canonical form of the cellar. -/

namespace Sys2Proof.Machine

set_option Elab.async false

theorem pinEvent_keeps (s : State) (n : Nat) (edge : Bool)  :
    Keeps s (State.pinEvent s n edge) := by
  unfold State.pinEvent
  grind [keeps_iff, hicSet_keeps, modBerth_keeps, setFlag_keeps]

theorem padChange_keeps (s : State) (n : Nat) (level : Bool)  :
    Keeps s (State.padChange s n level) := by
  unfold State.padChange
  grind [keeps_iff, addFld_keeps, pinEvent_keeps, setReg_keeps, withLevel_keeps]

theorem toLevel_keeps (s : State) (n : Nat) (v : Bool)  :
    Keeps s (State.toLevel s n v) := by
  unfold State.toLevel
  grind [keeps_iff, padChange_keeps]

theorem settlePad_keeps (s : State) (n : Nat)  :
    Keeps s (State.settlePad s n) := by
  unfold State.settlePad
  grind [keeps_iff, draw_keeps, toLevel_keeps]

theorem withPads_keeps (s : State) (f : State → State)  (hf : ∀ t, Keeps t (f t)) :
    Keeps s (State.withPads s f) := by
  unfold State.withPads
  grind [keeps_iff, foldl_keeps, foldl_keeps1, foldl_keeps2, foldl_keeps3, settlePad_keeps]

theorem boardLevel_keeps (s : State) (n : Nat) (v : Bool)  :
    Keeps s (State.boardLevel s n v) := by
  unfold State.boardLevel
  grind [keeps_iff, settlePad_keeps]

theorem setSwitch_keeps (s : State) (w : Switch)  :
    Keeps s (State.setSwitch s w) := by
  unfold State.setSwitch
  grind [keeps_iff]

theorem newCfg_keeps (s : State) (n : Nat) (f : State → State)  (hf : ∀ t, Keeps t (f t)) :
    Keeps s (State.newCfg s n f) := by
  unfold State.newCfg
  grind [keeps_iff, pinEvent_keeps, withLevel_keeps]

theorem pinEdges_keeps (s : State) (n : Nat)  :
    Keeps s (State.pinEdges s n) := by
  unfold State.pinEdges
  grind [keeps_iff, newCfg_keeps, setSwitch_keeps, settlePad_keeps]

theorem pinTime_keeps (s : State)  :
    Keeps s (State.pinTime s) := by
  unfold State.pinTime
  grind [keeps_iff, foldl_keeps, foldl_keeps1, foldl_keeps2, foldl_keeps3, pinEdges_keeps]

end Sys2Proof.Machine
end

