-- ==== Sys2Proof/Laws/Keeps/Ops.lean ====
section
/-! SUPPORT. Every operation of Machine/Ops.lean keeps the queue, the part and the canonical form of the cellar. -/

namespace Sys2Proof.Machine

set_option Elab.async false

theorem modCore_keeps (s : State) (b : Nat) (f : Core → Core)  :
    Keeps s (State.modCore s b f) := by
  unfold State.modCore
  grind [keeps_iff, modBerth_keeps]

theorem coreCheck_keeps (s : State) (x : Berth) (n : SegReg) (off : Word) (k : Kind)  :
    Keeps s (State.coreCheck s x n off k).2 := by
  unfold State.coreCheck
  grind [keeps_iff, logViol_keeps]

theorem askPark_keeps (s : State) (b : Nat) (cause : Nat)  :
    Keeps s (State.askPark s b cause) := by
  unfold State.askPark
  grind [keeps_iff, modBerth_keeps]

theorem coreFetchWord_keeps (s : State) (x : Berth) (n : SegReg) (off : Word)  :
    Keeps s (State.coreFetchWord s x n off).2 := by
  unfold State.coreFetchWord
  grind [keeps_iff, askPark_keeps, bankRead_keeps]

theorem coreRead_keeps (s : State) (x : Berth) (n : SegReg) (off : Word) (k : Kind)  :
    Keeps s (State.coreRead s x n off k).2 := by
  unfold State.coreRead
  grind [keeps_iff, coreCheck_keeps, coreFetchWord_keeps]

theorem coreStore_keeps (s : State) (x : Berth) (n : SegReg) (off : Word) (v : Word)  :
    Keeps s (State.coreStore s x n off v).2 := by
  unfold State.coreStore
  grind [keeps_iff, bankWrite_keeps, setBerth_keeps, undoEntry_keeps]

theorem frameCheck_keeps (s : State) (x : Berth) (lo : Int) (len : Nat) (k : Kind) :
    Keeps s (State.frameCheck s x lo len k).2 := by
  unfold State.frameCheck
  dsimp only
  split
  · exact .refl s
  · exact foldl_keeps2 _ (fun t o => by grind [keeps_iff, coreCheck_keeps]) (none, s) _

theorem pushWords_keeps (s : State) (b : Nat) (top : Word) (z0 : List Word) :
    Keeps s (State.pushWords s b top z0).2 := by
  induction z0 generalizing s b top with
  | nil => grind [State.pushWords, keeps_iff, coreStore_keeps, micro_keeps]
  | cons a l ih => grind [State.pushWords, keeps_iff, coreStore_keeps, micro_keeps]

theorem popWords_keeps (s : State) (b : Nat) (off : Word) (z0 : Nat) :
    Keeps s (State.popWords s b off z0).2 := by
  induction z0 generalizing s b off with
  | zero => grind [State.popWords, keeps_iff, coreFetchWord_keeps, micro_keeps]
  | succ n ih => grind [State.popWords, keeps_iff, coreFetchWord_keeps, micro_keeps]

theorem doubleFault_keeps (s : State) (b : Nat) (e : Exc) (c : Cause)  :
    Keeps s (State.doubleFault s b e c) := by
  unfold State.doubleFault
  grind [keeps_iff, logFault_keeps, modCore_keeps]

theorem enter_keeps (s : State) (b : Nat) (e : Exc)  :
    Keeps s (State.enter s b e) := by
  unfold State.enter
  grind [keeps_iff, doubleFault_keeps, frameCheck_keeps, micros_keeps, modCore_keeps, pushWords_keeps]

theorem settle_keeps (s : State) (b : Nat)  :
    Keeps s (State.settle s b) := by
  unfold State.settle
  grind [keeps_iff, enter_keeps, settlePark_keeps]

theorem fetchWords_keeps (s : State) (b : Nat) (pc : Word) (i : Nat) (z0 : List Word) :
    Keeps s (State.fetchWords s b pc i z0).2 := by
  induction z0 generalizing s b pc i with
  | nil => grind [State.fetchWords, keeps_iff, coreRead_keeps, micro_keeps]
  | cons a l ih => grind [State.fetchWords, keeps_iff, coreRead_keeps, micro_keeps]

theorem conclude_keeps (s : State) (b : Nat) (pc : Word) (sel : BitVec 4) (f : Fate)  :
    Keeps s (State.conclude s b pc sel f) := by
  unfold State.conclude
  grind [keeps_iff, micros_keeps, modCore_keeps, settle_keeps]

theorem issue_keeps (s : State) (b : Nat) (ws : List Word) (n : Nat) (pre : Nat) (body : Body) (tw : Option (Fin 4 × TimerWrite))  (hbody : ∀ t x, Keeps t (body t x).2) :
    Keeps s (State.issue s b ws n pre body tw) := by
  unfold State.issue
  grind [keeps_iff, conclude_keeps, fetchWords_keeps, micro_keeps, micros_keeps, modCore_keeps]

theorem coreBody_keeps (words : Nat) (f : Core → Core) (s : State) (x : Berth) :
    Keeps s (coreBody words f s x).2 := by
  unfold coreBody
  grind [keeps_iff, modCore_keeps]

theorem issueCore_keeps (s : State) (b : Nat) (ws : List Word) (n : Nat) (f : Core → Core)  :
    Keeps s (State.issueCore s b ws n f) := by
  unfold State.issueCore
  grind [keeps_iff, coreBody_keeps, issue_keeps]

end Sys2Proof.Machine
end

