-- ==== Sys2Proof/Laws/Keeps/B16System.lean ====
section
/-! SUPPORT. Every operation of Machine/B16System.lean keeps the queue, the part and the canonical form of the cellar. -/

namespace Sys2Proof.Machine

set_option Elab.async false

theorem execNop_keeps (b : Nat) (s : State)  :
    ∀ s', (execNop b s) = .next s' → Keeps s s' := by
  unfold execNop
  grind [keeps_iff, issueCore_keeps]

theorem execEi_keeps (b : Nat) (s : State)  :
    ∀ s', (execEi b s) = .next s' → Keeps s s' := by
  unfold execEi
  grind [keeps_iff, issueCore_keeps]

theorem execDi_keeps (b : Nat) (s : State)  :
    ∀ s', (execDi b s) = .next s' → Keeps s s' := by
  unfold execDi
  grind [keeps_iff, issueCore_keeps]

theorem execHalt_keeps (b : Nat) (s : State)  :
    ∀ s', (execHalt b s) = .next s' → Keeps s s' := by
  unfold execHalt
  grind [keeps_iff, issueCore_keeps]

theorem execLdseg_keeps (b : Nat) (n : SegReg) (src : SegSrc) (s : State)  :
    ∀ s', (execLdseg b n src s) = .next s' → Keeps s s' := by
  unfold execLdseg
  grind [keeps_iff, issueCore_keeps]

theorem execRdfl_keeps (b : Nat) (d : Reg) (s : State)  :
    ∀ s', (execRdfl b d s) = .next s' → Keeps s s' := by
  unfold execRdfl
  grind [keeps_iff, issueCore_keeps]

theorem execWrfl_keeps (b : Nat) (r : Reg) (s : State)  :
    ∀ s', (execWrfl b r s) = .next s' → Keeps s s' := by
  unfold execWrfl
  grind [keeps_iff, issueCore_keeps]

theorem trapBody_keeps (n : BitVec 4) (s : State) (x : Berth) :
    Keeps s (trapBody n s x).2 := by
  unfold trapBody
  grind [keeps_iff, modCore_keeps]

theorem execTrap_keeps (b : Nat) (n : BitVec 4) (s : State)  :
    ∀ s', (execTrap b n s) = .next s' → Keeps s s' := by
  unfold execTrap
  grind [keeps_iff, issue_keeps, trapBody_keeps]

theorem retiBody_keeps  (s : State) (x : Berth) :
    Keeps s (retiBody s x).2 := by
  unfold retiBody
  grind [keeps_iff, frameCheck_keeps, modCore_keeps, popWords_keeps]

theorem execReti_keeps (b : Nat) (s : State)  :
    ∀ s', (execReti b s) = .next s' → Keeps s s' := by
  unfold execReti
  grind [keeps_iff, issue_keeps, retiBody_keeps]

theorem waitBody_keeps (words : Nat) (st : BSide → CoreState) (s : State) (x : Berth) :
    Keeps s (waitBody words st s x).2 := by
  unfold waitBody
  grind [keeps_iff, modCore_keeps]

theorem waitBiBody_keeps  (s : State) (x : Berth) :
    Keeps s (waitBiBody s x).2 := by
  unfold waitBiBody
  grind [keeps_iff, setBerth_keeps, waitBody_keeps]

theorem execWait_keeps (b : Nat) (s : State)  :
    ∀ s', (execWait b s) = .next s' → Keeps s s' := by
  unfold execWait
  grind [keeps_iff, issue_keeps, waitBiBody_keeps]

theorem endWait_keeps (s : State) (b : Nat)  :
    Keeps s (State.endWait s b) := by
  unfold State.endWait
  grind [keeps_iff, modCore_keeps, settle_keeps]

theorem idleStep_keeps (s : State) (b : Nat)  :
    Keeps s (State.idleStep s b) := by
  unfold State.idleStep
  grind [keeps_iff, endWait_keeps, micro_keeps, settle_keeps]

theorem idleUntil_keeps (s : State) (b : Nat) (ev : Berth → Berth → Bool) (z0 : Nat) :
    Keeps s (State.idleUntil s b ev z0) := by
  induction z0 generalizing s b ev with
  | zero => grind [State.idleUntil, keeps_iff, idleStep_keeps]
  | succ n ih => grind [State.idleUntil, keeps_iff, idleStep_keeps]

theorem execWaitEnd_keeps (b : Nat) (k : Nat) (s : State)  :
    ∀ s', (execWaitEnd b k s) = .next s' → Keeps s s' := by
  unfold execWaitEnd
  grind [keeps_iff, idleUntil_keeps]

theorem execWaitlEnd_keeps (b : Nat) (k : Nat) (s : State)  :
    ∀ s', (execWaitlEnd b k s) = .next s' → Keeps s s' := by
  unfold execWaitlEnd
  grind [keeps_iff, idleUntil_keeps]

theorem execWaitcEnd_keeps (b : Nat) (k : Nat) (s : State)  :
    ∀ s', (execWaitcEnd b k s) = .next s' → Keeps s s' := by
  unfold execWaitcEnd
  grind [keeps_iff, idleUntil_keeps]

theorem execInterruptEntry_keeps (b : Nat) (s : State)  :
    ∀ s', (execInterruptEntry b s) = .next s' → Keeps s s' := by
  unfold execInterruptEntry
  grind [keeps_iff, modCore_keeps, settle_keeps]

end Sys2Proof.Machine
end

