-- ==== Sys2Proof/Laws/Keeps/B16Alu.lean ====
section
/-! SUPPORT. Every operation of Machine/B16Alu.lean keeps the queue, the part and the canonical form of the cellar. -/

namespace Sys2Proof.Machine

set_option Elab.async false

theorem execMov_keeps (b : Nat) (d : Reg) (r : Reg) (s : State)  :
    ∀ s', (execMov b d r s) = .next s' → Keeps s s' := by
  unfold execMov
  grind [keeps_iff, issueCore_keeps]

theorem execAdd_keeps (b : Nat) (d : Reg) (r : Reg) (s : State)  :
    ∀ s', (execAdd b d r s) = .next s' → Keeps s s' := by
  unfold execAdd
  grind [keeps_iff, issueCore_keeps]

theorem execAdc_keeps (b : Nat) (d : Reg) (r : Reg) (s : State)  :
    ∀ s', (execAdc b d r s) = .next s' → Keeps s s' := by
  unfold execAdc
  grind [keeps_iff, issueCore_keeps]

theorem execSub_keeps (b : Nat) (d : Reg) (r : Reg) (s : State)  :
    ∀ s', (execSub b d r s) = .next s' → Keeps s s' := by
  unfold execSub
  grind [keeps_iff, issueCore_keeps]

theorem execSbc_keeps (b : Nat) (d : Reg) (r : Reg) (s : State)  :
    ∀ s', (execSbc b d r s) = .next s' → Keeps s s' := by
  unfold execSbc
  grind [keeps_iff, issueCore_keeps]

theorem execCmp_keeps (b : Nat) (d : Reg) (r : Reg) (s : State)  :
    ∀ s', (execCmp b d r s) = .next s' → Keeps s s' := by
  unfold execCmp
  grind [keeps_iff, issueCore_keeps]

theorem execAnd_keeps (b : Nat) (d : Reg) (r : Reg) (s : State)  :
    ∀ s', (execAnd b d r s) = .next s' → Keeps s s' := by
  unfold execAnd
  grind [keeps_iff, issueCore_keeps]

theorem execOr_keeps (b : Nat) (d : Reg) (r : Reg) (s : State)  :
    ∀ s', (execOr b d r s) = .next s' → Keeps s s' := by
  unfold execOr
  grind [keeps_iff, issueCore_keeps]

theorem execXor_keeps (b : Nat) (d : Reg) (r : Reg) (s : State)  :
    ∀ s', (execXor b d r s) = .next s' → Keeps s s' := by
  unfold execXor
  grind [keeps_iff, issueCore_keeps]

theorem execTst_keeps (b : Nat) (d : Reg) (r : Reg) (s : State)  :
    ∀ s', (execTst b d r s) = .next s' → Keeps s s' := by
  unfold execTst
  grind [keeps_iff, issueCore_keeps]

theorem execNot_keeps (b : Nat) (d : Reg) (r : Reg) (s : State)  :
    ∀ s', (execNot b d r s) = .next s' → Keeps s s' := by
  unfold execNot
  grind [keeps_iff, issueCore_keeps]

theorem execNeg_keeps (b : Nat) (d : Reg) (r : Reg) (s : State)  :
    ∀ s', (execNeg b d r s) = .next s' → Keeps s s' := by
  unfold execNeg
  grind [keeps_iff, issueCore_keeps]

theorem execMovi_keeps (b : Nat) (d : Reg) (v : MoviSrc) (s : State)  :
    ∀ s', (execMovi b d v s) = .next s' → Keeps s s' := by
  unfold execMovi
  grind [keeps_iff, issueCore_keeps]

theorem execAddi_keeps (b : Nat) (d : Fin 4) (imm : BitVec 8) (s : State)  :
    ∀ s', (execAddi b d imm s) = .next s' → Keeps s s' := by
  unfold execAddi
  grind [keeps_iff, issueCore_keeps]

theorem execCmpi_keeps (b : Nat) (d : Fin 4) (imm : BitVec 8) (s : State)  :
    ∀ s', (execCmpi b d imm s) = .next s' → Keeps s s' := by
  unfold execCmpi
  grind [keeps_iff, issueCore_keeps]

theorem execAndi_keeps (b : Nat) (d : Fin 4) (imm : BitVec 8) (s : State)  :
    ∀ s', (execAndi b d imm s) = .next s' → Keeps s s' := by
  unfold execAndi
  grind [keeps_iff, issueCore_keeps]

theorem execShl_keeps (b : Nat) (d : Reg) (n : BitVec 4) (s : State)  :
    ∀ s', (execShl b d n s) = .next s' → Keeps s s' := by
  unfold execShl
  grind [keeps_iff, issueCore_keeps]

theorem execShr_keeps (b : Nat) (d : Reg) (n : BitVec 4) (s : State)  :
    ∀ s', (execShr b d n s) = .next s' → Keeps s s' := by
  unfold execShr
  grind [keeps_iff, issueCore_keeps]

theorem execSar_keeps (b : Nat) (d : Reg) (n : BitVec 4) (s : State)  :
    ∀ s', (execSar b d n s) = .next s' → Keeps s s' := by
  unfold execSar
  grind [keeps_iff, issueCore_keeps]

theorem execRol_keeps (b : Nat) (d : Reg) (n : BitVec 4) (s : State)  :
    ∀ s', (execRol b d n s) = .next s' → Keeps s s' := by
  unfold execRol
  grind [keeps_iff, issueCore_keeps]

theorem execRor_keeps (b : Nat) (d : Reg) (n : BitVec 4) (s : State)  :
    ∀ s', (execRor b d n s) = .next s' → Keeps s s' := by
  unfold execRor
  grind [keeps_iff, issueCore_keeps]

theorem execRcl_keeps (b : Nat) (d : Reg) (n : BitVec 4) (s : State)  :
    ∀ s', (execRcl b d n s) = .next s' → Keeps s s' := by
  unfold execRcl
  grind [keeps_iff, issueCore_keeps]

theorem execRcr_keeps (b : Nat) (d : Reg) (n : BitVec 4) (s : State)  :
    ∀ s', (execRcr b d n s) = .next s' → Keeps s s' := by
  unfold execRcr
  grind [keeps_iff, issueCore_keeps]

theorem execMulu_keeps (b : Nat) (p : Fin 8) (r : Reg) (s : State)  :
    ∀ s', (execMulu b p r s) = .next s' → Keeps s s' := by
  unfold execMulu
  grind [keeps_iff, issueCore_keeps]

theorem execMuls_keeps (b : Nat) (p : Fin 8) (r : Reg) (s : State)  :
    ∀ s', (execMuls b p r s) = .next s' → Keeps s s' := by
  unfold execMuls
  grind [keeps_iff, issueCore_keeps]

theorem divBody_keeps (p : Fin 8) (r : Reg) (op : Word → Word → Word → Option (Word × Word)) (s : State) (x : Berth) :
    Keeps s (divBody p r op s x).2 := by
  unfold divBody
  grind [keeps_iff, coreBody_keeps]

theorem execDivu_keeps (b : Nat) (p : Fin 8) (r : Reg) (s : State)  :
    ∀ s', (execDivu b p r s) = .next s' → Keeps s s' := by
  unfold execDivu
  grind [keeps_iff, divBody_keeps, issue_keeps]

theorem execDivs_keeps (b : Nat) (p : Fin 8) (r : Reg) (s : State)  :
    ∀ s', (execDivs b p r s) = .next s' → Keeps s s' := by
  unfold execDivs
  grind [keeps_iff, divBody_keeps, issue_keeps]

end Sys2Proof.Machine
end

