-- ==== Sys2Proof/Laws/Keeps/B16Mem.lean ====
section
/-! SUPPORT. Every operation of Machine/B16Mem.lean keeps the queue, the part and the canonical form of the cellar. -/

namespace Sys2Proof.Machine

set_option Elab.async false

theorem loadBody_keeps (d : Reg) (m : MemForm) (s : State) (x : Berth) :
    Keeps s (loadBody d m s x).2 := by
  unfold loadBody
  grind [keeps_iff, coreBody_keeps, coreRead_keeps]

theorem execLd_keeps (b : Nat) (d : Reg) (m : MemForm) (s : State)  :
    ∀ s', (execLd b d m s) = .next s' → Keeps s s' := by
  unfold execLd
  grind [keeps_iff, issue_keeps, loadBody_keeps]

theorem storeBody_keeps (r : Reg) (m : MemForm) (s : State) (x : Berth) :
    Keeps s (storeBody r m s x).2 := by
  unfold storeBody
  grind [keeps_iff, coreBody_keeps, coreCheck_keeps, coreStore_keeps]

theorem execSt_keeps (b : Nat) (r : Reg) (m : MemForm) (s : State)  :
    ∀ s', (execSt b r m s) = .next s' → Keeps s s' := by
  unfold execSt
  grind [keeps_iff, issue_keeps, storeBody_keeps]

theorem pushBody_keeps (r : Reg) (s : State) (x : Berth) :
    Keeps s (pushBody r s x).2 := by
  unfold pushBody
  grind [keeps_iff, coreBody_keeps, coreStore_keeps, frameCheck_keeps]

theorem execPush_keeps (b : Nat) (r : Reg) (s : State)  :
    ∀ s', (execPush b r s) = .next s' → Keeps s s' := by
  unfold execPush
  grind [keeps_iff, issue_keeps, pushBody_keeps]

theorem popBody_keeps (d : Reg) (s : State) (x : Berth) :
    Keeps s (popBody d s x).2 := by
  unfold popBody
  grind [keeps_iff, coreBody_keeps, coreFetchWord_keeps, frameCheck_keeps]

theorem execPop_keeps (b : Nat) (d : Reg) (s : State)  :
    ∀ s', (execPop b d s) = .next s' → Keeps s s' := by
  unfold execPop
  grind [keeps_iff, issue_keeps, popBody_keeps]

theorem execBcc_keeps (b : Nat) (c : Cond) (disp : BitVec 8) (s : State)  :
    ∀ s', (execBcc b c disp s) = .next s' → Keeps s s' := by
  unfold execBcc
  grind [keeps_iff, issueCore_keeps]

theorem execJmp_keeps (b : Nat) (t : Target) (s : State)  :
    ∀ s', (execJmp b t s) = .next s' → Keeps s s' := by
  unfold execJmp
  grind [keeps_iff, issueCore_keeps]

theorem callBody_keeps (t : Target) (mask : Word) (s : State) (x : Berth) :
    Keeps s (callBody t mask s x).2 := by
  unfold callBody
  grind [keeps_iff, frameCheck_keeps, modCore_keeps, pushWords_keeps]

theorem execCall_keeps (b : Nat) (t : Target) (mask : Word) (s : State)  :
    ∀ s', (execCall b t mask s) = .next s' → Keeps s s' := by
  unfold execCall
  grind [keeps_iff, callBody_keeps, issue_keeps]

theorem retBody_keeps  (s : State) (x : Berth) :
    Keeps s (retBody s x).2 := by
  unfold retBody
  dsimp only
  repeat' split
  all_goals grind [keeps_iff, frameCheck_keeps, modCore_keeps, popWords_keeps]

theorem execRet_keeps (b : Nat) (s : State)  :
    ∀ s', (execRet b s) = .next s' → Keeps s s' := by
  unfold execRet
  grind [keeps_iff, issue_keeps, retBody_keeps]

end Sys2Proof.Machine
end

