-- ==== Sys2Proof/Laws/Keeps/B16Port.lean ====
section
/-! SUPPORT. Every operation of Machine/B16Port.lean keeps the queue, the part and the canonical form of the cellar. -/

namespace Sys2Proof.Machine

set_option Elab.async false

theorem pinDenied_keeps (s : State) (x : Berth) (p : Nat) (k : Kind)  :
    Keeps s (State.pinDenied s x p k).2 := by
  unfold State.pinDenied
  grind [keeps_iff, logViol_keeps]

theorem inBody_keeps (d : Reg) (o : PortOp) (s : State) (x : Berth) :
    Keeps s (inBody d o s x).2 := by
  unfold inBody
  grind [keeps_iff, coreBody_keeps, pinDenied_keeps, setBerth_keeps]

theorem execIn_keeps (b : Nat) (d : Reg) (o : PortOp) (s : State)  :
    ∀ s', (execIn b d o s) = .next s' → Keeps s s' := by
  unfold execIn
  grind [keeps_iff, inBody_keeps, issue_keeps]

theorem outBody_keeps (o : PortOp) (r : Reg) (s : State) (x : Berth) :
    Keeps s (outBody o r s x).2 := by
  unfold outBody
  grind [keeps_iff, coreBody_keeps, pinDenied_keeps, setBerth_keeps]

theorem issueOut_keeps (s : State) (b : Nat) (o : PortOp) (r : Reg)  :
    Keeps s (State.issueOut s b o r) := by
  unfold State.issueOut
  grind [keeps_iff, issue_keeps, outBody_keeps]

theorem execOut_keeps (b : Nat) (o : PortOp) (r : Reg) (s : State)  :
    ∀ s', (execOut b o r s) = .next s' → Keeps s s' := by
  unfold execOut
  grind [keeps_iff, issueOut_keeps]

theorem outIn_keeps (s : State) (b : Nat) (o : PortOp) (r : Reg) (cls : Nat → Bool)  :
    Keeps s (State.outIn s b o r cls) := by
  unfold State.outIn
  grind [keeps_iff, issueOut_keeps]

theorem execLvPortWrite_keeps (b : Nat) (o : PortOp) (r : Reg) (s : State)  :
    ∀ s', (execLvPortWrite b o r s) = .next s' → Keeps s s' := by
  unfold execLvPortWrite
  grind [keeps_iff, outIn_keeps]

theorem execShPortWrite_keeps (b : Nat) (o : PortOp) (r : Reg) (s : State)  :
    ∀ s', (execShPortWrite b o r s) = .next s' → Keeps s s' := by
  unfold execShPortWrite
  grind [keeps_iff, outIn_keeps]

theorem execCommitArm_keeps (b : Nat) (o : PortOp) (r : Reg) (s : State)  :
    ∀ s', (execCommitArm b o r s) = .next s' → Keeps s s' := by
  unfold execCommitArm
  grind [keeps_iff, outIn_keeps]

theorem execPaceSet_keeps (b : Nat) (o : PortOp) (r : Reg) (s : State)  :
    ∀ s', (execPaceSet b o r s) = .next s' → Keeps s s' := by
  unfold execPaceSet
  grind [keeps_iff, outIn_keeps]

theorem execBtValueWrite_keeps (b : Nat) (o : PortOp) (r : Reg) (s : State)  :
    ∀ s', (execBtValueWrite b o r s) = .next s' → Keeps s s' := by
  unfold execBtValueWrite
  grind [keeps_iff, outIn_keeps]

theorem execBiPendWrite_keeps (b : Nat) (o : PortOp) (r : Reg) (s : State)  :
    ∀ s', (execBiPendWrite b o r s) = .next s' → Keeps s s' := by
  unfold execBiPendWrite
  grind [keeps_iff, outIn_keeps]

theorem execBiEoi_keeps (b : Nat) (o : PortOp) (r : Reg) (s : State)  :
    ∀ s', (execBiEoi b o r s) = .next s' → Keeps s s' := by
  unfold execBiEoi
  grind [keeps_iff, outIn_keeps]

theorem outFc_keeps (s : State) (b : Nat) (o : PortOp) (r : Reg) (abort : Bool)  :
    Keeps s (State.outFc s b o r abort) := by
  unfold State.outFc
  grind [keeps_iff, outIn_keeps]

theorem execFerryGo_keeps (b : Nat) (o : PortOp) (r : Reg) (s : State)  :
    ∀ s', (execFerryGo b o r s) = .next s' → Keeps s s' := by
  unfold execFerryGo
  grind [keeps_iff, outFc_keeps]

theorem execFerryAbort_keeps (b : Nat) (o : PortOp) (r : Reg) (s : State)  :
    ∀ s', (execFerryAbort b o r s) = .next s' → Keeps s s' := by
  unfold execFerryAbort
  grind [keeps_iff, outFc_keeps]

theorem execLighterPush_keeps (b : Nat) (o : PortOp) (r : Reg) (s : State)  :
    ∀ s', (execLighterPush b o r s) = .next s' → Keeps s s' := by
  unfold execLighterPush
  grind [keeps_iff, outIn_keeps]

theorem execLjDeadtWrite_keeps (b : Nat) (o : PortOp) (r : Reg) (s : State)  :
    ∀ s', (execLjDeadtWrite b o r s) = .next s' → Keeps s s' := by
  unfold execLjDeadtWrite
  grind [keeps_iff, outIn_keeps]

theorem outKey_keeps (s : State) (b : Nat) (o : PortOp) (r : Reg) (bit : Nat)  :
    Keeps s (State.outKey s b o r bit) := by
  unfold State.outKey
  grind [keeps_iff, outIn_keeps]

theorem execVoiceKeyon_keeps (b : Nat) (o : PortOp) (r : Reg) (s : State)  :
    ∀ s', (execVoiceKeyon b o r s) = .next s' → Keeps s s' := by
  unfold execVoiceKeyon
  grind [keeps_iff, outKey_keeps]

theorem execVoiceKeyoff_keeps (b : Nat) (o : PortOp) (r : Reg) (s : State)  :
    ∀ s', (execVoiceKeyoff b o r s) = .next s' → Keeps s s' := by
  unfold execVoiceKeyoff
  grind [keeps_iff, outKey_keeps]

theorem execSampleRingConfig_keeps (b : Nat) (o : PortOp) (r : Reg) (s : State)  :
    ∀ s', (execSampleRingConfig b o r s) = .next s' → Keeps s s' := by
  unfold execSampleRingConfig
  grind [keeps_iff, outIn_keeps]

theorem execPadRpWrite_keeps (b : Nat) (o : PortOp) (r : Reg) (s : State)  :
    ∀ s', (execPadRpWrite b o r s) = .next s' → Keeps s s' := by
  unfold execPadRpWrite
  grind [keeps_iff, outIn_keeps]

theorem execLentPinWrite_keeps (b : Nat) (o : PortOp) (r : Reg) (s : State)  :
    ∀ s', (execLentPinWrite b o r s) = .next s' → Keeps s s' := by
  unfold execLentPinWrite
  grind [keeps_iff, outIn_keeps]

theorem beamWaitBody_keeps (o : WaitOp) (bits : Nat) (st : Nat → BSide → CoreState) (s : State) (x : Berth) :
    Keeps s (beamWaitBody o bits st s x).2 := by
  unfold beamWaitBody
  grind [keeps_iff, waitBody_keeps]

theorem execWaitl_keeps (b : Nat) (o : WaitOp) (s : State)  :
    ∀ s', (execWaitl b o s) = .next s' → Keeps s s' := by
  unfold execWaitl
  grind [keeps_iff, beamWaitBody_keeps, issue_keeps]

theorem execWaitc_keeps (b : Nat) (o : WaitOp) (s : State)  :
    ∀ s', (execWaitc b o s) = .next s' → Keeps s s' := by
  unfold execWaitc
  grind [keeps_iff, beamWaitBody_keeps, issue_keeps]

theorem rdbeamBody_keeps (p : Fin 8) (s : State) (x : Berth) :
    Keeps s (rdbeamBody p s x).2 := by
  unfold rdbeamBody
  grind [keeps_iff, coreBody_keeps]

theorem execRdbeam_keeps (b : Nat) (p : Fin 8) (s : State)  :
    ∀ s', (execRdbeam b p s) = .next s' → Keeps s s' := by
  unfold execRdbeam
  grind [keeps_iff, issue_keeps, rdbeamBody_keeps]

theorem stampBody_keeps (port : Word) (r : Reg) (c : Reg) (s : State) (x : Berth) :
    Keeps s (stampBody port r c s x).2 := by
  unfold stampBody
  grind [keeps_iff, coreBody_keeps, setBerth_keeps]

theorem execStamp_keeps (b : Nat) (port : Word) (r : Reg) (c : Reg) (s : State)  :
    ∀ s', (execStamp b port r c s) = .next s' → Keeps s s' := by
  unfold execStamp
  grind [keeps_iff, issue_keeps, stampBody_keeps]

theorem illegalBody_keeps  (s : State) (x : Berth) :
    Keeps s (illegalBody s x).2 := by
  unfold illegalBody
  grind [keeps_iff]

theorem execIllegalEncoding_keeps (b : Nat) (w : Word) (s : State)  :
    ∀ s', (execIllegalEncoding b w s) = .next s' → Keeps s s' := by
  unfold execIllegalEncoding
  grind [keeps_iff, illegalBody_keeps, issue_keeps]

end Sys2Proof.Machine
end

