-- ==== Sys2Proof/Laws/Keeps/Time.lean ====
section
/-! SUPPORT. Every operation of Machine/Time.lean keeps the queue, the part and the canonical form of the cellar. -/

namespace Sys2Proof.Machine

set_option Elab.async false

theorem onDie_keeps (s : State) (d : Nat) (a : Answer)  (ha : ∀ y, a = .next y → Keeps s y) :
    ∀ s', (State.onDie s d a) = .next s' → Keeps s s' := by
  unfold State.onDie
  grind [keeps_iff]

theorem onDock_keeps (s : State) (d : Nat) (k : Nat) (a : Answer)  (ha : ∀ y, a = .next y → Keeps s y) :
    ∀ s', (State.onDock s d k a) = .next s' → Keeps s s' := by
  unfold State.onDock
  grind [keeps_iff]

theorem onQuay_keeps (s : State) (q : Nat) (a : Answer)  (ha : ∀ y, a = .next y → Keeps s y) :
    ∀ s', (State.onQuay s q a) = .next s' → Keeps s s' := by
  unfold State.onQuay
  grind [keeps_iff]

theorem onEp_keeps (s : State) (e : Nat) (a : Answer)  (ha : ∀ y, a = .next y → Keeps s y) :
    ∀ s', (State.onEp s e a) = .next s' → Keeps s s' := by
  unfold State.onEp
  grind [keeps_iff]

theorem fabricLost_keeps (s : State) (a : Nat) (b : Nat)  :
    Keeps s (State.fabricLost s a b) := by
  unfold State.fabricLost
  grind [keeps_iff, logFault_keeps]

theorem setDetours_keeps (s : State)  :
    Keeps s (State.setDetours s) := by
  unfold State.setDetours
  grind [keeps_iff, foldl_keeps, foldl_keeps1, foldl_keeps2, foldl_keeps3, setFlag_keeps]

theorem putTimer_keeps (s : State) (a : Nat) (r : Word32 × Word32 × Word32 × Bool × Bool)  :
    Keeps s (State.putTimer s a r) := by
  unfold State.putTimer
  grind [keeps_iff, hicSet_keeps, setFlag_keeps, setReg_keeps]

theorem timerAt_keeps (s : State) (a : Nat) (adv : Nat) (wr : Option TimerWrite)  :
    Keeps s (State.timerAt s a adv wr) := by
  unfold State.timerAt
  grind [keeps_iff, putTimer_keeps]

theorem releaseDie_keeps (s : State) (d : Nat)  :
    Keeps s (State.releaseDie s d) := by
  unfold State.releaseDie
  grind [keeps_iff, foldl_keeps, foldl_keeps1, foldl_keeps2, foldl_keeps3, setFlag_keeps, setReg_keeps]

theorem htRelease_keeps (s : State) (t : Nat)  :
    Keeps s (State.htRelease s t) := by
  unfold State.htRelease
  grind [keeps_iff, foldl_keeps, foldl_keeps1, foldl_keeps2, foldl_keeps3, releaseDie_keeps, setFlag_keeps, setReg_keeps]

theorem timeUp_keeps (s : State)  :
    Keeps s (State.timeUp s) := by
  unfold State.timeUp
  grind [keeps_iff, dueVecs_keeps, moderTime_keeps, pinTime_keeps]

theorem tickWith_keeps (s : State) (wr : Option (Nat × TimerWrite))  :
    Keeps s (State.tickWith s wr) := by
  unfold State.tickWith
  grind [keeps_iff, foldl_keeps, foldl_keeps1, foldl_keeps2, foldl_keeps3, htRelease_keeps, timeUp_keeps, timerAt_keeps]

theorem tick_keeps (s : State)  :
    Keeps s (State.tick s) := by
  unfold State.tick
  grind [keeps_iff, tickWith_keeps]

theorem advance_keeps (s : State) (z0 : Nat) :
    Keeps s (State.advance s z0) := by
  induction z0 generalizing s with
  | zero => grind [State.advance, keeps_iff, tick_keeps, timeUp_keeps]
  | succ n ih => grind [State.advance, keeps_iff, tick_keeps, timeUp_keeps]

theorem at_keeps (s : State) (t : Nat)  :
    Keeps s (State.at s t) := by
  unfold State.at
  grind [keeps_iff, advance_keeps]

theorem advanceUntil_keeps (s : State) (p : State → State → Bool) (z0 : Nat) :
    Keeps s (State.advanceUntil s p z0) := by
  induction z0 generalizing s p with
  | zero => grind [State.advanceUntil, keeps_iff, tick_keeps]
  | succ n ih => grind [State.advanceUntil, keeps_iff, tick_keeps]

theorem execHtMatch_keeps (d : Nat) (n : Nat) (k : Nat) (s : State)  :
    ∀ s', (execHtMatch d n k s) = .next s' → Keeps s s' := by
  unfold execHtMatch
  grind [keeps_iff, advanceUntil_keeps, onDie_keeps]

theorem execHtRelease_keeps (k : Nat) (s : State)  :
    ∀ s', (execHtRelease k s) = .next s' → Keeps s s' := by
  unfold execHtRelease
  grind [keeps_iff, advance_keeps]

theorem hicIdle_keeps (s : State) (d : Nat) (g : Nat)  :
    Keeps s (State.hicIdle s d g) := by
  unfold State.hicIdle
  grind [keeps_iff, setModer_keeps]

theorem execHicModerationRelease_keeps (d : Nat) (g : Nat) (t : Nat) (idle : Bool) (s : State)  :
    ∀ s', (execHicModerationRelease d g t idle s) = .next s' → Keeps s s' := by
  unfold execHicModerationRelease
  grind [keeps_iff, foldl_keeps, foldl_keeps1, foldl_keeps2, foldl_keeps3, at_keeps, hicIdle_keeps, onDie_keeps]

theorem execFabricLinkDown_keeps (d : Nat) (port : Nat) (t : Nat) (s : State)  :
    ∀ s', (execFabricLinkDown d port t s) = .next s' → Keeps s s' := by
  unfold execFabricLinkDown
  grind [keeps_iff, at_keeps, setDetours_keeps, setFlag_keeps, withLevel_keeps]

theorem execFabricLinkUp_keeps (d : Nat) (port : Nat) (t : Nat) (s : State)  :
    ∀ s', (execFabricLinkUp d port t s) = .next s' → Keeps s s' := by
  unfold execFabricLinkUp
  grind [keeps_iff, at_keeps, setDetours_keeps, setFlag_keeps]

end Sys2Proof.Machine
end

