-- ==== Sys2Proof/Laws/Keeps/BerthTime.lean ====
section
/-! SUPPORT. Every operation of Machine/BerthTime.lean keeps the queue, the part and the canonical form of the cellar. -/

namespace Sys2Proof.Machine

set_option Elab.async false

theorem execBeamLineStart_keeps (b : Nat) (k : Nat) (s : State)  :
    ∀ s', (execBeamLineStart b k s) = .next s' → Keeps s s' := by
  unfold execBeamLineStart
  grind [keeps_iff, idleUntil_keeps]

theorem execFrameBoundary_keeps (b : Nat) (k : Nat) (s : State)  :
    ∀ s', (execFrameBoundary b k s) = .next s' → Keeps s s' := by
  unfold execFrameBoundary
  grind [keeps_iff, idleUntil_keeps]

theorem execSampleInstant_keeps (b : Nat) (k : Nat) (s : State)  :
    ∀ s', (execSampleInstant b k s) = .next s' → Keeps s s' := by
  unfold execSampleInstant
  grind [keeps_iff, idleUntil_keeps]

theorem execBerthTimerMatch_keeps (b : Nat) (n : Fin 4) (k : Nat) (s : State)  :
    ∀ s', (execBerthTimerMatch b n k s) = .next s' → Keeps s s' := by
  unfold execBerthTimerMatch
  grind [keeps_iff, idleUntil_keeps, setBits_keeps]

theorem execBiModerationRelease_keeps (b : Nat) (k : Nat) (s : State)  :
    ∀ s', (execBiModerationRelease b k s) = .next s' → Keeps s s' := by
  unfold execBiModerationRelease
  grind [keeps_iff, idleUntil_keeps]

end Sys2Proof.Machine
end

