-- ==== Sys2Proof/Laws/Keeps/Compose.lean ====
section
/-! SUPPORT. Every operation of Machine/Compose.lean keeps the queue, the part and the canonical form of the cellar. -/

namespace Sys2Proof.Machine

set_option Elab.async false

theorem Comp_seen_keeps (m : Comp) (wa : Nat) (v : Word)  :
    Keeps m.s (Comp.seen m wa v).2.s := by
  unfold Comp.seen
  grind [keeps_iff, draw_keeps]

theorem Comp_rdg_keeps (m : Comp) (layer sel g : Nat) : Keeps m.s (Comp.rdg m layer sel g).2.s := by
  unfold Comp.rdg
  extract_lets wa
  split
  · exact .refl _
  · split
    · dsimp only
      split
      · exact .refl _
      · exact logViol_keeps ..
    · have h := bankRead_keeps m.s m.die wa m.master
      split <;> rename_i heq <;> rw [heq] at h
      · exact h.trans (Comp_seen_keeps { m with s := _ } wa _)
      · exact h

theorem Comp_tileAt_keeps (m : Comp) (v : LineVals) (n : Nat) (c : Nat) (ts : Nat) (b : Nat) (mw : Nat) (px : Nat) (py : Nat)  :
    Keeps m.s (Comp.tileAt m v n c ts b mw px py).2.s := by
  unfold Comp.tileAt
  grind [keeps_iff, Comp_rdg_keeps, at_keeps]

theorem Comp_tile_keeps (m : Comp) (v : LineVals) (n : Nat) (c : Nat) (l : Nat)  :
    Keeps m.s (Comp.tile m v n c l).2.s := by
  unfold Comp.tile
  grind [keeps_iff, Comp_rdg_keeps, Comp_tileAt_keeps, at_keeps]

theorem Comp_palette_keeps (m : Comp) (v : LineVals) (layer c i : Nat) : Keeps m.s (Comp.palette m v layer c i).2.s := by
  unfold Comp.palette
  extract_lets sel g
  split
  · exact .refl _
  · dsimp only
    split
    · exact .refl _
    · have h1 := Comp_rdg_keeps { m with words := [] } layer sel g
      split <;> exact h1.trans (Comp_rdg_keeps _ _ _ _)

theorem Comp_entry_keeps (m : Comp) (v : LineVals) (layer : Nat) (c : Nat) (i : Nat)  :
    Keeps m.s (Comp.entry m v layer c i).2.s := by
  unfold Comp.entry
  grind [keeps_iff, Comp_palette_keeps, at_keeps]

theorem Comp_bitmap_keeps (m : Comp) (v : LineVals) (c : Nat) (l : Nat) (rk : Nat)  :
    Keeps m.s (Comp.bitmap m v c l rk).2.s := by
  unfold Comp.bitmap
  grind [keeps_iff, Comp_entry_keeps, Comp_rdg_keeps, at_keeps]

theorem Comp_rdRun_keeps (m : Comp) (layer : Nat) (sel : Nat) (g : Nat) (z0 : Nat) :
    Keeps m.s (Comp.rdRun m layer sel g z0).2.s := by
  induction z0 generalizing m layer sel g with
  | zero => grind [Comp.rdRun, keeps_iff, Comp_rdg_keeps]
  | succ n ih => grind [Comp.rdRun, keeps_iff, Comp_rdg_keeps]

theorem SpriteEval_entry_keeps (e : SpriteEval) (sel base l i : Nat) :
    Keeps e.m.s (SpriteEval.entry e sel base l i).m.s := by
  have h := Comp_rdRun_keeps { e.m with words := [] } 5 sel (base * 64 + 4 * i) 4
  unfold SpriteEval.entry
  split <;> rename_i heq <;> rw [heq] at h
  · exact h
  · split
    · exact h
    · split <;> exact h

theorem Comp_sprites_keeps (m : Comp) (v : LineVals) (l : Nat) : Keeps m.s (Comp.sprites m v l).m.s := by
  unfold Comp.sprites
  dsimp only
  split
  · exact .refl _
  · exact foldl_keepsAt (fun e => e.m.s) _ (fun e i => SpriteEval_entry_keeps e _ _ _ i) { m := m } _

theorem Comp_spriteRow_keeps (m : Comp) (v : LineVals) (sp : Sprite) (l n : Nat) :
    Keeps m.s (Comp.spriteRow m v sp l n).2.s := by
  refine foldl_keepsAt (fun (z : List Nat × Comp × Bool) => z.2.1.s) _ (fun z c => ?_) ([], { m with words := [] }, false) (List.range n)
  dsimp only
  split
  · exact .refl _
  · split <;> exact Comp_rdg_keeps ..

theorem Comp_spritePix_keeps (m : Comp) (v : LineVals) (c : Nat) (z0 : List (Sprite × Nat)) :
    Keeps m.s (Comp.spritePix m v c z0).2.s := by
  induction z0 generalizing m v c with
  | nil => grind [Comp.spritePix, keeps_iff, Comp_entry_keeps, SpriteEval_entry_keeps, at_keeps]
  | cons a l ih => grind [Comp.spritePix, keeps_iff, Comp_entry_keeps, SpriteEval_entry_keeps, at_keeps]

theorem Comp_planePix_keeps (m : Comp) (v : LineVals) (n : Nat) (c : Nat) (l : Nat)  :
    Keeps m.s (Comp.planePix m v n c l).2.s := by
  unfold Comp.planePix
  grind [keeps_iff, Comp_bitmap_keeps, Comp_entry_keeps, Comp_tile_keeps, SpriteEval_entry_keeps]

theorem Span_plane_keeps (z : Span) (v : LineVals) (l n : Nat) : Keeps z.m.s (Span.plane z v l n).m.s := by
  unfold Span.plane
  extract_lets top r px cols
  split
  · exact .refl _
  · split
    · exact .refl _
    · refine foldl_keepsAt (fun (q : List (Option Pix) × Comp) => q.2.s) _ (fun q c => ?_) ([], { z.m with words := [], issued := false, failed := false }) z.cols
      dsimp only
      split
      · exact .refl _
      · exact Comp_planePix_keeps ..

theorem Comp_spanCols_keeps (m : Comp) (v : LineVals) (rows : List (Sprite × List Nat)) (l : Nat) (cs : List Nat) :
    Keeps m.s (Comp.spanCols m v rows l cs).2.s := by
  refine foldl_keepsAt (fun (a : List (Nat × Nat × List Pix) × Comp) => a.2.s) _ (fun a c => ?_) ([], m) cs
  dsimp only
  split
  · exact Comp_spritePix_keeps ..
  · exact .refl _

theorem SpanSum_span_keeps (acc : SpanSum) (v : LineVals) (rows : List (Sprite × List Nat)) (l n j : Nat) :
    Keeps acc.m.s (SpanSum.span acc v rows l n j).m.s := by
  unfold SpanSum.span
  extract_lets cs start z d
  have h1 : Keeps acc.m.s start.2.s := Comp_spanCols_keeps ..
  clear_value start cs
  exact h1.trans (foldl_keepsAt (fun (a : Span) => a.m.s) _ (fun a p => Span_plane_keeps ..) { cols := start.1, m := start.2 } _)

theorem composeLine_keeps (s : State) (x : Berth) (r : LineRec) (now : Nat) :
    Keeps s (State.composeLine s x r now).2 := by
  unfold State.composeLine
  extract_lets v n m0 ev rows res ctl cspr
  have h1 : Keeps s ev.m.s := Comp_sprites_keeps m0 v r.line
  have h2 : Keeps ev.m.s rows.2.s :=
    foldl_keepsAt (fun (q : List (Sprite × List Nat) × Comp) => q.2.s) _ (fun q sp => Comp_spriteRow_keeps ..) ([], ev.m) ev.acc
  have h3 : Keeps rows.2.s res.m.s :=
    foldl_keepsAt (fun (a : SpanSum) => a.m.s) _ (fun a j => SpanSum_span_keeps ..) { m := rows.2 } _
  exact h1.trans (h2.trans (h3.trans (modBerth_keeps ..)))

end Sys2Proof.Machine
end

