-- ==== Sys2Proof/Laws/Keeps/Frames.lean ====
section
/-! SUPPORT. Every operation of Machine/Frames.lean keeps the queue, the part and the canonical form of the cellar. -/

namespace Sys2Proof.Machine

set_option Elab.async false

theorem modQuay_keeps (s : State) (q : Nat) (f : Quay → Quay)  :
    Keeps s (State.modQuay s q f) := by
  unfold State.modQuay
  grind [keeps_iff]

theorem quayEvent_keeps (s : State) (q : Nat) (m : Nat)  :
    Keeps s (State.quayEvent s q m) := by
  unfold State.quayEvent
  grind [keeps_iff, setBits_keeps, withLevel_keeps]

theorem pushStamp_keeps (s : State) (q : Nat) (tx : Bool) (e : Nat × Nat)  :
    Keeps s (State.pushStamp s q tx e) := by
  unfold State.pushStamp
  grind [keeps_iff, modQuay_keeps, quayEvent_keeps, setFlag_keeps]

theorem sendFrame_keeps (s : State) (q : Nat) (bytes : List Byte) (fcs : Bool)  :
    Keeps s (State.sendFrame s q bytes fcs) := by
  unfold State.sendFrame
  grind [keeps_iff, addFld_keeps, modQuay_keeps, pushStamp_keeps]

theorem noteDrop_keeps (s : State) (x : Berth) (y : Berth)  :
    Keeps s (State.noteDrop s x y) := by
  unfold State.noteDrop
  grind [keeps_iff, addFld_keeps, quayEvent_keeps]

end Sys2Proof.Machine
end

