-- ==== Sys2Proof/Laws/Keeps/Slices.lean ====
section
/-! SUPPORT. Every operation of Machine/Slices.lean keeps the queue, the part and the canonical form of the cellar. -/

namespace Sys2Proof.Machine

set_option Elab.async false

theorem recordTest_keeps (s : State) (d : Nat) (kind : Nat) (unit : Nat) (result : Nat) (bit : Nat) (repairs : Nat) (addr : Nat)  :
    Keeps s (State.recordTest s d kind unit result bit repairs addr) := by
  unfold State.recordTest
  grind [keeps_iff, addFld_keeps, hicSet_keeps, post_keeps]

theorem dropSlice_keeps (s : State) (d : Nat) (kind : Nat) (unit : Nat)  :
    Keeps s (State.dropSlice s d kind unit) := by
  unfold State.dropSlice
  grind [keeps_iff]

theorem abandonSlice_keeps (s : State) (d : Nat) (kind : Nat) (unit : Nat)  :
    Keeps s (State.abandonSlice s d kind unit) := by
  unfold State.abandonSlice
  grind [keeps_iff, dropSlice_keeps, recordTest_keeps, setFlag_keeps]

theorem slotPassed_keeps (s : State) (d : Nat) (k : Nat) (n : Nat)  :
    Keeps s (State.slotPassed s d k n) := by
  unfold State.slotPassed
  grind [keeps_iff, setFlag_keeps, setSlot_keeps]

theorem slotRetired_keeps (s : State) (d : Nat) (k : Nat) (n : Nat)  :
    Keeps s (State.slotRetired s d k n) := by
  unfold State.slotRetired
  grind [keeps_iff, setFlag_keeps, setSlot_keeps]

theorem setPipe_keeps (s : State) (d : Nat) (k : Nat) (p : DockPipe)  :
    Keeps s (State.setPipe s d k p) := by
  unfold State.setPipe
  grind [keeps_iff]

theorem setSpareFailed_keeps (s : State) (d : Nat) (x : Bool)  :
    Keeps s (State.setSpareFailed s d x) := by
  unfold State.setSpareFailed
  grind [keeps_iff]

end Sys2Proof.Machine
end

