-- ==== Sys2Proof/Laws/Keeps/Pipe.lean ====
section
/-! SUPPORT. Every operation of Machine/Pipe.lean keeps the queue, the part and the canonical form of the cellar. -/

namespace Sys2Proof.Machine

set_option Elab.async false

theorem execComposeLine_keeps (d : Nat) (k : Nat) (at_ : Nat) (s : State)  :
    ∀ s', (execComposeLine d k at_ s) = .next s' → Keeps s s' := by
  unfold execComposeLine
  grind [keeps_iff, at_keeps, composeLine_keeps, onDock_keeps, setPipe_keeps]

theorem writeFb_keeps (s : State) (x : Berth) (wa : Nat) (words : List Word)  :
    Keeps s (State.writeFb s x wa words).2 := by
  unfold State.writeFb
  grind [keeps_iff, bankWriteRun_keeps, logViol_keeps]

theorem joinOrder_keeps (s : State) (b : Nat)  :
    Keeps s (State.joinOrder s b) := by
  unfold State.joinOrder
  grind [keeps_iff, setBerth_keeps]

theorem dropCur_keeps (s : State) (d : Nat) (k : Nat)  :
    Keeps s (State.dropCur s d k) := by
  unfold State.dropCur
  grind [keeps_iff, noteSet_keeps, setFld_keeps, setPipe_keeps]

theorem pipeFails_keeps (s : State) (d : Nat) (k : Nat) (cause : Nat)  :
    Keeps s (State.pipeFails s d k cause) := by
  unfold State.pipeFails
  grind [keeps_iff, dropCur_keeps, setBits_keeps, setFlag_keeps, setPipe_keeps, setSpareFailed_keeps, withLevel_keeps]

theorem releaseLine_keeps (s : State) (d : Nat) (k : Nat) (c : Composed)  :
    Keeps s (State.releaseLine s d k c) := by
  unfold State.releaseLine
  grind [keeps_iff, addFld_keeps, dropCur_keeps, joinOrder_keeps, noteDrop_keeps, noteSet_keeps, setBerth_keeps, setPipe_keeps, setReg_keeps, settlePark_keeps, writeFb_keeps]

theorem idleCheck_keeps (s : State) (d : Nat) (k : Nat) (cause : Nat)  :
    Keeps s (State.idleCheck s d k cause) := by
  unfold State.idleCheck
  grind [keeps_iff, setBits_keeps, setPipe_keeps]

theorem execLineRelease_keeps (d : Nat) (k : Nat) (check : Nat) (at_ : Nat) (s : State)  :
    ∀ s', (execLineRelease d k check at_ s) = .next s' → Keeps s s' := by
  unfold execLineRelease
  grind [keeps_iff, at_keeps, idleCheck_keeps, onDock_keeps, pipeFails_keeps, releaseLine_keeps]

theorem execPipeWatchdogExpiry_keeps (d : Nat) (k : Nat) (at_ : Nat) (s : State)  :
    ∀ s', (execPipeWatchdogExpiry d k at_ s) = .next s' → Keeps s s' := by
  unfold execPipeWatchdogExpiry
  grind [keeps_iff, at_keeps, onDock_keeps, pipeFails_keeps]

theorem ownPipe_keeps (s : State) (d : Nat) (k : Nat)  :
    Keeps s (State.ownPipe s d k) := by
  unfold State.ownPipe
  grind [keeps_iff, setFlag_keeps]

end Sys2Proof.Machine
end

