-- ==== Sys2Proof/Laws/Keeps/Scanout.lean ====
section
/-! SUPPORT. Every operation of Machine/Scanout.lean keeps the queue, the part and the canonical form of the cellar. -/

namespace Sys2Proof.Machine

set_option Elab.async false

theorem execOutputFrameStart_keeps (b : Nat) (s : State)  :
    ∀ s', (execOutputFrameStart b s) = .next s' → Keeps s s' := by
  unfold execOutputFrameStart
  intro s' h
  injection h with h
  subst h
  dsimp only
  repeat' split
  all_goals grind [keeps_iff, at_keeps, setBerth_keeps]

theorem readBursts_keeps (s : State) (x : Berth) (wa len n : Nat) (acc : List Word) :
    Keeps s (State.readBursts s x wa len n acc).2 := by
  induction n generalizing s acc with
  | zero => exact .refl s
  | succ n ih =>
    unfold State.readBursts
    split
    · exact .refl s
    · extract_lets k r
      have h : Keeps s r.2 :=
        foldl_keepsAt (fun (a : Option (List Word) × State) => a.2) _ (fun a i => by grind [keeps_iff, cellRead_keeps]) (some [], s) _
      clear_value r
      split
      · exact h.trans (ih ..)
      · exact h

theorem execScanoutLineRead_keeps (b : Nat) (s : State)  :
    ∀ s', (execScanoutLineRead b s) = .next s' → Keeps s s' := by
  unfold execScanoutLineRead
  grind [keeps_iff, at_keeps, readBursts_keeps, setBerth_keeps, setReg_keeps]

theorem execScanSegmentQueue_keeps (b : Nat) (s : State)  :
    ∀ s', (execScanSegmentQueue b s) = .next s' → Keeps s s' := by
  unfold execScanSegmentQueue
  grind [keeps_iff, at_keeps, noteDrop_keeps, setBerth_keeps]

end Sys2Proof.Machine
end

