-- ==== Sys2Proof/Laws/Keeps/Engines.lean ====
section
/-! SUPPORT. Every operation of Machine/Engines.lean keeps the queue, the part and the canonical form of the cellar. -/

namespace Sys2Proof.Machine

set_option Elab.async false

theorem seenBy_keeps (s : State) (b : Nat) (trig : Nat) (wa : Nat) (v : Word)  :
    Keeps s (State.seenBy s b trig wa v).2 := by
  unfold State.seenBy
  grind [keeps_iff, draw_keeps]

theorem engineRead_keeps (s : State) (b : Nat) (trig : Nat) (d : Nat) (wa : Nat) (m : Master)  :
    Keeps s (State.engineRead s b trig d wa m).2 := by
  unfold State.engineRead
  grind [keeps_iff, cellRead_keeps, seenBy_keeps]

theorem engineWrite_keeps (s : State) (d : Nat) (wa : Nat) (v : Word) (m : Master)  :
    Keeps s (State.engineWrite s d wa v m).2 := by
  unfold State.engineWrite
  grind [keeps_iff, cellWrite_keeps]

theorem readAhead_keeps (s : State) (d : Nat) (wa : Nat) (m : Master) (fresh : Bool)  :
    Keeps s (State.readAhead s d wa m fresh) := by
  unfold State.readAhead
  grind [keeps_iff, cellRead_keeps]

theorem readsAhead_keeps (s : State) (d : Nat) (m : Master) (adr : Nat → Nat) (i : Nat) (lines : Nat) (z0 : Nat) :
    Keeps s (State.readsAhead s d m adr i lines z0) := by
  induction z0 generalizing s d m adr i lines with
  | zero => grind [State.readsAhead, keeps_iff, readAhead_keeps]
  | succ n ih => grind [State.readsAhead, keeps_iff, readAhead_keeps]

theorem FRun_ahead_keeps (r : FRun) (f : FItem) (d : Nat) (b : Nat)  :
    Keeps r.s (FRun.ahead r f d b).s := by
  unfold FRun.ahead
  grind [keeps_iff, draw_keeps, readAhead_keeps, readsAhead_keeps]

theorem FRun_choose_keeps (r : FRun) (f : FItem) (d : Nat) (i : Nat) (z0 : Nat) :
    Keeps r.s (FRun.choose r f d i z0).2.s := by
  induction z0 generalizing r f d i with
  | zero => grind [FRun.choose, keeps_iff, draw_keeps]
  | succ n ih => grind [FRun.choose, keeps_iff, draw_keeps]

theorem FRun_pick_keeps (r : FRun) (f : FItem) (d : Nat) (lap : Bool) (i : Nat) (v : Word)  :
    Keeps r.s (FRun.pick r f d lap i v).2.s := by
  unfold FRun.pick
  grind [keeps_iff, FRun_choose_keeps]

theorem FRun_put_keeps (r : FRun) (f : FItem) (d b i : Nat) (v : Word) : Keeps r.s (FRun.put r f d b i v).s := by
  have h := engineWrite_keeps r.s d (f.dst i) v (ferryMaster b)
  unfold FRun.put
  extract_lets old w
  split <;> exact h

theorem FRun_copyWord_keeps (r : FRun) (f : FItem) (d b : Nat) (lap : Bool) (i : Nat) :
    Keeps r.s (FRun.copyWord r f d b lap i).s := by
  have h1 := engineRead_keeps r.s b f.trig d (f.src i) (ferryMaster b)
  unfold FRun.copyWord
  extract_lets a p
  split
  · exact h1
  · exact h1.trans ((FRun_pick_keeps { r with s := a.2 } ..).trans (FRun_put_keeps ..))

theorem FRun_compareWord_keeps (r : FRun) (f : FItem) (d : Nat) (b : Nat) (i : Nat)  :
    Keeps r.s (FRun.compareWord r f d b i).s := by
  unfold FRun.compareWord
  grind [keeps_iff, engineRead_keeps]

theorem FRun_word_keeps (r : FRun) (f : FItem) (d b : Nat) (ov : Bool) (i : Nat) : Keeps r.s (FRun.word r f d b ov i).s := by
  unfold FRun.word
  split
  · exact FRun_copyWord_keeps ..
  · exact FRun_put_keeps ..
  · exact FRun_compareWord_keeps ..

theorem FRun_words_keeps (r : FRun) (f : FItem) (d : Nat) (b : Nat) (lap : Bool) (i : Nat) (z0 : Nat) :
    Keeps r.s (FRun.words r f d b lap i z0).s := by
  induction z0 generalizing r f d b lap i with
  | zero => grind [FRun.words, keeps_iff, FRun_word_keeps]
  | succ n ih => grind [FRun.words, keeps_iff, FRun_word_keeps]

theorem FRun_barrier_keeps (r : FRun) (f : FItem) (d : Nat) (b : Nat)  :
    Keeps r.s (FRun.barrier r f d b).s := by
  unfold FRun.barrier
  grind [keeps_iff, engineRead_keeps]

theorem ferryDone_keeps (s : State) (b : Nat) (f : FItem) (result : Nat) (count : Nat) (diff : Nat)  :
    Keeps s (State.ferryDone s b f result count diff) := by
  unfold State.ferryDone
  grind [keeps_iff, addFld_keeps, setBerth_keeps, settlePark_keeps]

theorem lighterDone_keeps (s : State) (b : Nat) (j : LItem) (result : Nat)  :
    Keeps s (State.lighterDone s b j result) := by
  unfold State.lighterDone
  grind [keeps_iff, FRun_words_keeps, addFld_keeps, setBerth_keeps]

theorem lighterDead_keeps (s : State) (b : Nat) (j : LItem)  :
    Keeps s (State.lighterDead s b j) := by
  unfold State.lighterDead
  grind [keeps_iff, lighterDone_keeps, modBerth_keeps]

theorem releaseManifest_keeps (s : State) (b : Nat) (f : FItem)  :
    Keeps s (State.releaseManifest s b f) := by
  unfold State.releaseManifest
  grind [keeps_iff, ferryDone_keeps, setBerth_keeps]

theorem releaseStarts_keeps (s : State) (b : Nat) (desc : Vector Desc 16) (l : List Start)  :
    Keeps s (State.releaseStarts s b desc l) := by
  unfold State.releaseStarts
  grind [keeps_iff, foldl_keeps, foldl_keeps1, foldl_keeps2, foldl_keeps3, lighterDead_keeps, modBerth_keeps, releaseManifest_keeps, setBerth_keeps]

theorem execFerryManifestStart_keeps (b : Nat) (at_ : Nat) (s : State)  :
    ∀ s', (execFerryManifestStart b at_ s) = .next s' → Keeps s s' := by
  unfold execFerryManifestStart
  grind [keeps_iff, at_keeps, ferryDone_keeps, modBerth_keeps]

theorem streamWords_keeps (s : State) (x : Berth) (f : FItem) (r : RxRing) (j : Nat) (z0 : Nat) :
    Keeps s (State.streamWords s x f r j z0).2 := by
  induction z0 generalizing s x f r j with
  | zero => grind [State.streamWords, keeps_iff, cellRead_keeps, cellWrite_keeps]
  | succ n ih => grind [State.streamWords, keeps_iff, cellRead_keeps, cellWrite_keeps]

theorem streamDone_keeps (s : State) (x : Berth) (f : FItem) : Keeps s (State.streamDone s x f) :=
  (FRun_barrier_keeps { s := s } f x.die x.id).trans (ferryDone_keeps ..)

theorem execFerryStreamUnit_keeps (b : Nat) (at_ : Nat) (s : State)  :
    ∀ s', (execFerryStreamUnit b at_ s) = .next s' → Keeps s s' := by
  unfold execFerryStreamUnit
  dsimp only
  repeat' split
  all_goals grind [keeps_iff, addFld_keeps, at_keeps, ferryDone_keeps, modBerth_keeps, streamDone_keeps, streamWords_keeps]

theorem FRun_run_keeps (u : State) (f : FItem) (d b n : Nat) : Keeps u (FRun.run u f d b n).s := by
  unfold FRun.run
  split
  · exact (FRun_words_keeps { s := u } ..).trans (FRun_ahead_keeps ..)
  · exact (FRun_words_keeps { s := u } ..).trans ((FRun_ahead_keeps ..).trans (FRun_barrier_keeps ..))

theorem execFerryManifestComplete_keeps (b : Nat) (n : Nat) (at_ : Nat) (s : State)  :
    ∀ s', (execFerryManifestComplete b n at_ s) = .next s' → Keeps s s' := by
  unfold execFerryManifestComplete
  grind [keeps_iff, FRun_run_keeps, addFld_keeps, at_keeps, ferryDone_keeps]

theorem execLighterJobStart_keeps (b : Nat) (at_ : Nat) (s : State)  :
    ∀ s', (execLighterJobStart b at_ s) = .next s' → Keeps s s' := by
  unfold execLighterJobStart
  grind [keeps_iff, at_keeps, lighterDone_keeps, modBerth_keeps]

theorem jobWords_keeps (s : State) (j : LItem) (d : Nat) (b : Nat) (wa : Nat → Nat) (acc : List Word) (k : Nat) (z0 : Nat) :
    Keeps s (State.jobWords s j d b wa acc k z0).2 := by
  induction z0 generalizing s j d b wa acc k with
  | zero => grind [State.jobWords, keeps_iff, engineRead_keeps]
  | succ n ih => grind [State.jobWords, keeps_iff, engineRead_keeps]

theorem jobPixel_keeps (s : State) (j : LItem) (d : Nat) (b : Nat) (x : Nat) (y : Nat)  :
    Keeps s (State.jobPixel s j d b x y).2 := by
  unfold State.jobPixel
  grind [keeps_iff, FRun_words_keeps, draw_keeps, jobWords_keeps]

theorem rowPixels_keeps (s : State) (j : LItem) (d : Nat) (b : Nat) (y : Nat) (key : Nat) (acc : List (Option Nat)) (c : Nat) (z0 : Nat) :
    Keeps s (State.rowPixels s j d b y key acc c z0).2 := by
  induction z0 generalizing s j d b y key acc c with
  | zero => grind [State.rowPixels, keeps_iff, FRun_words_keeps, jobPixel_keeps]
  | succ n ih => grind [State.rowPixels, keeps_iff, FRun_words_keeps, jobPixel_keeps]

theorem jobRow_keeps (s : State) (j : LItem) (d : Nat) (b : Nat) (y : Nat) (c : Nat) (n : Nat)  :
    Keeps s (State.jobRow s j d b y c n).2 := by
  unfold State.jobRow
  grind [keeps_iff, FRun_words_keeps, rowPixels_keeps]

theorem writeRowWord_keeps (s : State) (j : LItem) (d : Nat) (b : Nat) (wa : Nat) (q : Nat × Nat)  :
    Keeps s (State.writeRowWord s j d b wa q).2 := by
  unfold State.writeRowWord
  grind [keeps_iff, FRun_words_keeps, engineRead_keeps, engineWrite_keeps]

theorem LRun_putWord_keeps (r : LRun) (d : Nat) (b : Nat) (y : Nat) (i : Nat) (lap : Bool) (q : Nat × Nat)  :
    Keeps r.s (LRun.putWord r d b y i lap q).s := by
  unfold LRun.putWord
  grind [keeps_iff, FRun_word_keeps, writeRowWord_keeps]

theorem LRun_putWords_keeps (r : LRun) (d : Nat) (b : Nat) (y : Nat) (lap : Bool) (arr : Array (Option Nat)) (i0 : Nat) (i : Nat) (z0 : Nat) :
    Keeps r.s (LRun.putWords r d b y lap arr i0 i z0).s := by
  induction z0 generalizing r d b y lap arr i0 i with
  | zero => grind [LRun.putWords, keeps_iff, Memory.putWord_wf, Memory.putByte_wf, Memory.filter_wf, FRun_words_keeps, LRun_putWord_keeps, putWord_keeps]
  | succ n ih => grind [LRun.putWords, keeps_iff, Memory.putWord_wf, Memory.putByte_wf, Memory.filter_wf, FRun_words_keeps, LRun_putWord_keeps, putWord_keeps]

theorem LRun_piece_keeps (r : LRun) (d b : Nat) (lap : Bool) (c n y : Nat) :
    Keeps r.s (LRun.piece r d b lap c n y).s := by
  have h := jobRow_keeps r.s r.j d b y c n
  unfold LRun.piece
  extract_lets a bits
  split
  · exact .refl _
  · split
    · exact h
    · exact h.trans (LRun_putWords_keeps { r with s := a.2 } ..)

theorem LRun_band_keeps (r : LRun) (d b y : Nat) : Keeps r.s (LRun.band r d b y).s := by
  unfold LRun.band
  extract_lets w lap h n c strips rows
  split
  · exact LRun_piece_keeps ..
  · exact Keeps.trans (draw_keeps _) (foldl_keepsAt (fun (q : LRun) => q.s) _ (fun q k =>
      foldl_keepsAt (fun (p : LRun) => p.s) _ (fun p v => LRun_piece_keeps ..) q rows) { r with s := c.2 } strips)

theorem execLighterRowComplete_keeps (b tag at_ : Nat) (s : State) :
    ∀ s', execLighterRowComplete b tag at_ s = .next s' → Keeps s s' := by
  rintro s' ⟨⟩
  split
  · exact .refl s
  · split
    · exact .refl s
    · rename_i j _
      refine iteInduction (fun _ => .refl s) (fun _ => ?_)
      extract_lets u r n
      refine iteInduction (fun _ => (at_keeps s at_).trans (lighterDone_keeps ..)) (fun _ => ?_)
      exact (at_keeps s at_).trans ((LRun_band_keeps { s := u, j := j } ..).trans (modBerth_keeps ..))

theorem execLighterJobComplete_keeps (b : Nat) (tag : Nat) (at_ : Nat) (s : State)  :
    ∀ s', (execLighterJobComplete b tag at_ s) = .next s' → Keeps s s' := by
  unfold execLighterJobComplete
  grind [keeps_iff, FRun_words_keeps, at_keeps, lighterDone_keeps]

theorem ferryFault_keeps (s : State) (b : Nat) (all : Bool)  :
    Keeps s (State.ferryFault s b all) := by
  unfold State.ferryFault
  grind [keeps_iff, foldl_keeps, foldl_keeps1, foldl_keeps2, foldl_keeps3, ferryDone_keeps]

theorem lighterFault_keeps (s : State) (b : Nat) (all : Bool)  :
    Keeps s (State.lighterFault s b all) := by
  unfold State.lighterFault
  grind [keeps_iff, foldl_keeps, foldl_keeps1, foldl_keeps2, foldl_keeps3, lighterDead_keeps, lighterDone_keeps]

theorem execEngineFault_keeps (d : Nat) (k : Nat) (e : Nat) (cause : Nat) (at_ : Nat) (s : State)  :
    ∀ s', (execEngineFault d k e cause at_ s) = .next s' → Keeps s s' := by
  unfold execEngineFault
  grind [keeps_iff, foldl_keeps, foldl_keeps1, foldl_keeps2, foldl_keeps3, at_keeps, ferryFault_keeps, lighterFault_keeps, logFault_keeps, onDock_keeps, setBits_keeps, setFlag_keeps, withLevel_keeps]

end Sys2Proof.Machine
end

