-- ==== Sys2Proof/Laws/Keeps/Watch.lean ====
section
/-! SUPPORT. Every operation of Machine/Watch.lean keeps the queue, the part and the canonical form of the cellar. -/

namespace Sys2Proof.Machine

set_option Elab.async false

theorem endWatch_keeps (s : State) (x : Berth)  :
    Keeps s (State.endWatch s x) := by
  unfold State.endWatch
  grind [keeps_iff, setBerth_keeps, settle_keeps]

theorem execWatchEnd_keeps (b : Nat) (s : State)  :
    ∀ s', (execWatchEnd b s) = .next s' → Keeps s s' := by
  unfold execWatchEnd
  grind [keeps_iff, endWatch_keeps]

theorem writeHeader_keeps (s : State) (x : Berth) (n seq bt at_ cause : Nat) :
    Keeps s (State.writeHeader s x n seq bt at_ cause).2 := by
  have h1 := draw_keeps s
  have h2 := draw_keeps s.draw.2
  have h3 := draw_keeps s.draw.2.draw.2
  unfold State.writeHeader
  exact h1.trans (h2.trans (h3.trans (foldl_keeps2 _ (fun t i => by
    split
    · exact cellWrite_keeps ..
    · exact .refl _) (true, _) _)))

theorem voidHeader_keeps (s : State) (x : Berth) (n : Nat)  :
    Keeps s (State.voidHeader s x n).2 := by
  unfold State.voidHeader
  grind [keeps_iff, cellWrite_keeps]

theorem commitHeader_keeps (s : State) (x : Berth) (r : WatchRec) (rest : List WatchRec)  :
    Keeps s (State.commitHeader s x r rest).2 := by
  unfold State.commitHeader
  grind [keeps_iff, parkHere_keeps, setBerth_keeps, writeHeader_keeps]

theorem releasePin_keeps (s : State) (b : Nat) (p : Nat × Nat)  :
    Keeps s (State.releasePin s b p) := by
  unfold State.releasePin
  grind [keeps_iff, setFlag_keeps]

theorem releaseOutputs_keeps (s : State) (x : Berth) (r : WatchRec) (rest : List WatchRec)  :
    Keeps s (State.releaseOutputs s x r rest) := by
  unfold State.releaseOutputs
  grind [keeps_iff, foldl_keeps, foldl_keeps1, foldl_keeps2, foldl_keeps3, releasePin_keeps, releaseStarts_keeps, setBerth_keeps, setPipe_keeps, withPads_keeps]

theorem waitStore_keeps (s : State) (x : Berth) (r : WatchRec) (rest : List WatchRec)  :
    Keeps s (State.waitStore s x r rest) := by
  unfold State.waitStore
  grind [keeps_iff, setBerth_keeps]

theorem undoOld_keeps (s : State) (x : Berth) (seq : Nat) (i : Nat)  :
    Keeps s (State.undoOld s x seq i).2 := by
  unfold State.undoOld
  grind [keeps_iff, cellRead_keeps]

theorem undoWatch_keeps (s : State) (x : Berth) (seq : Nat) (undo : List Nat) :
    Keeps s (State.undoWatch s x seq undo).2 := by
  unfold State.undoWatch
  exact foldl_keeps2 _ (fun t i => by grind [keeps_iff, cellWrite_keeps, undoOld_keeps]) (none, s) _

theorem rollback_keeps (s : State) (x : Berth)  :
    Keeps s (State.rollback s x).2 := by
  unfold State.rollback
  grind [keeps_iff, foldl_keeps, foldl_keeps1, foldl_keeps2, foldl_keeps3, setBerth_keeps, undoWatch_keeps]

theorem pickSlot_keeps (s : State) (d : Nat) (k : Nat)  :
    Keeps s (State.pickSlot s d k).2 := by
  unfold State.pickSlot
  grind [keeps_iff, abandonSlice_keeps]

theorem place_keeps (s : State) (x : Berth) (k : Nat) (n : Nat)  :
    Keeps s (State.place s x k n) := by
  unfold State.place
  grind [keeps_iff, setBerth_keeps, setSlot_keeps]

theorem postMoved_keeps (s : State) (b : Nat) (old : Nat) (new : Nat) (cause : Nat) (gen : Nat) (ns : Nat) (die : Nat)  :
    Keeps s (State.postMoved s b old new cause gen ns die) := by
  unfold State.postMoved
  grind [keeps_iff, post_keeps]

theorem hurtSlot_keeps (s : State) (d : Nat) (k : Nat) (n : Nat)  :
    Keeps s (State.hurtSlot s d k n) := by
  unfold State.hurtSlot
  grind [keeps_iff, slotRetired_keeps, slotToTest_keeps]

theorem parkNoSpare_keeps (s : State) (b : Nat)  :
    Keeps s (State.parkNoSpare s b) := by
  unfold State.parkNoSpare
  grind [keeps_iff, parkHere_keeps]

theorem pickAfter_keeps (s : State) (d : Nat) (k : Nat) (z0 : Nat) :
    Keeps s (State.pickAfter s d k z0).2 := by
  induction z0 generalizing s d k with
  | zero => grind [State.pickAfter, keeps_iff, hicSet_keeps, hurtSlot_keeps, pickSlot_keeps]
  | succ n ih => grind [State.pickAfter, keeps_iff, hicSet_keeps, hurtSlot_keeps, pickSlot_keeps]

theorem parkBack_keeps (s : State) (x : Berth) (cause : Nat)  :
    Keeps s (State.parkBack s x cause) := by
  unfold State.parkBack
  grind [keeps_iff, parkHere_keeps, rollback_keeps]

theorem parkDock_keeps (s : State) (d : Nat) (k : Nat)  :
    Keeps s (State.parkDock s d k) := by
  unfold State.parkDock
  grind [keeps_iff, foldl_keeps, foldl_keeps1, foldl_keeps2, foldl_keeps3, logFault_keeps, parkBack_keeps]

theorem takeOver_keeps (s : State) (d : Nat) (k : Nat)  :
    Keeps s (State.takeOver s d k) := by
  unfold State.takeOver
  grind [keeps_iff, abandonSlice_keeps, logFault_keeps, ownPipe_keeps, parkDock_keeps, setFlag_keeps, setPipe_keeps]

end Sys2Proof.Machine
end

