-- ==== Sys2Proof/Laws/Keeps/Quays.lean ====
section
/-! SUPPORT. Every operation of Machine/Quays.lean keeps the queue, the part and the canonical form of the cellar. -/

namespace Sys2Proof.Machine

set_option Elab.async false

theorem loseRemote_keeps (s : State) (q : Nat) (x : Berth) (p : Packet)  :
    Keeps s (State.loseRemote s q x p) := by
  unfold State.loseRemote
  grind [keeps_iff, fabricLost_keeps, setBerth_keeps]

theorem sendPacket_keeps (s : State) (q : Nat) (c : Nat) (x : Berth) (p : Packet)  :
    Keeps s (State.sendPacket s q c x p) := by
  unfold State.sendPacket
  grind (splits := 40) [keeps_iff, Comp_entry_keeps, SpriteEval_entry_keeps, addFld_keeps, modQuay_keeps, quayEvent_keeps, sendFrame_keeps, setBerth_keeps]

theorem execQuayTransmitFrame_keeps (q : Nat) (at_ : Nat) (s : State)  :
    ∀ s', (execQuayTransmitFrame q at_ s) = .next s' → Keeps s s' := by
  unfold execQuayTransmitFrame
  grind [keeps_iff, at_keeps, loseRemote_keeps, modQuay_keeps, onQuay_keeps, sendFrame_keeps, sendPacket_keeps]

theorem execInjectReorderRelease_keeps (q : Nat) (at_ : Nat) (s : State)  :
    ∀ s', (execInjectReorderRelease q at_ s) = .next s' → Keeps s s' := by
  unfold execInjectReorderRelease
  grind [keeps_iff, at_keeps, modQuay_keeps, onQuay_keeps, sendFrame_keeps]

theorem discard_keeps (s : State) (q : Nat) (off : Nat)  :
    Keeps s (State.discard s q off) := by
  unfold State.discard
  grind [keeps_iff, addFld_keeps]

theorem pfcReceived_keeps (s : State) (q : Nat) (r : List Byte)  :
    Keeps s (State.pfcReceived s q r) := by
  unfold State.pfcReceived
  grind [keeps_iff, foldl_keeps, foldl_keeps1, foldl_keeps2, foldl_keeps3, modQuay_keeps]

theorem ringWrite_keeps (s : State) (x : Berth) (base : Nat) (k : Nat) (p : Nat) (z0 : List Word) :
    Keeps s (State.ringWrite s x base k p z0).2 := by
  induction z0 generalizing s x base k p with
  | nil => grind [State.ringWrite, keeps_iff, cellWrite_keeps]
  | cons a l ih => grind [State.ringWrite, keeps_iff, cellWrite_keeps]

theorem deliver_keeps (s : State) (q : Nat) (e : Nat) (x : Berth) (ql : List Byte) (ws : List Word)  :
    Keeps s (State.deliver s q e x ql ws) := by
  unfold State.deliver
  grind [keeps_iff, addFld_keeps, discard_keeps, ringWrite_keeps, setBerth_keeps]

theorem receiveUdp_keeps (s : State) (q : Nat) (six : Bool) (r : List Byte)  :
    Keeps s (State.receiveUdp s q six r) := by
  unfold State.receiveUdp
  grind [keeps_iff, Memory.putWord_wf, Memory.putByte_wf, Memory.filter_wf, deliver_keeps, discard_keeps, fabricLost_keeps]

theorem ptpSync_keeps (s : State)  :
    Keeps s (State.ptpSync s) := by
  unfold State.ptpSync
  grind [keeps_iff, drawInt_keeps, eachClkstat_keeps, setCorr_keeps, setFlag_keeps]

theorem receiveClear_keeps (s : State) (q : Nat) (l : List Byte) (reply : Option (List Byte))  :
    Keeps s (State.receiveClear s q l reply) := by
  unfold State.receiveClear
  grind [keeps_iff, discard_keeps, modQuay_keeps, ptpSync_keeps, pushStamp_keeps, receiveUdp_keeps]

theorem execQuayReceiveFrame_keeps (q : Nat) (bytes : List Byte) (fcs : Bool) (reply : Option (List Byte)) (at_ : Nat) (s : State)  :
    ∀ s', (execQuayReceiveFrame q bytes fcs reply at_ s) = .next s' → Keeps s s' := by
  unfold execQuayReceiveFrame
  grind [keeps_iff, at_keeps, discard_keeps, modQuay_keeps, onQuay_keeps, pfcReceived_keeps, receiveClear_keeps]

theorem execPfcPauseExpiry_keeps (q : Nat) (c : Nat) (s : State)  :
    ∀ s', (execPfcPauseExpiry q c s) = .next s' → Keeps s s' := by
  unfold execPfcPauseExpiry
  grind [keeps_iff, at_keeps, modQuay_keeps, onQuay_keeps]

theorem execQuayPfcGenerate_keeps (q : Nat) (fill : Nat) (at_ : Nat) (s : State)  :
    ∀ s', (execQuayPfcGenerate q fill at_ s) = .next s' → Keeps s s' := by
  unfold execQuayPfcGenerate
  grind [keeps_iff, at_keeps, modQuay_keeps, onQuay_keeps, sendFrame_keeps]

theorem setLink_keeps (s : State) (q : Nat) (lock : Bool) (up : Bool)  :
    Keeps s (State.setLink s q lock up) := by
  unfold State.setLink
  grind [keeps_iff, hicSet_keeps, setFlag_keeps]

theorem execQuayLinkUp_keeps (q : Nat) (l : LinkSeen) (s : State)  :
    ∀ s', (execQuayLinkUp q l s) = .next s' → Keeps s s' := by
  unfold execQuayLinkUp
  grind [keeps_iff, at_keeps, modQuay_keeps, onQuay_keeps, setFlag_keeps, setLink_keeps]

theorem loseLock_keeps (s : State) (q : Nat) (cause : Nat)  :
    Keeps s (State.loseLock s q cause) := by
  unfold State.loseLock
  grind [keeps_iff, addFld_keeps, logFault_keeps, modQuay_keeps, quayEvent_keeps, setFlag_keeps, setLink_keeps]

theorem execQuayLossOfLock_keeps (q : Nat) (cause : Nat) (at_ : Nat) (s : State)  :
    ∀ s', (execQuayLossOfLock q cause at_ s) = .next s' → Keeps s s' := by
  unfold execQuayLossOfLock
  grind [keeps_iff, at_keeps, loseLock_keeps, onQuay_keeps, setLink_keeps]

theorem setEntry_keeps (s : State) (q : Nat) (e : Nat) (f : List Nat → List Nat)  :
    Keeps s (State.setEntry s q e f) := by
  unfold State.setEntry
  grind [keeps_iff, modQuay_keeps]

theorem setActive_keeps (s : State) (q : Nat) (e : Nat) (v : Bool)  :
    Keeps s (State.setActive s q e v) := by
  unfold State.setActive
  grind [keeps_iff, setEntry_keeps]

theorem failEntry_keeps (s : State) (q : Nat) (x : Berth)  :
    Keeps s (State.failEntry s q x).2 := by
  unfold State.failEntry
  grind [keeps_iff, Comp_entry_keeps, SpriteEval_entry_keeps, setActive_keeps, setBerth_keeps]

theorem failover_keeps (s : State) (q : Nat) : Keeps s (State.failover s q) := by
  unfold State.failover
  extract_lets ids r k u
  have h : Keeps s r.2 := foldl_keeps2 _ (fun t b => by
    split
    · exact failEntry_keeps ..
    · exact .refl _) ((0, 0), s) ids
  have h2 : Keeps r.2 (r.2.modQuay q (fun k => { k with failing := false })) := by
    generalize r.2 = t
    grind [keeps_iff, State.modQuay]
  exact h.trans (h2.trans ((post_keeps ..).trans (post_keeps ..)))

end Sys2Proof.Machine
end

