-- ==== Sys2Proof/Laws/Keeps/Bus.lean ====
section
/-! SUPPORT. Every operation of Machine/Bus.lean keeps the queue, the part and the canonical form of the cellar. -/

namespace Sys2Proof.Machine

set_option Elab.async false

theorem respond_keeps (s : State) (x : BusResp)  :
    Keeps s (State.respond s x) := by
  unfold State.respond
  grind [keeps_iff]

theorem absent_keeps (s : State) (r : Requester) (a : Nat) (k : Kind)  :
    Keeps s (State.absent s r a k) := by
  unfold State.absent
  grind [keeps_iff, logViol_keeps, respond_keeps]

theorem regDenied_keeps (s : State) (r : Requester) (l : Loc) (a : Nat) (k : Kind)  :
    Keeps s (State.regDenied s r l a k) := by
  unfold State.regDenied
  grind [keeps_iff, logViol_keeps, respond_keeps]

theorem entryDenied_keeps (s : State) (r : Requester) (l : Loc) (n : Nat)  :
    Keeps s (State.entryDenied s r l n) := by
  unfold State.entryDenied
  grind [keeps_iff, logViol_keeps, respond_keeps]

theorem gate_keeps (s : State) (r : Requester) (a : Nat) (w : Bool)  :
    Keeps s (State.gate s r a w).2 := by
  unfold State.gate
  dsimp only
  repeat' split
  all_goals grind [keeps_iff, Comp_entry_keeps, SpriteEval_entry_keeps, absent_keeps, entryDenied_keeps, regDenied_keeps, respond_keeps]

theorem onWrite_keeps (s : State) (r : Requester) (a : Nat) (f : State → State)  (hf : ∀ t, Keeps t (f t)) :
    Keeps s (State.onWrite s r a f) := by
  unfold State.onWrite
  grind [keeps_iff, gate_keeps, respond_keeps]

theorem withLevels_keeps (s : State) (d : Nat) (srcs : List Nat) (f : State → State)  (hf : ∀ t, Keeps t (f t)) :
    Keeps s (State.withLevels s d srcs f) := by
  unfold State.withLevels
  grind [keeps_iff, foldl_keeps, foldl_keeps1, foldl_keeps2, foldl_keeps3, hicSet_keeps]

end Sys2Proof.Machine
end

