-- ==== Sys2Proof/Laws/Keeps/Registers.lean ====
section
/-! SUPPORT. Every operation of Machine/Registers.lean keeps the queue, the part and the canonical form of the cellar. -/

namespace Sys2Proof.Machine

set_option Elab.async false

theorem storeReg_keeps (s : State) (l : Loc) (a : Nat) (v : Nat)  :
    Keeps s (State.storeReg s l a v) := by
  unfold State.storeReg
  grind [keeps_iff, setBerth_keeps, setReg_keeps]

theorem writeHtCtl_keeps (s : State) (a : Nat) (new : Nat)  :
    Keeps s (State.writeHtCtl s a new) := by
  unfold State.writeHtCtl
  grind [keeps_iff, setReg_keeps]

theorem hicOrder_keeps (s : State) (r : Requester) (a : Nat) (f : State → State)  (hf : ∀ t, Keeps t (f t)) :
    Keeps s (State.hicOrder s r a f) := by
  unfold State.hicOrder
  grind [keeps_iff]

theorem plainWrite_keeps (s : State) (r : Requester) (l : Loc) (a : Nat) (v : Nat)  :
    Keeps s (State.plainWrite s r l a v) := by
  unfold State.plainWrite
  grind (splits := 40) [keeps_iff, foldl_keeps, foldl_keeps1, foldl_keeps2, foldl_keeps3, hicModer_keeps, hicSet_keeps, hicSettle_keeps, sendVec_keeps, setBerth_keeps, setEntry_keeps, setFlag_keeps, setPage_keeps, setReg_keeps, storeReg_keeps, withLevel_keeps, withPads_keeps, writeHtCtl_keeps]

theorem execRegisterWrite_keeps (r : Requester) (a : Nat) (size : Nat) (v : Nat) (at_ : Nat) (s : State)  :
    ∀ s', (execRegisterWrite r a size v at_ s) = .next s' → Keeps s s' := by
  unfold execRegisterWrite
  grind [keeps_iff, at_keeps, gate_keeps, hicOrder_keeps, plainWrite_keeps, respond_keeps]

theorem onRead_keeps (s : State) (r : Requester) (a : Nat) (size : Nat) (f : Loc → State → Nat × State)  (hf : ∀ l t, Keeps t (f l t).2) :
    Keeps s (State.onRead s r a size f) := by
  unfold State.onRead
  grind [keeps_iff, absent_keeps, gate_keeps, respond_keeps]

theorem execPairLowRead_keeps (r : Requester) (a : Nat) (size : Nat) (at_ : Nat) (s : State)  :
    ∀ s', (execPairLowRead r a size at_ s) = .next s' → Keeps s s' := by
  unfold execPairLowRead
  grind [keeps_iff, at_keeps, onRead_keeps]

theorem clearRc_keeps (s : State) (a : Nat) (off : Nat) (size : Nat) (hi : Nat) (lo : Nat)  :
    Keeps s (State.clearRc s a off size hi lo) := by
  unfold State.clearRc
  grind [keeps_iff, setFld_keeps]

theorem onDockReg_keeps (k : Nat) (a : State)  :
    ∀ s', (onDockReg k a) = .next s' → Keeps a s' := by
  unfold onDockReg
  grind [keeps_iff]

theorem execDpLoadRead_keeps (r : Requester) (d k off size at_ : Nat) (s : State) :
    ∀ s', execDpLoadRead r d k off size at_ s = .next s' → Keeps s s' := by
  intro s' h
  refine (at_keeps s at_).trans ((onRead_keeps _ r _ size _ (fun l t => ?_)).trans (onDockReg_keeps _ _ _ h))
  exact clearRc_keeps ..

theorem execPwTjRead_keeps (r : Requester) (d off size at_ : Nat) (s : State) :
    ∀ s', execPwTjRead r d off size at_ s = .next s' → Keeps s s' := by
  rintro s' ⟨⟩
  exact (at_keeps s at_).trans (onRead_keeps _ r _ size _ (fun l t => clearRc_keeps ..))

theorem execQyTimestampPop_keeps (r : Requester) (q : Nat) (tx : Bool) (at_ : Nat) (s : State)  :
    ∀ s', (execQyTimestampPop r q tx at_ s) = .next s' → Keeps s s' := by
  unfold execQyTimestampPop
  grind [keeps_iff, at_keeps, modQuay_keeps, onRead_keeps]

theorem rowWrite_keeps (s : State) (r : Requester) (a : Nat) (at_ : Nat) (f : State → State)  (hf : ∀ t, Keeps t (f t)) :
    Keeps s (State.rowWrite s r a at_ f) := by
  unfold State.rowWrite
  grind [keeps_iff, at_keeps, gate_keeps, respond_keeps]

theorem onEpReg_keeps (s : State) (e : Nat) (r : Requester) (a at_ : Nat) (u : State) (hu : Keeps s u) :
    ∀ s', State.onEpReg s e r a at_ u = .next s' → Keeps s s' := by
  unfold State.onEpReg
  split
  · rintro s' ⟨⟩
    exact hu
  · rintro s' ⟨⟩
    exact rowWrite_keeps _ _ _ _ _ (fun t => .refl t)

theorem execHtGo_keeps (r : Requester) (v : Nat) (at_ : Nat) (s : State)  :
    ∀ s', (execHtGo r v at_ s) = .next s' → Keeps s s' := by
  unfold execHtGo
  grind [keeps_iff, rowWrite_keeps, setFlag_keeps, setReg_keeps]

theorem execHtValueWrite_keeps (r : Requester) (d : Nat) (n : Nat) (fld : Nat) (v : Nat) (at_ : Nat) (s : State)  :
    ∀ s', (execHtValueWrite r d n fld v at_ s) = .next s' → Keeps s s' := by
  unfold execHtValueWrite
  grind [keeps_iff, at_keeps, gate_keeps, respond_keeps, tickWith_keeps]

theorem execHicPendWrite_keeps (r : Requester) (d : Nat) (g : Nat) (v : Nat) (hw : Nat) (at_ : Nat) (s : State)  :
    ∀ s', (execHicPendWrite r d g v hw at_ s) = .next s' → Keeps s s' := by
  unfold execHicPendWrite
  grind [keeps_iff, hicOrder_keeps, hicSettle_keeps, noteWake_keeps, rowWrite_keeps, setReg_keeps]

theorem execHicEoi_keeps (r : Requester) (d : Nat) (v : Nat) (at_ : Nat) (s : State)  :
    ∀ s', (execHicEoi r d v at_ s) = .next s' → Keeps s s' := by
  unfold execHicEoi
  grind [keeps_iff, hicEoi_keeps, rowWrite_keeps]

theorem execLedgerFence_keeps (r : Requester) (d : Nat) (v : Nat) (at_ : Nat) (s : State)  :
    ∀ s', (execLedgerFence r d v at_ s) = .next s' → Keeps s s' := by
  unfold execLedgerFence
  grind [keeps_iff, rowWrite_keeps, setFlag_keeps]

theorem execLedgerFenceDone_keeps (d : Nat) (at_ : Nat) (s : State)  :
    ∀ s', (execLedgerFenceDone d at_ s) = .next s' → Keeps s s' := by
  unfold execLedgerFenceDone
  grind [keeps_iff, at_keeps, onDie_keeps, setFlag_keeps]

theorem execQyInjseedWrite_keeps (r : Requester) (q : Nat) (v : Nat) (at_ : Nat) (s : State)  :
    ∀ s', (execQyInjseedWrite r q v at_ s) = .next s' → Keeps s s' := by
  unfold execQyInjseedWrite
  grind [keeps_iff, modQuay_keeps, rowWrite_keeps, setReg_keeps]

theorem execHostCellarRead_keeps (r : Requester) (off n at_ : Nat) (s : State) :
    ∀ s', execHostCellarRead r off n at_ s = .next s' → Keeps s s' := by
  rintro s' ⟨⟩
  have h0 := at_keeps s at_
  extract_lets u m ws z
  have h1 : Keeps u z.2.2 := foldl_keeps3 _ (fun t w => by grind [keeps_iff, bankRead_keeps]) ([], false, u) ws
  split
  · exact h0
  · split
    · exact h0.trans (respond_keeps ..)
    · split
      · exact h0.trans ((fabricLost_keeps ..).trans (respond_keeps ..))
      · split
        · exact h0.trans ((logViol_keeps ..).trans (respond_keeps ..))
        · exact h0.trans (h1.trans (respond_keeps ..))

theorem writeBytes_keeps (s : State) (off : Nat) (bytes : List (Option Byte)) (w : Nat)  :
    Keeps s (State.writeBytes s off bytes w) := by
  unfold State.writeBytes
  grind [keeps_iff, Memory.putWord_wf, Memory.putByte_wf, Memory.filter_wf, FRun_word_keeps, LRun_putWord_keeps, putWord_keeps]

theorem writeWords_keeps (s : State) (m : Master) (off : Nat) (bytes : List (Option Byte)) (ws : List Nat)  :
    Keeps s (State.writeWords s m off bytes ws) := by
  unfold State.writeWords
  grind [keeps_iff, foldl_keeps, foldl_keeps1, foldl_keeps2, foldl_keeps3, mergeRead_keeps, writeBytes_keeps]

theorem execHostCellarWrite_keeps (r : Requester) (off : Nat) (bytes : List (Option Byte)) (at_ : Nat) (s : State)  :
    ∀ s', (execHostCellarWrite r off bytes at_ s) = .next s' → Keeps s s' := by
  unfold execHostCellarWrite
  grind [keeps_iff, at_keeps, fabricLost_keeps, logViol_keeps, respond_keeps, writeWords_keeps]

theorem settleRetire_keeps (s : State)  :
    Keeps s (State.settleRetire s) := by
  unfold State.settleRetire
  grind [keeps_iff, foldl_keeps, foldl_keeps1, foldl_keeps2, foldl_keeps3, recordTest_keeps, setPage_keeps]

theorem upset_keeps (s : State) (d : Nat) (wa : Nat) (kind : Nat) (bit : Nat)  :
    Keeps s (State.upset s d wa kind bit) := by
  unfold State.upset
  grind [keeps_iff]

theorem execPatrolScrubRead_keeps (d : Nat) (b : Nat) (up : Option (Nat × Nat × Nat)) (at_ : Nat) (s : State)  :
    ∀ s', (execPatrolScrubRead d b up at_ s) = .next s' → Keeps s s' := by
  unfold execPatrolScrubRead
  grind [keeps_iff, foldl_keeps, foldl_keeps1, foldl_keeps2, foldl_keeps3, at_keeps, eccRead_keeps, onDie_keeps, settleRetire_keeps, upset_keeps]

theorem settlePending_keeps (s : State) (d : Nat) (bank : Nat)  :
    Keeps s (State.settlePending s d bank) := by
  unfold State.settlePending
  grind [keeps_iff, setFlag_keeps]

theorem execRowRepairStart_keeps (d : Nat) (b : Nat) (at_ : Nat) (s : State)  :
    ∀ s', (execRowRepairStart d b at_ s) = .next s' → Keeps s s' := by
  unfold execRowRepairStart
  grind [keeps_iff, at_keeps, onDie_keeps, queueRepair_keeps, settlePending_keeps, settleRetire_keeps]

theorem copyEcc_keeps (s : State) (d : Nat) (wa : Nat)  :
    Keeps s (State.copyEcc s d wa) := by
  unfold State.copyEcc
  grind [keeps_iff, draw_keeps, flipWords_keeps]

theorem copyRow_keeps (s : State) (d : Nat) (bank : Nat) (row : Nat)  :
    Keeps s (State.copyRow s d bank row) := by
  unfold State.copyRow
  grind [keeps_iff, foldl_keeps, foldl_keeps1, foldl_keeps2, foldl_keeps3, copyEcc_keeps]

theorem execRowRepairDone_keeps (d : Nat) (b : Nat) (at_ : Nat) (s : State)  :
    ∀ s', (execRowRepairDone d b at_ s) = .next s' → Keeps s s' := by
  unfold execRowRepairDone
  grind [keeps_iff, at_keeps, copyRow_keeps, countSpare_keeps, onDie_keeps, settlePending_keeps]

end Sys2Proof.Machine
end

