-- ==== Sys2Proof/Laws/Keeps/HostRings.lean ====
section
/-! SUPPORT. Every operation of Machine/HostRings.lean keeps the queue, the part and the canonical form of the cellar. -/

namespace Sys2Proof.Machine

set_option Elab.async false

theorem clearHostErr_keeps (s : State) (e : Nat) (v : Nat)  :
    Keeps s (State.clearHostErr s e v) := by
  unfold State.clearHostErr
  grind [keeps_iff, setReg_keeps]

theorem zeroRings_keeps (s : State) (e : Nat)  :
    Keeps s (State.zeroRings s e) := by
  unfold State.zeroRings
  grind [keeps_iff, foldl_keeps, foldl_keeps1, foldl_keeps2, foldl_keeps3, modEp_keeps, setReg_keeps]

theorem execHostRingEnable_keeps (r : Requester) (e : Nat) (v : Nat) (at_ : Nat) (s : State)  :
    ∀ s', (execHostRingEnable r e v at_ s) = .next s' → Keeps s s' := by
  unfold execHostRingEnable
  grind [keeps_iff, clearHostErr_keeps, onEpReg_keeps, rowWrite_keeps, setFlag_keeps, zeroRings_keeps]

theorem execHostRingDisable_keeps (r : Requester) (e : Nat) (v : Nat) (at_ : Nat) (s : State)  :
    ∀ s', (execHostRingDisable r e v at_ s) = .next s' → Keeps s s' := by
  unfold execHostRingDisable
  grind [keeps_iff, clearHostErr_keeps, onEpReg_keeps, rowWrite_keeps, setFlag_keeps]

theorem doorbell_keeps (s : State) (e : Nat) (a : Nat) (size : Nat) (v : Nat) (f : Nat → Endpoint → Endpoint)  :
    Keeps s (State.doorbell s e a size v f) := by
  unfold State.doorbell
  grind [keeps_iff, hicSet_keeps, modEp_keeps, setFlag_keeps, setReg_keeps]

theorem execSqTailDoorbell_keeps (r : Requester) (e : Nat) (n : Nat) (v : Nat) (at_ : Nat) (s : State)  :
    ∀ s', (execSqTailDoorbell r e n v at_ s) = .next s' → Keeps s s' := by
  unfold execSqTailDoorbell
  grind [keeps_iff, doorbell_keeps, onEpReg_keeps, rowWrite_keeps]

theorem execCqHeadDoorbell_keeps (r : Requester) (e : Nat) (n : Nat) (v : Nat) (at_ : Nat) (s : State)  :
    ∀ s', (execCqHeadDoorbell r e n v at_ s) = .next s' → Keeps s s' := by
  unfold execCqHeadDoorbell
  grind [keeps_iff, doorbell_keeps, drainDone_keeps, onEpReg_keeps, rowWrite_keeps]

theorem execEvHeadDoorbell_keeps (r : Requester) (e : Nat) (v : Nat) (at_ : Nat) (s : State)  :
    ∀ s', (execEvHeadDoorbell r e v at_ s) = .next s' → Keeps s s' := by
  unfold execEvHeadDoorbell
  grind [keeps_iff, doorbell_keeps, drainHeld_keeps, onEpReg_keeps, rowWrite_keeps]

theorem flr_keeps (s : State) (e : Nat)  :
    Keeps s (State.flr s e) := by
  unfold State.flr
  grind [keeps_iff, setFlag_keeps]

theorem execPcieD3hotEntry_keeps (e : Nat) (at_ : Nat) (s : State)  :
    ∀ s', (execPcieD3hotEntry e at_ s) = .next s' → Keeps s s' := by
  unfold execPcieD3hotEntry
  grind [keeps_iff, at_keeps, modEp_keeps, onEp_keeps]

theorem setEpLink_keeps (s : State) (e : Nat) (up : Bool)  :
    Keeps s (State.setEpLink s e up) := by
  unfold State.setEpLink
  grind [keeps_iff, hicSet_keeps, modEp_keeps]

theorem perstLow_keeps (s : State) (e : Nat) (dur : Nat)  :
    Keeps s (State.perstLow s e dur) := by
  unfold State.perstLow
  grind [keeps_iff, flr_keeps, modEp_keeps, setEpLink_keeps]

theorem execPerstDeassert_keeps (e : Nat) (at_ : Nat) (s : State)  :
    ∀ s', (execPerstDeassert e at_ s) = .next s' → Keeps s s' := by
  unfold execPerstDeassert
  grind [keeps_iff, at_keeps, modEp_keeps, onEp_keeps]

theorem execPcieLinkChange_keeps (e : Nat) (up : Bool) (at_ : Nat) (s : State)  :
    ∀ s', (execPcieLinkChange e up at_ s) = .next s' → Keeps s s' := by
  unfold execPcieLinkChange
  grind [keeps_iff, at_keeps, onEp_keeps, setEpLink_keeps]

theorem execUnderrunSummaryPost_keeps (b : Nat) (at_ : Nat) (s : State)  :
    ∀ s', (execUnderrunSummaryPost b at_ s) = .next s' → Keeps s s' := by
  unfold execUnderrunSummaryPost
  grind [keeps_iff, at_keeps, postAt_keeps, setBerth_keeps]

theorem execLedgerDenialEvent_keeps (d : Nat) (at_ : Nat) (s : State)  :
    ∀ s', (execLedgerDenialEvent d at_ s) = .next s' → Keeps s s' := by
  unfold execLedgerDenialEvent
  grind [keeps_iff, at_keeps, onDie_keeps, postAt_keeps]

theorem answer_keeps (s : State) (c : Cmd) (status : Nat) (result : Nat) (data : List Byte)  :
    Keeps s (State.answer s c status result data) := by
  unfold State.answer
  grind [keeps_iff, complete_keeps, modEp_keeps]

theorem conclude2_keeps (s : State) (op : Nat) (c : Cmd) (r : Res)  (hr : ResKeeps s r) :
    Keeps s (State.conclude2 s op c r) := by
  unfold State.conclude2
  grind [keeps_iff, answer_keeps, ResKeeps]

theorem internal_keeps (s : State) (op : Nat) (c : Cmd)  :
    Keeps s (State.internal s op c) := by
  unfold State.internal
  grind [keeps_iff, answer_keeps, logFault_keeps]

theorem fetched_keeps (s : State) (c : Cmd)  :
    Keeps s (State.fetched s c) := by
  unfold State.fetched
  grind [keeps_iff, modEp_keeps]

theorem begin_keeps (s : State) (op : Nat) (c : Cmd) (body : State → Cmd → Res)  (hbody : ∀ t c, ResKeeps t (body t c)) :
    Keeps s (State.begin s op c body) := by
  unfold State.begin
  grind [keeps_iff, answer_keeps, conclude2_keeps, internal_keeps, ResKeeps]

theorem makeWait_keeps (s : State) (op : Nat) (c : Cmd)  :
    Keeps s (State.makeWait s op c) := by
  unfold State.makeWait
  grind [keeps_iff]

theorem host_keeps (s : State) (op : Nat) (c : Cmd) (at_ : Nat) (body : State → Cmd → Res)  (hbody : ∀ t c, ResKeeps t (body t c)) :
    Keeps s (State.host s op c at_ body) := by
  unfold State.host
  grind [keeps_iff, answer_keeps, at_keeps, begin_keeps, fetched_keeps, makeWait_keeps, ResKeeps]

theorem onBerth_keeps (s : State) (c : Cmd) (states : List Nat) (f : Berth → Res)  (hf : ∀ y, ResKeeps s (f y)) :
    ResKeeps s (State.onBerth s c states f) := by
  unfold State.onBerth
  grind [keeps_iff, ResKeeps]

theorem atCommit_keeps (s : State) (c : Cmd) (r : Res)  (hr : ResKeeps s r) :
    ResKeeps s (State.atCommit s c r) := by
  unfold State.atCommit
  grind [keeps_iff, ResKeeps]

end Sys2Proof.Machine
end

