-- ==== Sys2Proof/Laws/Keeps/Power.lean ====
section
/-! SUPPORT. Every operation of Machine/Power.lean keeps the queue, the part and the canonical form of the cellar. -/

namespace Sys2Proof.Machine

set_option Elab.async false

theorem setDomain_keeps (s : State) (d : Nat) (code : Nat) (v : Nat)  :
    Keeps s (State.setDomain s d code v) := by
  unfold State.setDomain
  grind [keeps_iff]

theorem clearBanks_keeps (s : State) (d : Nat) (g : Nat) (keep : Nat → Bool)  :
    Keeps s (State.clearBanks s d g keep) := by
  unfold State.clearBanks
  grind [keeps_iff, Memory.putWord_wf, Memory.putByte_wf, Memory.filter_wf]

theorem setCsBank_keeps (s : State) (d : Nat) (k : Nat) (n : Nat) (b : CBank)  :
    Keeps s (State.setCsBank s d k n b) := by
  unfold State.setCsBank
  grind [keeps_iff]

theorem loadDock_keeps (s : State) (d : Nat) (k : Nat)  :
    Keeps s (State.loadDock s d k) := by
  unfold State.loadDock
  grind [keeps_iff, setCsBank_keeps, setReg_keeps]

theorem returned_keeps (s : State) (d : Nat) (code : Nat) (was : Nat)  :
    Keeps s (State.returned s d code was) := by
  unfold State.returned
  grind [keeps_iff, foldl_keeps, foldl_keeps1, foldl_keeps2, foldl_keeps3, clearBanks_keeps, loadDock_keeps, setDomain_keeps, setFlag_keeps, setPipe_keeps, setReg_keeps, setSlot_keeps]

theorem postPower_keeps (s : State) (d : Nat) (code : Nat) (st : Nat) (cause : Nat)  :
    Keeps s (State.postPower s d code st cause) := by
  unfold State.postPower
  grind [keeps_iff, post_keeps]

theorem startReturn_keeps (s : State) (d : Nat) (code : Nat)  :
    Keeps s (State.startReturn s d code) := by
  unfold State.startReturn
  grind [keeps_iff, setDomain_keeps]

theorem donePower_keeps (s : State) (y : Why) (d : Nat) (code : Nat) (st : Nat)  :
    Keeps s (State.donePower s y d code st) := by
  unfold State.donePower
  grind [keeps_iff, answer_keeps, postPower_keeps]

theorem armEntry_keeps (s : State) (d : Nat) (code : Nat) (st : Nat) (auto : Bool)  :
    Keeps s (State.armEntry s d code st auto) := by
  unfold State.armEntry
  grind [keeps_iff]

theorem cmdPowerSet_keeps (s : State) (c : Cmd)  :
    ResKeeps s (cmdPowerSet s c) := by
  unfold cmdPowerSet
  grind (splits := 40) [keeps_iff, Comp_entry_keeps, SpriteEval_entry_keeps, armEntry_keeps, setFld_keeps, startReturn_keeps, ResKeeps]

theorem execPowerSet_keeps (c : Cmd) (at_ : Nat) (s : State)  :
    ∀ s', (execPowerSet c at_ s) = .next s' → Keeps s s' := by
  unfold execPowerSet
  grind [keeps_iff, cmdPowerSet_keeps, host_keeps]

theorem writeMode_keeps (s : State) (d : Nat) (v : Nat) (keep : Bool)  :
    Keeps s (State.writeMode s d v keep) := by
  unfold State.writeMode
  grind [keeps_iff, setReg_keeps]

theorem modeErr_keeps (s : State) (d : Nat) (v : Nat)  :
    Keeps s (State.modeErr s d v) := by
  unfold State.modeErr
  grind [keeps_iff, setFlag_keeps, writeMode_keeps]

theorem execPwModeOn_keeps (r : Requester) (d : Nat) (v : Nat) (at_ : Nat) (s : State)  :
    ∀ s', (execPwModeOn r d v at_ s) = .next s' → Keeps s s' := by
  unfold execPwModeOn
  grind [keeps_iff, modeErr_keeps, rowWrite_keeps, startReturn_keeps, writeMode_keeps]

theorem execPwModeArm_keeps (r : Requester) (d : Nat) (v : Nat) (at_ : Nat) (s : State)  :
    ∀ s', (execPwModeArm r d v at_ s) = .next s' → Keeps s s' := by
  unfold execPwModeArm
  grind [keeps_iff, armEntry_keeps, modeErr_keeps, rowWrite_keeps, writeMode_keeps]

theorem abandonEntry_keeps (s : State) (d : Nat) (e : Entry) (ap : Nat)  :
    Keeps s (State.abandonEntry s d e ap) := by
  unfold State.abandonEntry
  grind [keeps_iff, Comp_entry_keeps, SpriteEval_entry_keeps, addFld_keeps, donePower_keeps, setDomain_keeps, setFld_keeps]

theorem commitEntry_keeps (s : State) (d : Nat) (e : Entry)  :
    Keeps s (State.commitEntry s d e) := by
  unfold State.commitEntry
  grind [keeps_iff, foldl_keeps, foldl_keeps1, foldl_keeps2, foldl_keeps3, Comp_entry_keeps, SpriteEval_entry_keeps, clearBanks_keeps, donePower_keeps, setDetours_keeps, setDomain_keeps, setFlag_keeps]

theorem runEntry_keeps (s : State) (d : Nat) (e : Entry)  :
    Keeps s (State.runEntry s d e) := by
  unfold State.runEntry
  grind [keeps_iff, abandonEntry_keeps, commitEntry_keeps]

theorem enterDomain_keeps (s : State) (d : Nat) (ap1 : Nat)  :
    Keeps s (State.enterDomain s d ap1) := by
  unfold State.enterDomain
  grind [keeps_iff, abandonEntry_keeps, runEntry_keeps, setDomain_keeps]

theorem wakeEntry_keeps (s : State) (d : Nat) (src : Nat)  :
    Keeps s (State.wakeEntry s d src) := by
  unfold State.wakeEntry
  grind [keeps_iff, at_keeps, postPower_keeps, runEntry_keeps, startReturn_keeps]

theorem startAvs_keeps (s : State)  :
    Keeps s (State.startAvs s) := by
  unfold State.startAvs
  grind [keeps_iff, setFlag_keeps]

theorem queueAvs_keeps (s : State) (rail : Nat) (v : Nat)  :
    Keeps s (State.queueAvs s rail v) := by
  unfold State.queueAvs
  grind [keeps_iff, startAvs_keeps]

theorem setSteps_keeps (s : State)  :
    Keeps s (State.setSteps s) := by
  unfold State.setSteps
  grind [keeps_iff, foldl_keeps, foldl_keeps1, foldl_keeps2, foldl_keeps3, setFld_keeps]

theorem postThermal_keeps (s : State) (d : Nat) (level : Nat)  :
    Keeps s (State.postThermal s d level) := by
  unfold State.postThermal
  grind [keeps_iff, foldl_keeps, foldl_keeps1, foldl_keeps2, foldl_keeps3, post_keeps, setFld_keeps]

theorem afterAction_keeps (s : State) (d : Nat) (pack : Bool) (down : Bool)  :
    Keeps s (State.afterAction s d pack down) := by
  unfold State.afterAction
  grind [keeps_iff, logFault_keeps, postPower_keeps, postThermal_keeps, queueAvs_keeps, setSteps_keeps]

theorem packDown_keeps (s : State)  :
    Keeps s (State.packDown s) := by
  unfold State.packDown
  grind [keeps_iff, afterAction_keeps, setFld_keeps]

theorem stepUp_keeps (s : State) (z : Nat)  :
    Keeps s (State.stepUp s z) := by
  unfold State.stepUp
  grind [keeps_iff, afterAction_keeps, setFld_keeps]

theorem askUp_keeps (s : State) (z : Nat)  :
    Keeps s (State.askUp s z) := by
  unfold State.askUp
  grind [keeps_iff, foldl_keeps, foldl_keeps1, foldl_keeps2, foldl_keeps3, queueAvs_keeps, stepUp_keeps]

theorem packUp_keeps (s : State)  :
    Keeps s (State.packUp s) := by
  unfold State.packUp
  grind [keeps_iff, afterAction_keeps, askUp_keeps, setFld_keeps]

theorem execPowerSample_keeps (v0 : Nat) (i0 : Nat) (v1 : Nat) (i1 : Nat) (at_ : Nat) (s : State)  :
    ∀ s', (execPowerSample v0 i0 v1 i1 at_ s) = .next s' → Keeps s s' := by
  unfold execPowerSample
  grind [keeps_iff, foldl_keeps, foldl_keeps1, foldl_keeps2, foldl_keeps3, at_keeps, packDown_keeps, packUp_keeps, setReg_keeps]

theorem setDieLadder_keeps (s : State) (d : Nat) (l : Ladder)  :
    Keeps s (State.setDieLadder s d l) := by
  unfold State.setDieLadder
  grind [keeps_iff]

theorem execThermalSample_keeps (d : Nat) (tj : Nat) (at_ : Nat) (s : State)  :
    ∀ s', (execThermalSample d tj at_ s) = .next s' → Keeps s s' := by
  unfold execThermalSample
  grind [keeps_iff, afterAction_keeps, askUp_keeps, at_keeps, onDie_keeps, postThermal_keeps, setDieLadder_keeps, setFld_keeps, withLevel_keeps]

theorem avsDone_keeps (s : State) (a : Avs)  :
    Keeps s (State.avsDone s a) := by
  unfold State.avsDone
  grind [keeps_iff, foldl_keeps, foldl_keeps1, foldl_keeps2, foldl_keeps3, setFlag_keeps, setFld_keeps, setSteps_keeps, startAvs_keeps, stepUp_keeps]

theorem execAvsStatusPoll_keeps (vdone : Bool) (at_ : Nat) (s : State)  :
    ∀ s', (execAvsStatusPoll vdone at_ s) = .next s' → Keeps s s' := by
  unfold execAvsStatusPoll
  grind [keeps_iff, at_keeps, avsDone_keeps]

theorem execAvsRetryTimeout_keeps (at_ : Nat) (s : State)  :
    ∀ s', (execAvsRetryTimeout at_ s) = .next s' → Keeps s s' := by
  unfold execAvsRetryTimeout
  grind [keeps_iff, addFld_keeps, at_keeps, hicSet_keeps, postPower_keeps, setFlag_keeps]

theorem execAvsFaultTimeout_keeps (at_ : Nat) (s : State)  :
    ∀ s', (execAvsFaultTimeout at_ s) = .next s' → Keeps s s' := by
  unfold execAvsFaultTimeout
  grind [keeps_iff, at_keeps, hicSet_keeps, logFault_keeps, postPower_keeps, setFlag_keeps, startAvs_keeps]

theorem execRaiseholdExpiry_keeps (at_ : Nat) (s : State)  :
    ∀ s', (execRaiseholdExpiry at_ s) = .next s' → Keeps s s' := by
  unfold execRaiseholdExpiry
  grind [keeps_iff, at_keeps, queueAvs_keeps, setFlag_keeps]

theorem cmdThermalPolicy_keeps (s : State) (c : Cmd)  :
    ResKeeps s (cmdThermalPolicy s c) := by
  unfold cmdThermalPolicy
  grind [keeps_iff, foldl_keeps, foldl_keeps1, foldl_keeps2, foldl_keeps3, hicSet_keeps, onBerth_keeps, setBerth_keeps, setReg_keeps, ResKeeps]

theorem runThermalPolicy_keeps (s : State) (c : Cmd)  :
    ResKeeps s (runThermalPolicy s c) := by
  unfold runThermalPolicy
  grind [keeps_iff, atCommit_keeps, cmdThermalPolicy_keeps, ResKeeps]

theorem execThermalPolicy_keeps (c : Cmd) (at_ : Nat) (s : State)  :
    ∀ s', (execThermalPolicy c at_ s) = .next s' → Keeps s s' := by
  unfold execThermalPolicy
  grind [keeps_iff, host_keeps, runThermalPolicy_keeps]

end Sys2Proof.Machine
end

