-- ==== Sys2Proof/Laws/Keeps/Boot.lean ====
section
/-! SUPPORT. Every operation of Machine/Boot.lean keeps the queue, the part and the canonical form of the cellar. -/

namespace Sys2Proof.Machine

set_option Elab.async false

theorem extend_keeps (s : State) (d : Nat) (n : Nat) (digest : List Byte)  :
    Keeps s (State.extend s d n digest) := by
  unfold State.extend
  grind [keeps_iff, foldl_keeps, foldl_keeps1, foldl_keeps2, foldl_keeps3, addFld_keeps, setReg_keeps]

theorem clearSlots_keeps (s : State)  :
    Keeps s (State.clearSlots s) := by
  unfold State.clearSlots
  grind [keeps_iff]

theorem useSpare_keeps (s : State) (d : Nat) (bank : Nat) (row : Nat) (source : Nat)  :
    Keeps s (State.useSpare s d bank row source) := by
  unfold State.useSpare
  grind [keeps_iff, addFld_keeps, countSpare_keeps, queueRepair_keeps, settleRetire_keeps]

theorem marchFails_keeps (s : State) (m : Nat × Nat × Nat)  :
    Keeps s (State.marchFails s m) := by
  unfold State.marchFails
  grind [keeps_iff, recordTest_keeps, useSpare_keeps]

theorem applyRepairs_keeps (s : State) (dir : List DirEntry)  :
    Keeps s (State.applyRepairs s dir) := by
  unfold State.applyRepairs
  grind [keeps_iff, foldl_keeps, foldl_keeps1, foldl_keeps2, foldl_keeps3, countSpare_keeps, setFlag_keeps]

theorem bootFails_keeps (s : State) (step : Nat) (code : Nat)  :
    Keeps s (State.bootFails s step code) := by
  unfold State.bootFails
  grind [keeps_iff, setFld_keeps]

theorem loadProfile_keeps (s : State) (p : Profile)  :
    Keeps s (State.loadProfile s p) := by
  unfold State.loadProfile
  grind [keeps_iff, foldl_keeps, foldl_keeps1, foldl_keeps2, foldl_keeps3, setFld_keeps, setReg_keeps]

theorem applyProfile_keeps (s : State) (want : Nat)  :
    ∀ s', (State.applyProfile s want) = some s' → Keeps s s' := by
  unfold State.applyProfile
  grind [keeps_iff, extend_keeps, loadProfile_keeps, setFlag_keeps, setFld_keeps]

theorem bootVolts_keeps (s : State) (ok : Bool)  :
    Keeps s (State.bootVolts s ok) := by
  unfold State.bootVolts
  grind [keeps_iff, foldl_keeps, foldl_keeps1, foldl_keeps2, foldl_keeps3, hicSet_keeps, logFault_keeps, setFlag_keeps, setFld_keeps, setReg_keeps, setSteps_keeps]

theorem linksUp_keeps (s : State)  :
    Keeps s (State.linksUp s) := by
  unfold State.linksUp
  grind [keeps_iff, foldl_keeps, foldl_keeps1, foldl_keeps2, foldl_keeps3, setFlag_keeps]

theorem bootLoad_keeps (s : State) (dir : List DirEntry) (fw : Image) (mc : Image)  :
    Keeps s (State.bootLoad s dir fw mc) := by
  unfold State.bootLoad
  grind [keeps_iff, applyRepairs_keeps, extend_keeps, setFlag_keeps]

theorem bootDie_keeps (s : State) (fw : Image) (mc : Image) (d : Nat)  :
    Keeps s (State.bootDie s fw mc d) := by
  unfold State.bootDie
  grind [keeps_iff, foldl_keeps, foldl_keeps1, foldl_keeps2, foldl_keeps3, extend_keeps, loadDock_keeps]

theorem bootServe_keeps (s : State) (avs : Bool)  :
    Keeps s (State.bootServe s avs) := by
  unfold State.bootServe
  grind [keeps_iff, foldl_keeps, foldl_keeps1, foldl_keeps2, foldl_keeps3, bootVolts_keeps, setFlag_keeps, setFld_keeps]

theorem bootSteps_keeps (s : State) (w : BootIn) (want : Nat) : Keeps s (State.bootSteps s w want) := by
  unfold State.bootSteps
  split
  · exact bootFails_keeps ..
  · split
    · exact bootFails_keeps ..
    · rename_i dir dirB _
      extract_lets s1
      have h1 : Keeps s s1 := setFlag_keeps ..
      clear_value s1
      split
      · exact h1.trans (bootFails_keeps ..)
      · split
        · exact h1.trans (bootFails_keeps ..)
        · exact h1.trans (bootFails_keeps ..)
        · rename_i fw mc _ _
          extract_lets s7 s8
          have h7 : Keeps s s7 := h1.trans ((bootLoad_keeps s1 dir fw mc).trans (foldl_keeps _ (fun t m => marchFails_keeps ..) _ _))
          split
          · exact h7.trans (bootFails_keeps ..)
          · have h8 : Keeps s s8 := h7.trans ((linksUp_keeps s7).trans ((setDetours_keeps _).trans (foldl_keeps _ (fun t d => bootDie_keeps ..) _ _)))
            split
            · exact h8.trans (bootFails_keeps ..)
            · rename_i s9 h
              exact h8.trans ((applyProfile_keeps _ _ _ h).trans (bootServe_keeps ..))

theorem readOtp_keeps (s : State)  :
    Keeps s (State.readOtp s) := by
  unfold State.readOtp
  grind [keeps_iff, foldl_keeps, foldl_keeps1, foldl_keeps2, foldl_keeps3, extend_keeps, useSpare_keeps]

theorem execColdBoot_keeps (w : BootIn) (s : State)  :
    ∀ s', (execColdBoot w s) = .next s' → Keeps s s' := by
  unfold execColdBoot
  dsimp only
  repeat' split
  all_goals grind [keeps_iff, advance_keeps, bootSteps_keeps, readOtp_keeps, setFld_keeps]

theorem warmBase_keeps (s : State) : Keeps s (State.warmBase s) :=
  ⟨rfl, rfl, fun h => Memory.filter_wf _ h⟩

theorem retiredToTest_keeps (s : State) (old : State)  :
    Keeps s (State.retiredToTest s old) := by
  unfold State.retiredToTest
  grind [keeps_iff, foldl_keeps, foldl_keeps1, foldl_keeps2, foldl_keeps3, slotToTest_keeps]

theorem warmRestart_keeps (s : State) (w : BootIn)  :
    Keeps s (State.warmRestart s w) := by
  unfold State.warmRestart
  dsimp only
  repeat' split
  all_goals grind [keeps_iff, advance_keeps, bootSteps_keeps, extend_keeps, retiredToTest_keeps, setFlag_keeps, setReg_keeps, warmBase_keeps, withPads_keeps]

theorem execRepairRecordWrite_keeps (at_ : Nat) (s : State)  :
    ∀ s', (execRepairRecordWrite at_ s) = .next s' → Keeps s s' := by
  unfold execRepairRecordWrite
  grind [keeps_iff, at_keeps]

theorem execMeasureExtend_keeps (r : Requester) (d : Nat) (v : Nat) (at_ : Nat) (s : State)  :
    ∀ s', (execMeasureExtend r d v at_ s) = .next s' → Keeps s s' := by
  unfold execMeasureExtend
  grind [keeps_iff, extend_keeps, rowWrite_keeps]

theorem execMcLaddrWrite_keeps (r : Requester) (d k v at_ : Nat) (s : State) :
    ∀ s', execMcLaddrWrite r d k v at_ s = .next s' → Keeps s s' := by
  intro s' h
  refine (rowWrite_keeps s r _ at_ _ (fun t => ?_)).trans (onDockReg_keeps _ _ _ h)
  grind [keeps_iff, setReg_keeps, setFlag_keeps, setCsBank_keeps]

theorem execMcLoadWord_keeps (r : Requester) (d k v at_ : Nat) (s : State) :
    ∀ s', execMcLoadWord r d k v at_ s = .next s' → Keeps s s' := by
  intro s' h
  refine (rowWrite_keeps s r _ at_ _ (fun t => ?_)).trans (onDockReg_keeps _ _ _ h)
  grind [keeps_iff, setReg_keeps, setFlag_keeps, setCsBank_keeps]

theorem execMcCrcCheck_keeps (r : Requester) (d k v at_ : Nat) (s : State) :
    ∀ s', execMcCrcCheck r d k v at_ s = .next s' → Keeps s s' := by
  intro s' h
  refine (rowWrite_keeps s r _ at_ _ (fun t => ?_)).trans (onDockReg_keeps _ _ _ h)
  grind [keeps_iff, setReg_keeps, setFlag_keeps, setCsBank_keeps]

theorem execMcCrcCheckDone_keeps (d : Nat) (k : Nat) (at_ : Nat) (s : State)  :
    ∀ s', (execMcCrcCheckDone d k at_ s) = .next s' → Keeps s s' := by
  unfold execMcCrcCheckDone
  dsimp only
  repeat' split
  all_goals grind [keeps_iff, at_keeps, onDock_keeps, setCsBank_keeps, setFlag_keeps, setReg_keeps]

theorem switchBanks_keeps (s : State) (d : Nat) (k : Nat)  :
    Keeps s (State.switchBanks s d k) := by
  unfold State.switchBanks
  grind [keeps_iff, foldl_keeps, foldl_keeps1, foldl_keeps2, foldl_keeps3, setBerth_keeps, setFlag_keeps, setFld_keeps, setReg_keeps]

theorem execMcSwitch_keeps (r : Requester) (d k v at_ : Nat) (s : State) :
    ∀ s', execMcSwitch r d k v at_ s = .next s' → Keeps s s' := by
  intro s' h
  refine (rowWrite_keeps s r _ at_ _ (fun t => ?_)).trans (onDockReg_keeps _ _ _ h)
  grind [keeps_iff, setReg_keeps, setFlag_keeps, setCsBank_keeps, switchBanks_keeps]

theorem cmdMcReload_keeps (s : State) (c : Cmd)  :
    ResKeeps s (cmdMcReload s c) := by
  unfold cmdMcReload
  grind [keeps_iff, foldl_keeps, foldl_keeps1, foldl_keeps2, foldl_keeps3, extend_keeps, setCsBank_keeps, setFlag_keeps, setReg_keeps, switchBanks_keeps, ResKeeps]

theorem execMcReload_keeps (c : Cmd) (at_ : Nat) (s : State)  :
    ∀ s', (execMcReload c at_ s) = .next s' → Keeps s s' := by
  unfold execMcReload
  grind [keeps_iff, cmdMcReload_keeps, host_keeps]

theorem cmdMeasureRead_keeps (s : State) (c : Cmd)  :
    ResKeeps s (cmdMeasureRead s c) := by
  unfold cmdMeasureRead
  grind [keeps_iff, ResKeeps]

theorem execMeasureRead_keeps (c : Cmd) (at_ : Nat) (s : State)  :
    ∀ s', (execMeasureRead c at_ s) = .next s' → Keeps s s' := by
  unfold execMeasureRead
  grind [keeps_iff, cmdMeasureRead_keeps, host_keeps]

end Sys2Proof.Machine
end

