-- ==== Sys2Proof/Laws/Keeps/SelfTest.lean ====
section
/-! SUPPORT. Every operation of Machine/SelfTest.lean keeps the queue, the part and the canonical form of the cellar. -/

namespace Sys2Proof.Machine

set_option Elab.async false

theorem haltDeputy_keeps (s : State) (d : Nat)  :
    Keeps s (State.haltDeputy s d) := by
  unfold State.haltDeputy
  grind [keeps_iff, foldl_keeps, foldl_keeps1, foldl_keeps2, foldl_keeps3, internal_keeps, setFlag_keeps]

theorem outvote_keeps (s : State) (d : Nat) (hm : Bool) (m : Nat)  :
    Keeps s (State.outvote s d hm m) := by
  unfold State.outvote
  grind [keeps_iff, addFld_keeps, haltDeputy_keeps, hicSet_keeps, logFault_keeps, setFlag_keeps]

theorem execVoterRejoin_keeps (d : Nat) (hm : Bool) (m : Nat) (at_ : Nat) (s : State)  :
    ∀ s', (execVoterRejoin d hm m at_ s) = .next s' → Keeps s s' := by
  unfold execVoterRejoin
  grind [keeps_iff, at_keeps, onDie_keeps, setFlag_keeps]

theorem execSelftestSchedule_keeps (d : Nat) (at_ : Nat) (s : State)  :
    ∀ s', (execSelftestSchedule d at_ s) = .next s' → Keeps s s' := by
  unfold execSelftestSchedule
  grind [keeps_iff, foldl_keeps, foldl_keeps1, foldl_keeps2, foldl_keeps3, at_keeps, onDie_keeps, queueSlice_keeps, setFlag_keeps]

theorem modSlice_keeps (s : State) (z : Slice) (f : Slice → Slice)  :
    Keeps s (State.modSlice s z f) := by
  unfold State.modSlice
  grind [keeps_iff]

theorem clearKeys_keeps (s : State) (q : Nat)  :
    Keeps s (State.clearKeys s q) := by
  unfold State.clearKeys
  grind [keeps_iff, setFlag_keeps]

theorem execSelftestTurnStart_keeps (d : Nat) (at_ : Nat) (s : State)  :
    ∀ s', (execSelftestTurnStart d at_ s) = .next s' → Keeps s s' := by
  unfold execSelftestTurnStart
  grind [keeps_iff, at_keeps, clearKeys_keeps, modSlice_keeps, onDie_keeps, setBerth_keeps, setFlag_keeps, setPipe_keeps]

theorem execSelftestBudgetEnd_keeps (d : Nat) (kind : Nat) (unit : Nat) (at_ : Nat) (s : State)  :
    ∀ s', (execSelftestBudgetEnd d kind unit at_ s) = .next s' → Keeps s s' := by
  unfold execSelftestBudgetEnd
  grind [keeps_iff, at_keeps, dropSlice_keeps, onDie_keeps]

theorem scramble_keeps (s : State) (d : Nat) (p : Nat)  :
    Keeps s (State.scramble s d p) := by
  unfold State.scramble
  grind [keeps_iff, foldl_keeps, foldl_keeps1, foldl_keeps2, foldl_keeps3, Memory.putWord_wf, Memory.putByte_wf, Memory.filter_wf, draw_keeps]

theorem signature_keeps (s : State) (z : Slice)  :
    Keeps s (State.signature s z).2 := by
  unfold State.signature
  grind [keeps_iff, draw_keeps]

theorem sliceFinds_keeps (s : State) (z : Slice) (sig : Nat) (bit : Nat) (addr : Nat) (rows : Nat)  :
    Keeps s (State.sliceFinds s z sig bit addr rows).2 := by
  unfold State.sliceFinds
  grind [keeps_iff, signature_keeps]

theorem sliceOutcome_keeps (s : State) (z : Slice) (result : Nat) (rows : Nat) (addr : Nat)  :
    Keeps s (State.sliceOutcome s z result rows addr).2 := by
  unfold State.sliceOutcome
  grind [keeps_iff, ownPipe_keeps, scramble_keeps, setFlag_keeps, setPipe_keeps, setSpareFailed_keeps, slotPassed_keeps, slotRetired_keeps, useSpare_keeps]

theorem execSelftestSliceEnd_keeps (d : Nat) (kind : Nat) (unit : Nat) (sig : Nat) (bit : Nat) (addr : Nat) (rows : Nat) (at_ : Nat) (s : State)  :
    ∀ s', (execSelftestSliceEnd d kind unit sig bit addr rows at_ s) = .next s' → Keeps s s' := by
  unfold execSelftestSliceEnd
  grind [keeps_iff, at_keeps, dropSlice_keeps, onDie_keeps, recordTest_keeps, sliceFinds_keeps, sliceOutcome_keeps]

theorem execJtagScanEnter_keeps (at_ : Nat) (s : State)  :
    ∀ s', (execJtagScanEnter at_ s) = .next s' → Keeps s s' := by
  unfold execJtagScanEnter
  grind [keeps_iff, foldl_keeps, foldl_keeps1, foldl_keeps2, foldl_keeps3, at_keeps, clearKeys_keeps, extend_keeps]

theorem cmdSelftestPolicy_keeps (s : State) (c : Cmd)  :
    ResKeeps s (cmdSelftestPolicy s c) := by
  unfold cmdSelftestPolicy
  grind [keeps_iff, foldl_keeps, foldl_keeps1, foldl_keeps2, foldl_keeps3, setReg_keeps, ResKeeps]

theorem execSelftestPolicy_keeps (c : Cmd) (at_ : Nat) (s : State)  :
    ∀ s', (execSelftestPolicy c at_ s) = .next s' → Keeps s s' := by
  unfold execSelftestPolicy
  grind [keeps_iff, cmdSelftestPolicy_keeps, host_keeps]

theorem cmdSelftestReport_keeps (s : State) (c : Cmd)  :
    ResKeeps s (cmdSelftestReport s c) := by
  unfold cmdSelftestReport
  grind [keeps_iff, foldl_keeps, foldl_keeps1, foldl_keeps2, foldl_keeps3, ResKeeps]

theorem execSelftestReport_keeps (c : Cmd) (at_ : Nat) (s : State)  :
    ∀ s', (execSelftestReport c at_ s) = .next s' → Keeps s s' := by
  unfold execSelftestReport
  grind [keeps_iff, cmdSelftestReport_keeps, host_keeps]

end Sys2Proof.Machine
end

