-- ==== Sys2Proof/Laws/Keeps/Keeper.lean ====
section
/-! SUPPORT. Every operation of Machine/Keeper.lean keeps the queue, the part and the canonical form of the cellar. -/

namespace Sys2Proof.Machine

set_option Elab.async false

theorem unpower_keeps (s : State) : Keeps s (State.unpower s) := ⟨rfl, rfl, fun _ => rfl⟩

theorem inReset_keeps (s : State)  :
    Keeps s (State.inReset s) := by
  unfold State.inReset
  grind [keeps_iff, unpower_keeps, withPads_keeps]

theorem released_keeps (s : State)  :
    Keeps s (State.released s) := by
  unfold State.released
  grind [keeps_iff, unpower_keeps, withPads_keeps]

theorem powerUp_keeps (s : State)  :
    Keeps s (State.powerUp s) := by
  unfold State.powerUp
  grind [keeps_iff]

theorem startShutdown_keeps (s : State) (trip : Bool)  :
    Keeps s (State.startShutdown s trip) := by
  unfold State.startShutdown
  grind [keeps_iff, setFlag_keeps, unpower_keeps, withPads_keeps]

theorem kat_keeps (s : State) (t : Nat)  :
    Keeps s (State.kat s t) := by
  unfold State.kat
  grind [keeps_iff, at_keeps]

theorem callPower_keeps (s : State) (p : Bool)  :
    Keeps s (State.callPower s p) := by
  unfold State.callPower
  grind [keeps_iff, powerUp_keeps]

theorem wake_keeps (s : State) (n : Nat)  :
    Keeps s (State.wake s n) := by
  unfold State.wake
  grind [keeps_iff, callPower_keeps, setFlag_keeps, withLevel_keeps]

theorem execKeeperWake_keeps (n : Nat) (level : Bool) (at_ : Nat) (s : State)  :
    ∀ s', (execKeeperWake n level at_ s) = .next s' → Keeps s s' := by
  unfold execKeeperWake
  grind [keeps_iff, kat_keeps, setFlag_keeps, wake_keeps]

theorem setCal_keeps (s : State) (c : Cal) (sub : Nat)  :
    Keeps s (State.setCal s c sub) := by
  unfold State.setCal
  grind [keeps_iff, setReg_keeps]

theorem newSecond_keeps (s : State)  :
    Keeps s (State.newSecond s) := by
  unfold State.newSecond
  grind [keeps_iff, callPower_keeps, setFlag_keeps, withLevel_keeps]

theorem seconds_keeps (s : State) (z0 : Nat) :
    Keeps s (State.seconds s z0) := by
  induction z0 generalizing s with
  | zero => grind [State.seconds, keeps_iff, newSecond_keeps, setCal_keeps, setFlag_keeps]
  | succ n ih => grind [State.seconds, keeps_iff, newSecond_keeps, setCal_keeps, setFlag_keeps]

theorem execCalendarTick_keeps (n : Nat) (at_ : Nat) (s : State)  :
    ∀ s', (execCalendarTick n at_ s) = .next s' → Keeps s s' := by
  unfold execCalendarTick
  grind [keeps_iff, foldl_keeps, foldl_keeps1, foldl_keeps2, foldl_keeps3, kat_keeps, seconds_keeps, setFlag_keeps, setFld_keeps, wake_keeps]

theorem execCalLoad_keeps (r : Requester) (v : Nat) (at_ : Nat) (s : State)  :
    ∀ s', (execCalLoad r v at_ s) = .next s' → Keeps s s' := by
  unfold execCalLoad
  grind [keeps_iff, newSecond_keeps, rowWrite_keeps, setCal_keeps, setFlag_keeps, setReg_keeps]

theorem execKeeperShutdown_keeps (r : Requester) (v : Nat) (at_ : Nat) (s : State)  :
    ∀ s', (execKeeperShutdown r v at_ s) = .next s' → Keeps s s' := by
  unfold execKeeperShutdown
  grind [keeps_iff, rowWrite_keeps, setReg_keeps, startShutdown_keeps]

theorem execPwrgdRise_keeps (s : State)  :
    ∀ s', (execPwrgdRise s) = .next s' → Keeps s s' := by
  unfold execPwrgdRise
  grind [keeps_iff, inReset_keeps]

theorem execPwrgdTimeout_keeps (s : State)  :
    ∀ s', (execPwrgdTimeout s) = .next s' → Keeps s s' := by
  unfold execPwrgdTimeout
  grind [keeps_iff, setFlag_keeps, startShutdown_keeps]

theorem execSupplyLoss_keeps (at_ : Nat) (s : State)  :
    ∀ s', (execSupplyLoss at_ s) = .next s' → Keeps s s' := by
  unfold execSupplyLoss
  grind [keeps_iff, kat_keeps, setFlag_keeps, startShutdown_keeps]

theorem execShutdownHoldoffEnd_keeps (ms : Nat) (s : State)  :
    ∀ s', (execShutdownHoldoffEnd ms s) = .next s' → Keeps s s' := by
  unfold execShutdownHoldoffEnd
  grind [keeps_iff, powerUp_keeps, setFlag_keeps]

theorem execVkeepLoss_keeps (s : State)  :
    ∀ s', (execVkeepLoss s) = .next s' → Keeps s s' := by
  unfold execVkeepLoss
  grind [keeps_iff]

theorem execVkeepApply_keeps (s : State)  :
    ∀ s', (execVkeepApply s) = .next s' → Keeps s s' := by
  unfold execVkeepApply
  grind [keeps_iff, foldl_keeps, foldl_keeps1, foldl_keeps2, foldl_keeps3, draw_keeps, powerUp_keeps, setReg_keeps, unpower_keeps]

theorem execThermalTrip_keeps (d : Nat) (tj : Nat) (at_ : Nat) (s : State)  :
    ∀ s', (execThermalTrip d tj at_ s) = .next s' → Keeps s s' := by
  unfold execThermalTrip
  grind [keeps_iff, kat_keeps, onDie_keeps, setFlag_keeps, startShutdown_keeps]

theorem execColdReset_keeps (dur : Nat) (s : State)  :
    ∀ s', (execColdReset dur s) = .next s' → Keeps s s' := by
  unfold execColdReset
  grind [keeps_iff, draw_keeps, released_keeps]

end Sys2Proof.Machine
end

