-- ==== Sys2Proof/Laws/Keeps/Pins.lean ====
section
/-! SUPPORT. Every operation of Machine/Pins.lean keeps the queue, the part and the canonical form of the cellar. -/

namespace Sys2Proof.Machine

set_option Elab.async false

theorem wdogWrite_keeps (s : State) (r : Requester) (at_ : Nat) (f : State → State)  (hf : ∀ t, Keeps t (f t)) :
    Keeps s (State.wdogWrite s r at_ f) := by
  unfold State.wdogWrite
  grind [keeps_iff, at_keeps, respond_keeps]

theorem wdogSet_keeps (s : State) (v : Nat)  :
    Keeps s (State.wdogSet s v) := by
  unfold State.wdogSet
  grind [keeps_iff, setFld_keeps]

theorem execWdogKick_keeps (r : Requester) (v : Nat) (at_ : Nat) (s : State)  :
    ∀ s', (execWdogKick r v at_ s) = .next s' → Keeps s s' := by
  unfold execWdogKick
  grind [keeps_iff, wdogSet_keeps, wdogWrite_keeps]

theorem execWdogTimeoutSet_keeps (r : Requester) (v : Nat) (at_ : Nat) (s : State)  :
    ∀ s', (execWdogTimeoutSet r v at_ s) = .next s' → Keeps s s' := by
  unfold execWdogTimeoutSet
  grind [keeps_iff, wdogSet_keeps, wdogWrite_keeps]

theorem execWatchdogExpiry_keeps (w : BootIn) (at_ : Nat) (s : State)  :
    ∀ s', (execWatchdogExpiry w at_ s) = .next s' → Keeps s s' := by
  unfold execWatchdogExpiry
  grind [keeps_iff, addFld_keeps, kat_keeps, logFault_keeps, setReg_keeps, startShutdown_keeps, warmRestart_keeps]

theorem execGpioOutWrite_keeps (r : Requester) (j : Nat) (v : Nat) (at_ : Nat) (s : State)  :
    ∀ s', (execGpioOutWrite r j v at_ s) = .next s' → Keeps s s' := by
  unfold execGpioOutWrite
  grind [keeps_iff, rowWrite_keeps, setReg_keeps, withPads_keeps]

theorem writeCfg_keeps (s : State) (n : Nat) (v : Nat)  :
    Keeps s (State.writeCfg s n v) := by
  unfold State.writeCfg
  grind [keeps_iff, newCfg_keeps, setReg_keeps, setSwitch_keeps, withPads_keeps]

theorem execGpioFunctionSwitch_keeps (r : Requester) (n : Nat) (v : Nat) (at_ : Nat) (s : State)  :
    ∀ s', (execGpioFunctionSwitch r n v at_ s) = .next s' → Keeps s s' := by
  unfold execGpioFunctionSwitch
  grind [keeps_iff, rowWrite_keeps, setFlag_keeps, writeCfg_keeps]

theorem execGpioEvent_keeps (n : Nat) (level : Bool) (at_ : Nat) (s : State)  :
    ∀ s', (execGpioEvent n level at_ s) = .next s' → Keeps s s' := by
  unfold execGpioEvent
  grind [keeps_iff, at_keeps, boardLevel_keeps]

theorem execGenlockEdge_keeps (at_ : Nat) (s : State)  :
    ∀ s', (execGenlockEdge at_ s) = .next s' → Keeps s s' := by
  unfold execGenlockEdge
  grind [keeps_iff, at_keeps, boardLevel_keeps]

theorem execAdcConversion_keeps (uv : Nat) (at_ : Nat) (s : State)  :
    ∀ s', (execAdcConversion uv at_ s) = .next s' → Keeps s s' := by
  unfold execAdcConversion
  grind [keeps_iff, addFld_keeps, at_keeps, setFld_keeps]

theorem execRefclkLoss_keeps (at_ : Nat) (s : State)  :
    ∀ s', (execRefclkLoss at_ s) = .next s' → Keeps s s' := by
  unfold execRefclkLoss
  grind [keeps_iff, foldl_keeps, foldl_keeps1, foldl_keeps2, foldl_keeps3, at_keeps, setFlag_keeps, withLevel_keeps]

theorem execRefclkRequalify_keeps (at_ : Nat) (s : State)  :
    ∀ s', (execRefclkRequalify at_ s) = .next s' → Keeps s s' := by
  unfold execRefclkRequalify
  grind [keeps_iff, at_keeps, drawInt_keeps, eachClkstat_keeps, setCorr_keeps, setFlag_keeps]

theorem execFanTachSecond_keeps (s : State)  :
    ∀ s', (execFanTachSecond s) = .next s' → Keeps s s' := by
  unfold execFanTachSecond
  grind [keeps_iff, foldl_keeps, foldl_keeps1, foldl_keeps2, foldl_keeps3, at_keeps, setReg_keeps]

end Sys2Proof.Machine
end

