-- ==== Sys2Proof/Laws/Keeps/HostCmd.lean ====
section
/-! SUPPORT. Every operation of Machine/HostCmd.lean keeps the queue, the part and the canonical form of the cellar. -/

namespace Sys2Proof.Machine

set_option Elab.async false

theorem cmdEcho_keeps (s : State) (c : Cmd)  :
    ResKeeps s (cmdEcho s c) := by
  unfold cmdEcho
  grind [keeps_iff, ResKeeps]

theorem execEcho_keeps (c : Cmd) (at_ : Nat) (s : State)  :
    ∀ s', (execEcho c at_ s) = .next s' → Keeps s s' := by
  unfold execEcho
  grind [keeps_iff, cmdEcho_keeps, host_keeps]

theorem cmdProfileQuery_keeps (s : State) (c : Cmd)  :
    ResKeeps s (cmdProfileQuery s c) := by
  unfold cmdProfileQuery
  grind [keeps_iff, ResKeeps]

theorem execProfileQuery_keeps (c : Cmd) (at_ : Nat) (s : State)  :
    ∀ s', (execProfileQuery c at_ s) = .next s' → Keeps s s' := by
  unfold execProfileQuery
  grind [keeps_iff, cmdProfileQuery_keeps, host_keeps]

theorem cmdProfileSelect_keeps (s : State) (c : Cmd)  :
    ResKeeps s (cmdProfileSelect s c) := by
  unfold cmdProfileSelect
  grind [keeps_iff, setFlag_keeps, setFld_keeps, ResKeeps]

theorem execProfileSelect_keeps (c : Cmd) (w : BootIn) (at_ : Nat) (s : State)  :
    ∀ s', (execProfileSelect c w at_ s) = .next s' → Keeps s s' := by
  unfold execProfileSelect
  grind [keeps_iff, at_keeps, cmdProfileSelect_keeps, host_keeps, warmRestart_keeps]

theorem jumpTime_keeps (s : State) (t : Nat)  :
    Keeps s (State.jumpTime s t) := by
  unfold State.jumpTime
  grind [keeps_iff, foldl_keeps, foldl_keeps1, foldl_keeps2, foldl_keeps3, htRelease_keeps, setCorr_keeps, timeUp_keeps, timerAt_keeps]

theorem setPtp_keeps (s : State) (l : List Nat) (cls : Nat)  :
    Keeps s (State.setPtp s l cls) := by
  unfold State.setPtp
  grind [keeps_iff, foldl_keeps, foldl_keeps1, foldl_keeps2, foldl_keeps3, setFld_keeps]

theorem cmdClockConfig_keeps (s : State) (c : Cmd)  :
    ResKeeps s (cmdClockConfig s c) := by
  unfold cmdClockConfig
  grind [keeps_iff, jumpTime_keeps, modBerth_keeps, onBerth_keeps, setPtp_keeps, ResKeeps]

theorem runClockConfig_keeps (s : State) (c : Cmd)  :
    ResKeeps s (runClockConfig s c) := by
  unfold runClockConfig
  grind [keeps_iff, atCommit_keeps, cmdClockConfig_keeps, ResKeeps]

theorem execClockConfig_keeps (c : Cmd) (at_ : Nat) (s : State)  :
    ∀ s', (execClockConfig c at_ s) = .next s' → Keeps s s' := by
  unfold execClockConfig
  grind [keeps_iff, host_keeps, runClockConfig_keeps]

theorem cmdFaultLogRead_keeps (s : State) (c : Cmd)  :
    ResKeeps s (cmdFaultLogRead s c) := by
  unfold cmdFaultLogRead
  grind [keeps_iff, ResKeeps]

theorem execFaultLogRead_keeps (c : Cmd) (at_ : Nat) (s : State)  :
    ∀ s', (execFaultLogRead c at_ s) = .next s' → Keeps s s' := by
  unfold execFaultLogRead
  grind [keeps_iff, cmdFaultLogRead_keeps, host_keeps]

theorem cmdBerthStatus_keeps (s : State) (c : Cmd)  :
    ResKeeps s (cmdBerthStatus s c) := by
  unfold cmdBerthStatus
  grind [keeps_iff, onBerth_keeps, ResKeeps]

theorem execBerthStatus_keeps (c : Cmd) (at_ : Nat) (s : State)  :
    ∀ s', (execBerthStatus c at_ s) = .next s' → Keeps s s' := by
  unfold execBerthStatus
  grind [keeps_iff, cmdBerthStatus_keeps, host_keeps]

end Sys2Proof.Machine
end

