-- ==== Sys2Proof/Laws/Keeps/BerthMake.lean ====
section
/-! SUPPORT. Every operation of Machine/BerthMake.lean keeps the queue, the part and the canonical form of the cellar. -/

namespace Sys2Proof.Machine

set_option Elab.async false

theorem zeroPage_keeps (s : State) (d : Nat) (p : Nat)  :
    Keeps s (State.zeroPage s d p) := by
  unfold State.zeroPage
  grind [keeps_iff, Memory.putWord_wf, Memory.putByte_wf, Memory.filter_wf]

theorem fenced_keeps (s : State) (d : Nat)  :
    Keeps s (State.fenced s d) := by
  unfold State.fenced
  grind [keeps_iff, setFlag_keeps]

theorem takePages_keeps (s : State) (d : Nat) (p : Nat) (n : Nat) (v : Nat)  :
    Keeps s (State.takePages s d p n v) := by
  unfold State.takePages
  grind [keeps_iff, foldl_keeps, foldl_keeps1, foldl_keeps2, foldl_keeps3, abandonSlice_keeps, fenced_keeps, setPage_keeps, zeroPage_keeps]

theorem create_keeps (s : State) (c : Cmd) (k : Nat)  :
    ResKeeps s (State.create s c k) := by
  unfold State.create
  dsimp only
  repeat' split
  all_goals grind [keeps_iff, draw_keeps, setBerth_keeps, setSlot_keeps, takePages_keeps, ResKeeps]

theorem cmdBerthCreate_keeps (s : State) (c : Cmd)  :
    ResKeeps s (cmdBerthCreate s c) := by
  unfold cmdBerthCreate
  grind [keeps_iff, create_keeps, ResKeeps]

theorem execBerthCreate_keeps (c : Cmd) (at_ : Nat) (s : State)  :
    ∀ s', (execBerthCreate c at_ s) = .next s' → Keeps s s' := by
  unfold execBerthCreate
  grind [keeps_iff, cmdBerthCreate_keeps, host_keeps]

theorem dropEntries_keeps (s : State) (b : Nat) (p : Nat → Bool)  :
    Keeps s (State.dropEntries s b p) := by
  unfold State.dropEntries
  grind [keeps_iff]

theorem freePages_keeps (s : State) (x : Berth)  :
    Keeps s (State.freePages s x) := by
  unfold State.freePages
  grind [keeps_iff, fenced_keeps, settleRetire_keeps]

theorem dropLine_keeps (s : State) (x : Berth)  :
    Keeps s (State.dropLine s x) := by
  unfold State.dropLine
  grind [keeps_iff, dropCur_keeps]

theorem destroy_keeps (s : State) (x : Berth)  :
    Keeps s (State.destroy s x) := by
  unfold State.destroy
  grind [keeps_iff, foldl_keeps, foldl_keeps1, foldl_keeps2, foldl_keeps3, dropEntries_keeps, dropLine_keeps, freePages_keeps, setFlag_keeps, slotToTest_keeps, withLevel_keeps]

theorem cmdBerthDestroy_keeps (s : State) (c : Cmd)  :
    ResKeeps s (cmdBerthDestroy s c) := by
  unfold cmdBerthDestroy
  grind [keeps_iff, destroy_keeps, onBerth_keeps, ResKeeps]

theorem execBerthDestroy_keeps (c : Cmd) (at_ : Nat) (s : State)  :
    ∀ s', (execBerthDestroy c at_ s) = .next s' → Keeps s s' := by
  unfold execBerthDestroy
  grind [keeps_iff, cmdBerthDestroy_keeps, host_keeps]

theorem cmdSegDefine_keeps (s : State) (c : Cmd)  :
    ResKeeps s (cmdSegDefine s c) := by
  unfold cmdSegDefine
  grind [keeps_iff, onBerth_keeps, setBerth_keeps, ResKeeps]

theorem execSegDefine_keeps (c : Cmd) (at_ : Nat) (s : State)  :
    ∀ s', (execSegDefine c at_ s) = .next s' → Keeps s s' := by
  unfold execSegDefine
  grind [keeps_iff, cmdSegDefine_keeps, host_keeps]

theorem cellarCmd_keeps (s : State) (c : Cmd) (x : Berth) (ok : Nat → Bool) (body : Nat → Res)  (hbody : ∀ y, ResKeeps s (body y)) :
    ResKeeps s (State.cellarCmd s c x ok body) := by
  unfold State.cellarCmd
  grind [keeps_iff, foldl_keeps, foldl_keeps1, foldl_keeps2, foldl_keeps3, startReturn_keeps, ResKeeps]

theorem asMaster_keeps (s : State) (d : Nat) (wa : Nat) (n : Nat) (k : Kind) (body : Res)  (hbody : ResKeeps s body) :
    ResKeeps s (State.asMaster s d wa n k body) := by
  unfold State.asMaster
  grind [keeps_iff, logViol_keeps, ResKeeps]

theorem cmdCellarWrite_keeps (s : State) (c : Cmd)  :
    ResKeeps s (cmdCellarWrite s c) := by
  unfold cmdCellarWrite
  grind [keeps_iff, asMaster_keeps, bankWriteRun_keeps, cellarCmd_keeps, onBerth_keeps, ResKeeps]

theorem runCellarWrite_keeps (s : State) (c : Cmd)  :
    ResKeeps s (runCellarWrite s c) := by
  unfold runCellarWrite
  grind [keeps_iff, atCommit_keeps, cmdCellarWrite_keeps, ResKeeps]

theorem execCellarWrite_keeps (c : Cmd) (at_ : Nat) (s : State)  :
    ∀ s', (execCellarWrite c at_ s) = .next s' → Keeps s s' := by
  unfold execCellarWrite
  grind [keeps_iff, host_keeps, runCellarWrite_keeps]

theorem cmdCellarRead_keeps (s : State) (c : Cmd) : ResKeeps s (cmdCellarRead s c) := by
  refine onBerth_keeps _ _ _ _ (fun x => cellarCmd_keeps _ _ _ _ _ (fun n => ?_))
  extract_lets r
  have h : Keeps s r.2 := foldl_keeps2 _ (fun t i => by grind [keeps_iff, bankRead_keeps]) (([], false), s) _
  exact asMaster_keeps _ _ _ _ _ _ ⟨fun v d t e => by injection e with _ _ e; exact e ▸ h, fun w t e => (by cases e), fun w t e => (by cases e)⟩

theorem execCellarRead_keeps (c : Cmd) (at_ : Nat) (s : State)  :
    ∀ s', (execCellarRead c at_ s) = .next s' → Keeps s s' := by
  unfold execCellarRead
  grind [keeps_iff, cmdCellarRead_keeps, host_keeps]

theorem cmdPageShare_keeps (s : State) (c : Cmd)  :
    ResKeeps s (cmdPageShare s c) := by
  unfold cmdPageShare
  dsimp only
  repeat' split
  all_goals grind [keeps_iff, foldl_keeps, foldl_keeps1, foldl_keeps2, foldl_keeps3, onBerth_keeps, setPage_keeps, ResKeeps]

theorem runPageShare_keeps (s : State) (c : Cmd)  :
    ResKeeps s (runPageShare s c) := by
  unfold runPageShare
  grind [keeps_iff, foldl_keeps, foldl_keeps1, foldl_keeps2, foldl_keeps3, atCommit_keeps, cmdPageShare_keeps, startReturn_keeps, ResKeeps]

theorem execPageShare_keeps (c : Cmd) (at_ : Nat) (s : State)  :
    ∀ s', (execPageShare c at_ s) = .next s' → Keeps s s' := by
  unfold execPageShare
  grind [keeps_iff, host_keeps, runPageShare_keeps]

end Sys2Proof.Machine
end

