-- ==== Sys2Proof/Laws/Keeps/BerthRun.lean ====
section
/-! SUPPORT. Every operation of Machine/BerthRun.lean keeps the queue, the part and the canonical form of the cellar. -/

namespace Sys2Proof.Machine

set_option Elab.async false

theorem startBerth_keeps (s : State) (x : Berth)  :
    Keeps s (State.startBerth s x) := by
  unfold State.startBerth
  grind [keeps_iff, dropLine_keeps, parkHere_keeps, setBerth_keeps, voidHeader_keeps, writeHeader_keeps]

theorem cmdBerthStart_keeps (s : State) (c : Cmd)  :
    ResKeeps s (cmdBerthStart s c) := by
  unfold cmdBerthStart
  grind [keeps_iff, onBerth_keeps, startBerth_keeps, ResKeeps]

theorem runBerthStart_keeps (s : State) (c : Cmd)  :
    ResKeeps s (runBerthStart s c) := by
  unfold runBerthStart
  grind [keeps_iff, foldl_keeps, foldl_keeps1, foldl_keeps2, foldl_keeps3, atCommit_keeps, cmdBerthStart_keeps, startReturn_keeps, ResKeeps]

theorem execBerthStart_keeps (c : Cmd) (at_ : Nat) (s : State)  :
    ∀ s', (execBerthStart c at_ s) = .next s' → Keeps s s' := by
  unfold execBerthStart
  grind [keeps_iff, host_keeps, runBerthStart_keeps]

theorem runBerthPause_keeps (s : State) (c : Cmd)  :
    ResKeeps s (runBerthPause s c) := by
  unfold runBerthPause
  grind [keeps_iff, onBerth_keeps, setBerth_keeps, ResKeeps]

theorem execBerthPause_keeps (c : Cmd) (at_ : Nat) (s : State)  :
    ∀ s', (execBerthPause c at_ s) = .next s' → Keeps s s' := by
  unfold execBerthPause
  grind [keeps_iff, host_keeps, runBerthPause_keeps]

theorem runBerthResume_keeps (s : State) (c : Cmd)  :
    ResKeeps s (runBerthResume s c) := by
  unfold runBerthResume
  grind [keeps_iff, onBerth_keeps, setBerth_keeps, ResKeeps]

theorem execBerthResume_keeps (c : Cmd) (at_ : Nat) (s : State)  :
    ∀ s', (execBerthResume c at_ s) = .next s' → Keeps s s' := by
  unfold execBerthResume
  grind [keeps_iff, host_keeps, runBerthResume_keeps]

theorem placeParked_keeps (s : State) (x : Berth) (k : Nat) (n : Nat)  :
    Keeps s (State.placeParked s x k n) := by
  unfold State.placeParked
  grind [keeps_iff, place_keeps]

theorem runBerthMigrate_keeps (s : State) (c : Cmd)  :
    ResKeeps s (runBerthMigrate s c) := by
  unfold runBerthMigrate
  grind (splits := 40) [keeps_iff, onBerth_keeps, placeParked_keeps, setBerth_keeps, ResKeeps]

theorem execBerthMigrate_keeps (c : Cmd) (at_ : Nat) (s : State)  :
    ∀ s', (execBerthMigrate c at_ s) = .next s' → Keeps s s' := by
  unfold execBerthMigrate
  grind [keeps_iff, host_keeps, runBerthMigrate_keeps]

theorem land_keeps (s : State) (f : Flying) (result : Nat)  :
    Keeps s (State.land s f result) := by
  unfold State.land
  grind [keeps_iff, answer_keeps]

theorem landErr_keeps (s : State) (f : Flying) (e : Nat)  :
    Keeps s (State.landErr s f e) := by
  unfold State.landErr
  grind [keeps_iff, answer_keeps]

theorem aligned_keeps (s : State) (b : Nat)  :
    Keeps s (State.aligned s b) := by
  unfold State.aligned
  grind [keeps_iff, at_keeps, land_keeps, setBerth_keeps]

end Sys2Proof.Machine
end

