-- ==== Sys2Proof/Laws/Keeps/StreamCmd.lean ====
section
/-! SUPPORT. Every operation of Machine/StreamCmd.lean keeps the queue, the part and the canonical form of the cellar. -/

namespace Sys2Proof.Machine

set_option Elab.async false

theorem secondBuffer_keeps (s : State) (x : Berth) (free : Bool)  :
    ∀ s', (State.secondBuffer s x free) = .inr s' → Keeps s s' := by
  unfold State.secondBuffer
  grind [keeps_iff, setBerth_keeps, setReg_keeps, takePages_keeps]

theorem bindEntries_keeps (s : State) (c : Cmd) (q sb : Nat) :
    ∀ r, State.bindEntries s c q sb = some r → Keeps s r.2 := by
  unfold State.bindEntries
  grind [keeps_iff, setEntry_keeps]

theorem cmdStreamBind_keeps (s : State) (c : Cmd) : ResKeeps s (cmdStreamBind s c) := by
  refine onBerth_keeps _ _ _ _ (fun x => ?_)
  have err : ∀ n, ResKeeps s (.err n) := fun n => ⟨by intros; contradiction, by intros; contradiction, by intros; contradiction⟩
  iterate 2 refine iteInduction (fun _ => err _) (fun _ => ?_)
  refine iteInduction (fun _ => ⟨by intros; contradiction, fun _ _ h => by (injection h with _ h; exact h ▸ .refl s), by intros; contradiction⟩) (fun _ => ?_)
  iterate 3 refine iteInduction (fun _ => err _) (fun _ => ?_)
  split
  · exact err _
  · rename_i s1 h1
    split
    · exact err _
    · rename_i r h2
      have h3 := (secondBuffer_keeps _ _ _ _ h1).trans ((dropEntries_keeps s1 c.berth _).trans (bindEntries_keeps _ _ _ _ _ h2))
      clear h1 h2
      refine ⟨fun _ _ t h => ?_, by intros; contradiction, by intros; contradiction⟩
      injection h with _ _ h
      subst h
      exact h3.trans (modBerth_keeps ..)

theorem streamCmd_keeps (s : State) (c : Cmd) (r : Res)  (hr : ResKeeps s r) :
    ResKeeps s (State.streamCmd s c r) := by
  unfold State.streamCmd
  grind [keeps_iff, atCommit_keeps, ResKeeps]

theorem runStreamBind_keeps (s : State) (c : Cmd)  :
    ResKeeps s (runStreamBind s c) := by
  unfold runStreamBind
  grind [keeps_iff, cmdStreamBind_keeps, streamCmd_keeps, ResKeeps]

theorem execStreamBind_keeps (c : Cmd) (at_ : Nat) (s : State)  :
    ∀ s', (execStreamBind c at_ s) = .next s' → Keeps s s' := by
  unfold execStreamBind
  grind [keeps_iff, host_keeps, runStreamBind_keeps]

theorem cmdStreamUnbind_keeps (s : State) (c : Cmd)  :
    ResKeeps s (cmdStreamUnbind s c) := by
  unfold cmdStreamUnbind
  grind [keeps_iff, dropEntries_keeps, failover_keeps, onBerth_keeps, setBerth_keeps, setReg_keeps, ResKeeps]

theorem runStreamUnbind_keeps (s : State) (c : Cmd)  :
    ResKeeps s (runStreamUnbind s c) := by
  unfold runStreamUnbind
  grind [keeps_iff, cmdStreamUnbind_keeps, streamCmd_keeps, ResKeeps]

theorem execStreamUnbind_keeps (c : Cmd) (at_ : Nat) (s : State)  :
    ∀ s', (execStreamUnbind c at_ s) = .next s' → Keeps s s' := by
  unfold execStreamUnbind
  grind [keeps_iff, host_keeps, runStreamUnbind_keeps]

theorem cmdInputBind_keeps (s : State) (c : Cmd)  :
    ResKeeps s (cmdInputBind s c) := by
  unfold cmdInputBind
  dsimp only
  repeat' split
  all_goals grind [keeps_iff, modQuay_keeps, onBerth_keeps, setBerth_keeps, setEntry_keeps, ResKeeps]

theorem runInputBind_keeps (s : State) (c : Cmd)  :
    ResKeeps s (runInputBind s c) := by
  unfold runInputBind
  grind [keeps_iff, atCommit_keeps, cmdInputBind_keeps, ResKeeps]

theorem execInputBind_keeps (c : Cmd) (at_ : Nat) (s : State)  :
    ∀ s', (execInputBind c at_ s) = .next s' → Keeps s s' := by
  unfold execInputBind
  grind [keeps_iff, host_keeps, runInputBind_keeps]

theorem quayRegs_keeps (s : State) (c : Cmd)  :
    Keeps s (State.quayRegs s c) := by
  unfold State.quayRegs
  grind [keeps_iff, foldl_keeps, foldl_keeps1, foldl_keeps2, foldl_keeps3, setReg_keeps]

theorem cmdQuayConfig_keeps (s : State) (c : Cmd)  :
    ResKeeps s (cmdQuayConfig s c) := by
  unfold cmdQuayConfig
  grind [keeps_iff, abandonSlice_keeps, failover_keeps, loseLock_keeps, modQuay_keeps, quayRegs_keeps, setFlag_keeps, setLink_keeps, startReturn_keeps, ResKeeps]

theorem execQuayConfig_keeps (c : Cmd) (at_ : Nat) (s : State)  :
    ∀ s', (execQuayConfig c at_ s) = .next s' → Keeps s s' := by
  unfold execQuayConfig
  grind [keeps_iff, cmdQuayConfig_keeps, host_keeps]

theorem cmdQuayInject_keeps (s : State) (c : Cmd)  :
    ResKeeps s (cmdQuayInject s c) := by
  unfold cmdQuayInject
  grind [keeps_iff, modQuay_keeps, setFlag_keeps, setReg_keeps, ResKeeps]

theorem execQuayInject_keeps (c : Cmd) (at_ : Nat) (s : State)  :
    ∀ s', (execQuayInject c at_ s) = .next s' → Keeps s s' := by
  unfold execQuayInject
  grind [keeps_iff, cmdQuayInject_keeps, host_keeps]

theorem cmdMacsecKey_keeps (s : State) (c : Cmd)  :
    ResKeeps s (cmdMacsecKey s c) := by
  unfold cmdMacsecKey
  grind [keeps_iff, modQuay_keeps, setFlag_keeps, ResKeeps]

theorem execMacsecKey_keeps (c : Cmd) (at_ : Nat) (s : State)  :
    ∀ s', (execMacsecKey c at_ s) = .next s' → Keeps s s' := by
  unfold execMacsecKey
  grind [keeps_iff, cmdMacsecKey_keeps, host_keeps]

end Sys2Proof.Machine
end

