-- ==== Sys2Proof/Laws/Keeps/Mctp.lean ====
section
/-! SUPPORT. Every operation of Machine/Mctp.lean keeps the queue, the part and the canonical form of the cellar. -/

namespace Sys2Proof.Machine

set_option Elab.async false

theorem sendMctp_keeps (s : State) (t : Nat) (l : List Byte)  :
    Keeps s (State.sendMctp s t l) := by
  unfold State.sendMctp
  grind [keeps_iff]

theorem onMctp_keeps (s : State) (t : Nat) (at_ : Nat) (f : State → State)  (hf : ∀ t, Keeps t (f t)) :
    ∀ s', (State.onMctp s t at_ f) = .next s' → Keeps s s' := by
  unfold State.onMctp
  grind [keeps_iff, at_keeps, hicSet_keeps]

theorem mctpBody_keeps (op : Nat) (f : State → Cmd → Res) (h : mctpBody op = some f) (s : State) (c : Cmd) : ResKeeps s (f s c) := by
  unfold mctpBody at h
  split at h
  case h_9 => contradiction
  all_goals obtain rfl := Option.some.inj h
  · exact cmdEcho_keeps ..
  · exact cmdProfileQuery_keeps ..
  · exact cmdBerthStatus_keeps ..
  · exact cmdMeasureRead_keeps ..
  · exact cmdFaultLogRead_keeps ..
  · exact cmdSelftestReport_keeps ..
  · exact cmdPowerSet_keeps ..
  · exact runThermalPolicy_keeps ..

theorem execMctpCommand_keeps (t : Nat) (c : Cmd) (at_ : Nat) (s : State) :
    ∀ s', execMctpCommand t c at_ s = .next s' → Keeps s s' := by
  refine onMctp_keeps _ _ _ _ (fun u => ?_)
  extract_lets z op
  refine iteInduction (fun _ => .refl u) (fun _ => ?_)
  split
  · exact answer_keeps ..
  · rename_i f hf
    exact iteInduction (fun _ => makeWait_keeps ..) (fun _ => begin_keeps _ _ _ _ (fun _ _ => mctpBody_keeps _ _ hf _ _))

theorem execMctpStatus_keeps (v : Via) (s : State) :
    ∀ s', (execMctpStatus v s) = .next s' → Keeps s s' := by
  unfold execMctpStatus
  grind [keeps_iff, onMctp_keeps, sendMctp_keeps]

theorem execSetEndpointId_keeps (t : Nat) (eid : Nat) (at_ : Nat) (s : State)  :
    ∀ s', (execSetEndpointId t eid at_ s) = .next s' → Keeps s s' := by
  unfold execSetEndpointId
  grind [keeps_iff, onMctp_keeps, sendMctp_keeps]

theorem execGetEndpointId_keeps (t : Nat) (at_ : Nat) (s : State)  :
    ∀ s', (execGetEndpointId t at_ s) = .next s' → Keeps s s' := by
  unfold execGetEndpointId
  grind [keeps_iff, onMctp_keeps, sendMctp_keeps]

theorem execGetMctpVersionSupport_keeps (v : Via) (s : State) :
    ∀ s', (execGetMctpVersionSupport v s) = .next s' → Keeps s s' := by
  unfold execGetMctpVersionSupport
  grind [keeps_iff, draw_keeps, onMctp_keeps, sendMctp_keeps]

theorem execGetMessageTypeSupport_keeps (v : Via) (s : State) :
    ∀ s', (execGetMessageTypeSupport v s) = .next s' → Keeps s s' := by
  unfold execGetMessageTypeSupport
  grind [keeps_iff, onMctp_keeps, sendMctp_keeps]

theorem onSpdm_keeps (s : State) (t : Nat) (at_ : Nat) (f : State → List Byte × State)  (hf : ∀ t, Keeps t (f t).2) :
    ∀ s', (State.onSpdm s t at_ f) = .next s' → Keeps s s' := by
  unfold State.onSpdm
  grind [keeps_iff, onMctp_keeps, sendMctp_keeps]

theorem execGetVersion_keeps (v : Via) (s : State) :
    ∀ s', (execGetVersion v s) = .next s' → Keeps s s' := by
  unfold execGetVersion
  grind [keeps_iff, onSpdm_keeps]

theorem execGetCapabilities_keeps (v : Via) (req : List Byte) (s : State) :
    ∀ s', (execGetCapabilities v req s) = .next s' → Keeps s s' := by
  unfold execGetCapabilities
  grind [keeps_iff, onSpdm_keeps]

theorem execNegotiateAlgorithms_keeps (v : Via) (req : List Byte) (s : State) :
    ∀ s', (execNegotiateAlgorithms v req s) = .next s' → Keeps s s' := by
  unfold execNegotiateAlgorithms
  grind [keeps_iff, onSpdm_keeps]

theorem execGetDigests_keeps (v : Via) (s : State) :
    ∀ s', (execGetDigests v s) = .next s' → Keeps s s' := by
  unfold execGetDigests
  grind [keeps_iff, onSpdm_keeps]

theorem execGetCertificate_keeps (v : Via) (slot off len : Nat) (s : State) :
    ∀ s', (execGetCertificate v slot off len s) = .next s' → Keeps s s' := by
  unfold execGetCertificate
  grind [keeps_iff, onSpdm_keeps]

theorem execChallenge_keeps (v : Via) (req : List Byte) (s : State) :
    ∀ s', (execChallenge v req s) = .next s' → Keeps s s' := by
  unfold execChallenge
  grind [keeps_iff, onSpdm_keeps]

theorem execGetMeasurements_keeps (v : Via) (signed : Bool) (idx : Nat) (req : List Byte) (s : State) :
    ∀ s', (execGetMeasurements v signed idx req s) = .next s' → Keeps s s' := by
  unfold execGetMeasurements
  grind [keeps_iff, onSpdm_keeps]

theorem execKeyExchange_keeps (v : Via) (half : Nat) (req : List Byte) (s : State) :
    ∀ s', (execKeyExchange v half req s) = .next s' → Keeps s s' := by
  unfold execKeyExchange
  grind [keeps_iff, draw_keeps, onSpdm_keeps]

theorem execFinish_keeps (v : Via) (id : Nat) (req : List Byte) (s : State) :
    ∀ s', (execFinish v id req s) = .next s' → Keeps s s' := by
  unfold execFinish
  grind [keeps_iff, onSpdm_keeps]

theorem execEndSession_keeps (v : Via) (id : Nat) (s : State) :
    ∀ s', (execEndSession v id s) = .next s' → Keeps s s' := by
  unfold execEndSession
  grind [keeps_iff, onSpdm_keeps]

end Sys2Proof.Machine
end

