-- ==== Sys2Proof/Laws/Keeps/Starts.lean ====
section
/-! SUPPORT. Every operation of Machine/Starts.lean keeps the queue, the part and the canonical form of the cellar. -/

namespace Sys2Proof.Machine

set_option Elab.async false

theorem bodyOf_keeps (op : Nat) (s : State) (c : Cmd) : ResKeeps s (bodyOf op s c) := by
  unfold bodyOf
  split
  · exact cmdEcho_keeps ..
  · exact cmdProfileQuery_keeps ..
  · exact cmdProfileSelect_keeps ..
  · exact runClockConfig_keeps ..
  · exact cmdFaultLogRead_keeps ..
  · exact cmdMeasureRead_keeps ..
  · exact cmdMcReload_keeps ..
  · exact cmdBerthCreate_keeps ..
  · exact cmdBerthDestroy_keeps ..
  · exact cmdSegDefine_keeps ..
  · exact runCellarWrite_keeps ..
  · exact cmdCellarRead_keeps ..
  · exact runPageShare_keeps ..
  · exact runBerthStart_keeps ..
  · exact runBerthPause_keeps ..
  · exact runBerthResume_keeps ..
  · exact runBerthMigrate_keeps ..
  · exact cmdBerthStatus_keeps ..
  · exact runStreamBind_keeps ..
  · exact runStreamUnbind_keeps ..
  · exact runInputBind_keeps ..
  · exact cmdQuayConfig_keeps ..
  · exact cmdQuayInject_keeps ..
  · exact cmdMacsecKey_keeps ..
  · exact cmdPowerSet_keeps ..
  · exact runThermalPolicy_keeps ..
  · exact cmdSelftestPolicy_keeps ..
  · exact cmdSelftestReport_keeps ..
  · exact ⟨by intros; contradiction, by intros; contradiction, by intros; contradiction⟩

theorem tryStart_keeps (s : State) (f : Flying)  :
    Keeps s (State.tryStart s f) := by
  unfold State.tryStart
  grind [keeps_iff, begin_keeps, bodyOf_keeps]

theorem startWaiting_keeps (s : State)  :
    Keeps s (State.startWaiting s) := by
  unfold State.startWaiting
  grind [keeps_iff, foldl_keeps, foldl_keeps1, foldl_keeps2, foldl_keeps3, tryStart_keeps]

theorem execPcieFlr_keeps (e : Nat) (at_ : Nat) (s : State)  :
    ∀ s', (execPcieFlr e at_ s) = .next s' → Keeps s s' := by
  unfold execPcieFlr
  grind [keeps_iff, at_keeps, flr_keeps, onEp_keeps, startWaiting_keeps]

theorem execPcieD3hotExit_keeps (e : Nat) (at_ : Nat) (s : State)  :
    ∀ s', (execPcieD3hotExit e at_ s) = .next s' → Keeps s s' := by
  unfold execPcieD3hotExit
  grind [keeps_iff, at_keeps, flr_keeps, modEp_keeps, onEp_keeps, startWaiting_keeps]

theorem execPerstAssert_keeps (e : Nat) (dur : Nat) (at_ : Nat) (s : State)  :
    ∀ s', (execPerstAssert e dur at_ s) = .next s' → Keeps s s' := by
  unfold execPerstAssert
  grind [keeps_iff, at_keeps, onEp_keeps, perstLow_keeps, startWaiting_keeps]

theorem execGovernorAlign_keeps (b : Nat) (s : State)  :
    ∀ s', (execGovernorAlign b s) = .next s' → Keeps s s' := by
  unfold execGovernorAlign
  grind [keeps_iff, aligned_keeps, startWaiting_keeps]

theorem execSparePipeTakeover_keeps (d : Nat) (k : Nat) (at_ : Nat) (s : State)  :
    ∀ s', (execSparePipeTakeover d k at_ s) = .next s' → Keeps s s' := by
  unfold execSparePipeTakeover
  grind [keeps_iff, at_keeps, onDock_keeps, startWaiting_keeps, takeOver_keeps]

theorem execVoterDisagree_keeps (d : Nat) (hm : Bool) (m : Nat) (at_ : Nat) (s : State)  :
    ∀ s', (execVoterDisagree d hm m at_ s) = .next s' → Keeps s s' := by
  unfold execVoterDisagree
  grind [keeps_iff, at_keeps, onDie_keeps, outvote_keeps, startWaiting_keeps]

theorem execDomainEntry_keeps (d : Nat) (ap1 : Nat) (at_ : Nat) (s : State)  :
    ∀ s', (execDomainEntry d ap1 at_ s) = .next s' → Keeps s s' := by
  unfold execDomainEntry
  grind [keeps_iff, at_keeps, enterDomain_keeps, onDie_keeps, startWaiting_keeps]

theorem execDomainEntryAbandon_keeps (d : Nat) (src : Nat) (at_ : Nat) (s : State)  :
    ∀ s', (execDomainEntryAbandon d src at_ s) = .next s' → Keeps s s' := by
  unfold execDomainEntryAbandon
  grind [keeps_iff, at_keeps, onDie_keeps, startWaiting_keeps, wakeEntry_keeps]

end Sys2Proof.Machine
end

