-- ==== Sys2Proof/Laws/Keeps/Commit.lean ====
section
/-! SUPPORT. Every operation of Machine/Commit.lean keeps the queue, the part and the canonical form of the cellar. -/

namespace Sys2Proof.Machine

set_option Elab.async false

theorem commitBody_keeps (op : Nat) (s : State) (c : Cmd) : ResKeeps s (commitBody op s c) := by
  unfold commitBody
  split
  all_goals grind [keeps_iff, ResKeeps, cmdClockConfig_keeps, cmdThermalPolicy_keeps, cmdCellarWrite_keeps, cmdPageShare_keeps, cmdBerthStart_keeps, cmdStreamBind_keeps, cmdStreamUnbind_keeps, cmdInputBind_keeps]

theorem rerunBody_keeps (op : Nat) (s : State) (c : Cmd) : ResKeeps s (rerunBody op s c) := by
  unfold rerunBody
  split
  all_goals grind [keeps_iff, ResKeeps, runCellarWrite_keeps, cmdCellarRead_keeps, runPageShare_keeps, runBerthStart_keeps, cmdQuayConfig_keeps, runStreamBind_keeps, runStreamUnbind_keeps, runInputBind_keeps, runClockConfig_keeps, runThermalPolicy_keeps, cmdClockConfig_keeps, cmdThermalPolicy_keeps]

theorem finish_keeps (s : State) (f : Flying) (r : State → Cmd → Res)  (hr : ∀ t c, ResKeeps t (r t c)) :
    Keeps s (State.finish s f r) := by
  unfold State.finish
  grind [keeps_iff, conclude2_keeps, ResKeeps]

theorem carryOut_keeps (s : State) (b : Nat)  :
    Keeps s (State.carryOut s b) := by
  unfold State.carryOut
  grind [keeps_iff, land_keeps, setBerth_keeps]

theorem atOnce_keeps (s : State) (b : Nat)  :
    Keeps s (State.atOnce s b) := by
  unfold State.atOnce
  grind [keeps_iff, foldl_keeps, foldl_keeps1, foldl_keeps2, foldl_keeps3, commitBody_keeps, finish_keeps, land_keeps, modBerth_keeps, setBerth_keeps]

theorem afterCommit_keeps (s : State) (b : Nat) (n : Nat)  :
    Keeps s (State.afterCommit s b n) := by
  unfold State.afterCommit
  grind [keeps_iff, foldl_keeps, foldl_keeps1, foldl_keeps2, foldl_keeps3, atOnce_keeps, carryOut_keeps, commitBody_keeps, finish_keeps, settle_keeps]

theorem commitOldest_keeps (s : State) (b : Nat)  :
    Keeps s (State.commitOldest s b) := by
  unfold State.commitOldest
  dsimp only
  repeat' split
  all_goals grind [keeps_iff, afterCommit_keeps, commitHeader_keeps, releaseOutputs_keeps, waitStore_keeps]

theorem execWatchCommit_keeps (b : Nat) (at_ : Nat) (s : State)  :
    ∀ s', (execWatchCommit b at_ s) = .next s' → Keeps s s' := by
  unfold execWatchCommit
  grind [keeps_iff, atOnce_keeps, at_keeps, commitOldest_keeps, startWaiting_keeps]

theorem execStampStoreAdmit_keeps (d : Nat) (k : Nat) (at_ : Nat) (s : State)  :
    ∀ s', (execStampStoreAdmit d k at_ s) = .next s' → Keeps s s' := by
  unfold execStampStoreAdmit
  grind [keeps_iff, foldl_keeps, foldl_keeps1, foldl_keeps2, foldl_keeps3, afterCommit_keeps, at_keeps, joinOrder_keeps, onDock_keeps, releaseOutputs_keeps, startWaiting_keeps]

theorem commitFirst_keeps (s : State) (b : Nat) (z0 : Nat) :
    Keeps s (State.commitFirst s b z0) := by
  induction z0 generalizing s b with
  | zero => grind [State.commitFirst, keeps_iff, commitOldest_keeps]
  | succ n ih => grind [State.commitFirst, keeps_iff, commitOldest_keeps]

theorem recoverInto_keeps (s : State) (b : Nat) (k : Nat) (n : Nat) (fr : Nat)  :
    Keeps s (State.recoverInto s b k n fr) := by
  unfold State.recoverInto
  grind [keeps_iff, hurtSlot_keeps, land_keeps, logFault_keeps, place_keeps, postMoved_keeps, settle_keeps]

theorem execLockstepMismatch_keeps (b : Nat) (back : Nat) (fails : Nat) (fr : Nat) (at_ : Nat) (s : State)  :
    ∀ s', (execLockstepMismatch b back fails fr at_ s) = .next s' → Keeps s s' := by
  unfold execLockstepMismatch
  dsimp only
  repeat' split
  all_goals grind [keeps_iff, at_keeps, commitFirst_keeps, hicSet_keeps, parkHere_keeps, parkNoSpare_keeps, pickAfter_keeps, recoverInto_keeps, rollback_keeps, setBerth_keeps, startWaiting_keeps]

theorem dropMove_keeps (s : State) (x : Berth) (e : Nat)  :
    Keeps s (State.dropMove s x e) := by
  unfold State.dropMove
  grind [keeps_iff, landErr_keeps, setBerth_keeps]

theorem moved_keeps (s : State) (x : Berth) (y : Berth) (k : Nat) (n : Nat) (fr : Nat)  :
    Keeps s (State.moved s x y k n fr) := by
  unfold State.moved
  grind [keeps_iff, land_keeps, place_keeps, postMoved_keeps, settle_keeps, slotToTest_keeps]

theorem placeWaiter_keeps (s : State) (b : Nat)  :
    Keeps s (State.placeWaiter s b) := by
  unfold State.placeWaiter
  grind [keeps_iff, finish_keeps, runBerthMigrate_keeps]

theorem execFaultFreeRelocation_keeps (b : Nat) (fr : Nat) (at_ : Nat) (s : State)  :
    ∀ s', (execFaultFreeRelocation b fr at_ s) = .next s' → Keeps s s' := by
  unfold execFaultFreeRelocation
  grind [keeps_iff, at_keeps, dropMove_keeps, moved_keeps, placeWaiter_keeps, startWaiting_keeps]

theorem execCrossDockMigration_keeps (b : Nat) (fr : Nat) (at_ : Nat) (s : State)  :
    ∀ s', (execCrossDockMigration b fr at_ s) = .next s' → Keeps s s' := by
  unfold execCrossDockMigration
  grind [keeps_iff, at_keeps, dropMove_keeps, moved_keeps, placeWaiter_keeps, startWaiting_keeps]

theorem execBerthStartTime_keeps (b : Nat) (s : State)  :
    ∀ s', (execBerthStartTime b s) = .next s' → Keeps s s' := by
  unfold execBerthStartTime
  grind [keeps_iff, at_keeps, finish_keeps, runBerthStart_keeps, startWaiting_keeps]

theorem afterFailover_keeps (s : State)  :
    Keeps s (State.afterFailover s) := by
  unfold State.afterFailover
  grind [keeps_iff, foldl_keeps, foldl_keeps1, foldl_keeps2, foldl_keeps3, failover_keeps, finish_keeps, rerunBody_keeps]

theorem execQuayFailover_keeps (q : Nat) (at_ : Nat) (s : State)  :
    ∀ s', (execQuayFailover q at_ s) = .next s' → Keeps s s' := by
  unfold execQuayFailover
  grind [keeps_iff, afterFailover_keeps, at_keeps, failover_keeps, onQuay_keeps, startWaiting_keeps]

theorem execDomainReturnDone_keeps (d : Nat) (code : Nat) (at_ : Nat) (s : State)  :
    ∀ s', (execDomainReturnDone d code at_ s) = .next s' → Keeps s s' := by
  unfold execDomainReturnDone
  grind [keeps_iff, foldl_keeps, foldl_keeps1, foldl_keeps2, foldl_keeps3, at_keeps, donePower_keeps, finish_keeps, onDie_keeps, rerunBody_keeps, returned_keeps, startWaiting_keeps]

end Sys2Proof.Machine
end

