-- ==== Sys2Proof/Laws/PerInstr.lean ====
section
/-! SUPPORT. A family of statements over every command of the table: the words of an instruction, where it has any, are a first word and
at most two extension words (Table 5-1). -/

namespace Sys2Proof.Laws.EncodedLength

set_option Elab.async false

/-- Where the command is an instruction of the B16 core, it is one to three words long. -/
def Statement (i : Instr) : Prop :=
  ∀ ws : List Word, encode i = some ws → 1 ≤ ws.length ∧ ws.length ≤ 3

/-- A load or store is one or two words long. -/
theorem encMem_length (l : Nat) (r : Reg) (m : MemForm) : 1 ≤ (encMem l r m).length ∧ (encMem l r m).length ≤ 3 := by
  cases m <;> simp [encMem]

/-- A port instruction is one or two words long. -/
theorem encPort_length (op : Nat) (r : Reg) (p : PortOp) : 1 ≤ (encPort op r p).length ∧ (encPort op r p).length ≤ 3 := by
  cases p <;> simp [encPort]

/-- A beam wait is one or two words long. -/
theorem encWait_length (op : Nat) (o : WaitOp) : 1 ≤ (encWait op o).length ∧ (encWait op o).length ≤ 3 := by
  cases o <;> simp [encWait]

theorem nop (x0 : Nat) : Statement (.nop x0) := by
  intro ws h; cases h; simp

theorem wait (x0 : Nat) : Statement (.wait x0) := by
  intro ws h; cases h; simp

theorem waitEnd (x0 x1 : Nat) : Statement (.waitEnd x0 x1) := fun _ h => nomatch h

theorem halt (x0 : Nat) : Statement (.halt x0) := by
  intro ws h; cases h; simp

theorem ei (x0 : Nat) : Statement (.ei x0) := by
  intro ws h; cases h; simp

theorem di (x0 : Nat) : Statement (.di x0) := by
  intro ws h; cases h; simp

theorem reti (x0 : Nat) : Statement (.reti x0) := by
  intro ws h; cases h; simp

theorem trap (x0 : Nat) (x1 : BitVec 4) : Statement (.trap x0 x1) := by
  intro ws h; cases h; simp

theorem ldseg (x0 : Nat) (x1 : SegReg) (x2 : SegSrc) : Statement (.ldseg x0 x1 x2) := by
  intro ws h; cases x2 <;> (cases h; simp [encSeg])

theorem rdfl (x0 : Nat) (x1 : Reg) : Statement (.rdfl x0 x1) := by
  intro ws h; cases h; simp

theorem wrfl (x0 : Nat) (x1 : Reg) : Statement (.wrfl x0 x1) := by
  intro ws h; cases h; simp

theorem mov (x0 : Nat) (x1 x2 : Reg) : Statement (.mov x0 x1 x2) := by
  intro ws h; cases h; simp [encAlu]

theorem add (x0 : Nat) (x1 x2 : Reg) : Statement (.add x0 x1 x2) := by
  intro ws h; cases h; simp [encAlu]

theorem adc (x0 : Nat) (x1 x2 : Reg) : Statement (.adc x0 x1 x2) := by
  intro ws h; cases h; simp [encAlu]

theorem sub (x0 : Nat) (x1 x2 : Reg) : Statement (.sub x0 x1 x2) := by
  intro ws h; cases h; simp [encAlu]

theorem sbc (x0 : Nat) (x1 x2 : Reg) : Statement (.sbc x0 x1 x2) := by
  intro ws h; cases h; simp [encAlu]

theorem cmp (x0 : Nat) (x1 x2 : Reg) : Statement (.cmp x0 x1 x2) := by
  intro ws h; cases h; simp [encAlu]

theorem and (x0 : Nat) (x1 x2 : Reg) : Statement (.and x0 x1 x2) := by
  intro ws h; cases h; simp [encAlu]

theorem or (x0 : Nat) (x1 x2 : Reg) : Statement (.or x0 x1 x2) := by
  intro ws h; cases h; simp [encAlu]

theorem xor (x0 : Nat) (x1 x2 : Reg) : Statement (.xor x0 x1 x2) := by
  intro ws h; cases h; simp [encAlu]

theorem tst (x0 : Nat) (x1 x2 : Reg) : Statement (.tst x0 x1 x2) := by
  intro ws h; cases h; simp [encAlu]

theorem not (x0 : Nat) (x1 x2 : Reg) : Statement (.not x0 x1 x2) := by
  intro ws h; cases h; simp [encAlu]

theorem neg (x0 : Nat) (x1 x2 : Reg) : Statement (.neg x0 x1 x2) := by
  intro ws h; cases h; simp [encAlu]

theorem movi (x0 : Nat) (x1 : Reg) (x2 : MoviSrc) : Statement (.movi x0 x1 x2) := by
  intro ws h; cases x2 <;> (cases h; simp [encMovi])

theorem addi (x0 : Nat) (x1 : Fin 4) (x2 : BitVec 8) : Statement (.addi x0 x1 x2) := by
  intro ws h; cases h; simp [encImm]

theorem cmpi (x0 : Nat) (x1 : Fin 4) (x2 : BitVec 8) : Statement (.cmpi x0 x1 x2) := by
  intro ws h; cases h; simp [encImm]

theorem andi (x0 : Nat) (x1 : Fin 4) (x2 : BitVec 8) : Statement (.andi x0 x1 x2) := by
  intro ws h; cases h; simp [encImm]

theorem ld (x0 : Nat) (x1 : Reg) (x2 : MemForm) : Statement (.ld x0 x1 x2) := fun _ h => Option.some.inj h ▸ encMem_length _ _ _

theorem st (x0 : Nat) (x1 : Reg) (x2 : MemForm) : Statement (.st x0 x1 x2) := fun _ h => Option.some.inj h ▸ encMem_length _ _ _

theorem push (x0 : Nat) (x1 : Reg) : Statement (.push x0 x1) := by
  intro ws h; cases h; simp

theorem pop (x0 : Nat) (x1 : Reg) : Statement (.pop x0 x1) := by
  intro ws h; cases h; simp

theorem bcc (x0 : Nat) (x1 : Cond) (x2 : BitVec 8) : Statement (.bcc x0 x1 x2) := by
  intro ws h; cases h; simp

theorem jmp (x0 : Nat) (x1 : Target) : Statement (.jmp x0 x1) := by
  intro ws h; cases x1 <;> (cases h; simp [encJmp])

theorem call (x0 : Nat) (x1 : Target) (x2 : Word) : Statement (.call x0 x1 x2) := by
  intro ws h; cases x1 <;> (cases h; simp [encCall])

theorem ret (x0 : Nat) : Statement (.ret x0) := by
  intro ws h; cases h; simp

theorem inPort (x0 : Nat) (x1 : Reg) (x2 : PortOp) : Statement (.inPort x0 x1 x2) := fun _ h => Option.some.inj h ▸ encPort_length _ _ _

theorem out (x0 : Nat) (x1 : PortOp) (x2 : Reg) : Statement (.out x0 x1 x2) := fun _ h => Option.some.inj h ▸ encPort_length _ _ _

theorem shl (x0 : Nat) (x1 : Reg) (x2 : BitVec 4) : Statement (.shl x0 x1 x2) := by
  intro ws h; cases h; simp [encShift]

theorem shr (x0 : Nat) (x1 : Reg) (x2 : BitVec 4) : Statement (.shr x0 x1 x2) := by
  intro ws h; cases h; simp [encShift]

theorem sar (x0 : Nat) (x1 : Reg) (x2 : BitVec 4) : Statement (.sar x0 x1 x2) := by
  intro ws h; cases h; simp [encShift]

theorem rol (x0 : Nat) (x1 : Reg) (x2 : BitVec 4) : Statement (.rol x0 x1 x2) := by
  intro ws h; cases h; simp [encShift]

theorem ror (x0 : Nat) (x1 : Reg) (x2 : BitVec 4) : Statement (.ror x0 x1 x2) := by
  intro ws h; cases h; simp [encShift]

theorem rcl (x0 : Nat) (x1 : Reg) (x2 : BitVec 4) : Statement (.rcl x0 x1 x2) := by
  intro ws h; cases h; simp [encShift]

theorem rcr (x0 : Nat) (x1 : Reg) (x2 : BitVec 4) : Statement (.rcr x0 x1 x2) := by
  intro ws h; cases h; simp [encShift]

theorem mulu (x0 : Nat) (x1 : Fin 8) (x2 : Reg) : Statement (.mulu x0 x1 x2) := by
  intro ws h; cases h; simp [encMul]

theorem muls (x0 : Nat) (x1 : Fin 8) (x2 : Reg) : Statement (.muls x0 x1 x2) := by
  intro ws h; cases h; simp [encMul]

theorem divu (x0 : Nat) (x1 : Fin 8) (x2 : Reg) : Statement (.divu x0 x1 x2) := by
  intro ws h; cases h; simp [encMul]

theorem divs (x0 : Nat) (x1 : Fin 8) (x2 : Reg) : Statement (.divs x0 x1 x2) := by
  intro ws h; cases h; simp [encMul]

theorem waitl (x0 : Nat) (x1 : WaitOp) : Statement (.waitl x0 x1) := fun _ h => Option.some.inj h ▸ encWait_length _ _

theorem waitlEnd (x0 x1 : Nat) : Statement (.waitlEnd x0 x1) := fun _ h => nomatch h

theorem waitc (x0 : Nat) (x1 : WaitOp) : Statement (.waitc x0 x1) := fun _ h => Option.some.inj h ▸ encWait_length _ _

theorem waitcEnd (x0 x1 : Nat) : Statement (.waitcEnd x0 x1) := fun _ h => nomatch h

theorem rdbeam (x0 : Nat) (x1 : Fin 8) : Statement (.rdbeam x0 x1) := by
  intro ws h; cases h; simp

theorem stamp (x0 : Nat) (x1 : Word) (x2 x3 : Reg) : Statement (.stamp x0 x1 x2 x3) := by
  intro ws h; cases h; simp

theorem illegalEncoding (x0 : Nat) (x1 : Word) : Statement (.illegalEncoding x0 x1) := by
  intro ws h; cases h; simp

theorem interruptEntry (x0 : Nat) : Statement (.interruptEntry x0) := fun _ h => nomatch h

theorem lvPortWrite (x0 : Nat) (x1 : PortOp) (x2 : Reg) : Statement (.lvPortWrite x0 x1 x2) := fun _ h => nomatch h

theorem shPortWrite (x0 : Nat) (x1 : PortOp) (x2 : Reg) : Statement (.shPortWrite x0 x1 x2) := fun _ h => nomatch h

theorem commitArm (x0 : Nat) (x1 : PortOp) (x2 : Reg) : Statement (.commitArm x0 x1 x2) := fun _ h => nomatch h

theorem paceSet (x0 : Nat) (x1 : PortOp) (x2 : Reg) : Statement (.paceSet x0 x1 x2) := fun _ h => nomatch h

theorem btValueWrite (x0 : Nat) (x1 : PortOp) (x2 : Reg) : Statement (.btValueWrite x0 x1 x2) := fun _ h => nomatch h

theorem biPendWrite (x0 : Nat) (x1 : PortOp) (x2 : Reg) : Statement (.biPendWrite x0 x1 x2) := fun _ h => nomatch h

theorem biEoi (x0 : Nat) (x1 : PortOp) (x2 : Reg) : Statement (.biEoi x0 x1 x2) := fun _ h => nomatch h

theorem ferryGo (x0 : Nat) (x1 : PortOp) (x2 : Reg) : Statement (.ferryGo x0 x1 x2) := fun _ h => nomatch h

theorem ferryAbort (x0 : Nat) (x1 : PortOp) (x2 : Reg) : Statement (.ferryAbort x0 x1 x2) := fun _ h => nomatch h

theorem lighterPush (x0 : Nat) (x1 : PortOp) (x2 : Reg) : Statement (.lighterPush x0 x1 x2) := fun _ h => nomatch h

theorem ljDeadtWrite (x0 : Nat) (x1 : PortOp) (x2 : Reg) : Statement (.ljDeadtWrite x0 x1 x2) := fun _ h => nomatch h

theorem voiceKeyon (x0 : Nat) (x1 : PortOp) (x2 : Reg) : Statement (.voiceKeyon x0 x1 x2) := fun _ h => nomatch h

theorem voiceKeyoff (x0 : Nat) (x1 : PortOp) (x2 : Reg) : Statement (.voiceKeyoff x0 x1 x2) := fun _ h => nomatch h

theorem sampleRingConfig (x0 : Nat) (x1 : PortOp) (x2 : Reg) : Statement (.sampleRingConfig x0 x1 x2) := fun _ h => nomatch h

theorem padRpWrite (x0 : Nat) (x1 : PortOp) (x2 : Reg) : Statement (.padRpWrite x0 x1 x2) := fun _ h => nomatch h

theorem lentPinWrite (x0 : Nat) (x1 : PortOp) (x2 : Reg) : Statement (.lentPinWrite x0 x1 x2) := fun _ h => nomatch h

theorem beamLineStart (x0 x1 : Nat) : Statement (.beamLineStart x0 x1) := fun _ h => nomatch h

theorem frameBoundary (x0 x1 : Nat) : Statement (.frameBoundary x0 x1) := fun _ h => nomatch h

theorem governorAlign (x0 : Nat) : Statement (.governorAlign x0) := fun _ h => nomatch h

theorem sampleInstant (x0 x1 : Nat) : Statement (.sampleInstant x0 x1) := fun _ h => nomatch h

theorem berthTimerMatch (x0 : Nat) (x1 : Fin 4) (x2 : Nat) : Statement (.berthTimerMatch x0 x1 x2) := fun _ h => nomatch h

theorem biModerationRelease (x0 x1 : Nat) : Statement (.biModerationRelease x0 x1) := fun _ h => nomatch h

theorem watchEnd (x0 : Nat) : Statement (.watchEnd x0) := fun _ h => nomatch h

theorem watchCommit (x0 x1 : Nat) : Statement (.watchCommit x0 x1) := fun _ h => nomatch h

theorem stampStoreAdmit (x0 x1 x2 : Nat) : Statement (.stampStoreAdmit x0 x1 x2) := fun _ h => nomatch h

theorem lockstepMismatch (x0 x1 x2 x3 x4 : Nat) : Statement (.lockstepMismatch x0 x1 x2 x3 x4) := fun _ h => nomatch h

theorem faultFreeRelocation (x0 x1 x2 : Nat) : Statement (.faultFreeRelocation x0 x1 x2) := fun _ h => nomatch h

theorem crossDockMigration (x0 x1 x2 : Nat) : Statement (.crossDockMigration x0 x1 x2) := fun _ h => nomatch h

theorem composeLine (x0 x1 x2 : Nat) : Statement (.composeLine x0 x1 x2) := fun _ h => nomatch h

theorem lineRelease (x0 x1 x2 x3 : Nat) : Statement (.lineRelease x0 x1 x2 x3) := fun _ h => nomatch h

theorem pipeWatchdogExpiry (x0 x1 x2 : Nat) : Statement (.pipeWatchdogExpiry x0 x1 x2) := fun _ h => nomatch h

theorem sparePipeTakeover (x0 x1 x2 : Nat) : Statement (.sparePipeTakeover x0 x1 x2) := fun _ h => nomatch h

theorem scanoutLineRead (x0 : Nat) : Statement (.scanoutLineRead x0) := fun _ h => nomatch h

theorem scanSegmentQueue (x0 : Nat) : Statement (.scanSegmentQueue x0) := fun _ h => nomatch h

theorem outputFrameStart (x0 : Nat) : Statement (.outputFrameStart x0) := fun _ h => nomatch h

theorem quayTransmitFrame (x0 x1 : Nat) : Statement (.quayTransmitFrame x0 x1) := fun _ h => nomatch h

theorem injectReorderRelease (x0 x1 : Nat) : Statement (.injectReorderRelease x0 x1) := fun _ h => nomatch h

theorem quayReceiveFrame (x0 : Nat) (x1 : List Byte) (x2 : Bool) (x3 : Option (List Byte)) (x4 : Nat) : Statement (.quayReceiveFrame x0 x1 x2 x3 x4) := fun _ h => nomatch h

theorem pfcPauseExpiry (x0 x1 : Nat) : Statement (.pfcPauseExpiry x0 x1) := fun _ h => nomatch h

theorem quayPfcGenerate (x0 x1 x2 : Nat) : Statement (.quayPfcGenerate x0 x1 x2) := fun _ h => nomatch h

theorem quayLinkUp (x0 : Nat) (x1 : LinkSeen) : Statement (.quayLinkUp x0 x1) := fun _ h => nomatch h

theorem quayLossOfLock (x0 x1 x2 : Nat) : Statement (.quayLossOfLock x0 x1 x2) := fun _ h => nomatch h

theorem quayFailover (x0 x1 : Nat) : Statement (.quayFailover x0 x1) := fun _ h => nomatch h

theorem qyTimestampPop (x0 : Requester) (x1 : Nat) (x2 : Bool) (x3 : Nat) : Statement (.qyTimestampPop x0 x1 x2 x3) := fun _ h => nomatch h

theorem qyInjseedWrite (x0 : Requester) (x1 x2 x3 : Nat) : Statement (.qyInjseedWrite x0 x1 x2 x3) := fun _ h => nomatch h

theorem registerWrite (x0 : Requester) (x1 x2 x3 x4 : Nat) : Statement (.registerWrite x0 x1 x2 x3 x4) := fun _ h => nomatch h

theorem pairLowRead (x0 : Requester) (x1 x2 x3 : Nat) : Statement (.pairLowRead x0 x1 x2 x3) := fun _ h => nomatch h

theorem dpLoadRead (x0 : Requester) (x1 x2 x3 x4 x5 : Nat) : Statement (.dpLoadRead x0 x1 x2 x3 x4 x5) := fun _ h => nomatch h

theorem pwTjRead (x0 : Requester) (x1 x2 x3 x4 : Nat) : Statement (.pwTjRead x0 x1 x2 x3 x4) := fun _ h => nomatch h

theorem hostCellarRead (x0 : Requester) (x1 x2 x3 : Nat) : Statement (.hostCellarRead x0 x1 x2 x3) := fun _ h => nomatch h

theorem hostCellarWrite (x0 : Requester) (x1 : Nat) (x2 : List (Option Byte)) (x3 : Nat) : Statement (.hostCellarWrite x0 x1 x2 x3) := fun _ h => nomatch h

theorem ledgerFence (x0 : Requester) (x1 x2 x3 : Nat) : Statement (.ledgerFence x0 x1 x2 x3) := fun _ h => nomatch h

theorem ledgerFenceDone (x0 x1 : Nat) : Statement (.ledgerFenceDone x0 x1) := fun _ h => nomatch h

theorem patrolScrubRead (x0 x1 : Nat) (x2 : Option (Nat × Nat × Nat)) (x3 : Nat) : Statement (.patrolScrubRead x0 x1 x2 x3) := fun _ h => nomatch h

theorem rowRepairStart (x0 x1 x2 : Nat) : Statement (.rowRepairStart x0 x1 x2) := fun _ h => nomatch h

theorem rowRepairDone (x0 x1 x2 : Nat) : Statement (.rowRepairDone x0 x1 x2) := fun _ h => nomatch h

theorem fabricLinkDown (x0 x1 x2 : Nat) : Statement (.fabricLinkDown x0 x1 x2) := fun _ h => nomatch h

theorem htGo (x0 : Requester) (x1 x2 : Nat) : Statement (.htGo x0 x1 x2) := fun _ h => nomatch h

theorem htRelease (x0 : Nat) : Statement (.htRelease x0) := fun _ h => nomatch h

theorem htMatch (x0 x1 x2 : Nat) : Statement (.htMatch x0 x1 x2) := fun _ h => nomatch h

theorem htValueWrite (x0 : Requester) (x1 x2 x3 x4 x5 : Nat) : Statement (.htValueWrite x0 x1 x2 x3 x4 x5) := fun _ h => nomatch h

theorem hicPendWrite (x0 : Requester) (x1 x2 x3 x4 x5 : Nat) : Statement (.hicPendWrite x0 x1 x2 x3 x4 x5) := fun _ h => nomatch h

theorem hicEoi (x0 : Requester) (x1 x2 x3 : Nat) : Statement (.hicEoi x0 x1 x2 x3) := fun _ h => nomatch h

theorem hicModerationRelease (x0 x1 x2 : Nat) (x3 : Bool) : Statement (.hicModerationRelease x0 x1 x2 x3) := fun _ h => nomatch h

theorem hostRingEnable (x0 : Requester) (x1 x2 x3 : Nat) : Statement (.hostRingEnable x0 x1 x2 x3) := fun _ h => nomatch h

theorem hostRingDisable (x0 : Requester) (x1 x2 x3 : Nat) : Statement (.hostRingDisable x0 x1 x2 x3) := fun _ h => nomatch h

theorem sqTailDoorbell (x0 : Requester) (x1 x2 x3 x4 : Nat) : Statement (.sqTailDoorbell x0 x1 x2 x3 x4) := fun _ h => nomatch h

theorem cqHeadDoorbell (x0 : Requester) (x1 x2 x3 x4 : Nat) : Statement (.cqHeadDoorbell x0 x1 x2 x3 x4) := fun _ h => nomatch h

theorem evHeadDoorbell (x0 : Requester) (x1 x2 x3 : Nat) : Statement (.evHeadDoorbell x0 x1 x2 x3) := fun _ h => nomatch h

theorem underrunSummaryPost (x0 x1 : Nat) : Statement (.underrunSummaryPost x0 x1) := fun _ h => nomatch h

theorem ledgerDenialEvent (x0 x1 : Nat) : Statement (.ledgerDenialEvent x0 x1) := fun _ h => nomatch h

theorem echo (x0 : Cmd) (x1 : Nat) : Statement (.echo x0 x1) := fun _ h => nomatch h

theorem profileQuery (x0 : Cmd) (x1 : Nat) : Statement (.profileQuery x0 x1) := fun _ h => nomatch h

theorem profileSelect (x0 : Cmd) (x1 : BootIn) (x2 : Nat) : Statement (.profileSelect x0 x1 x2) := fun _ h => nomatch h

theorem clockConfig (x0 : Cmd) (x1 : Nat) : Statement (.clockConfig x0 x1) := fun _ h => nomatch h

theorem faultLogRead (x0 : Cmd) (x1 : Nat) : Statement (.faultLogRead x0 x1) := fun _ h => nomatch h

theorem measureRead (x0 : Cmd) (x1 : Nat) : Statement (.measureRead x0 x1) := fun _ h => nomatch h

theorem mcReload (x0 : Cmd) (x1 : Nat) : Statement (.mcReload x0 x1) := fun _ h => nomatch h

theorem berthCreate (x0 : Cmd) (x1 : Nat) : Statement (.berthCreate x0 x1) := fun _ h => nomatch h

theorem berthDestroy (x0 : Cmd) (x1 : Nat) : Statement (.berthDestroy x0 x1) := fun _ h => nomatch h

theorem segDefine (x0 : Cmd) (x1 : Nat) : Statement (.segDefine x0 x1) := fun _ h => nomatch h

theorem cellarWrite (x0 : Cmd) (x1 : Nat) : Statement (.cellarWrite x0 x1) := fun _ h => nomatch h

theorem cellarRead (x0 : Cmd) (x1 : Nat) : Statement (.cellarRead x0 x1) := fun _ h => nomatch h

theorem pageShare (x0 : Cmd) (x1 : Nat) : Statement (.pageShare x0 x1) := fun _ h => nomatch h

theorem berthStart (x0 : Cmd) (x1 : Nat) : Statement (.berthStart x0 x1) := fun _ h => nomatch h

theorem berthStartTime (x0 : Nat) : Statement (.berthStartTime x0) := fun _ h => nomatch h

theorem berthPause (x0 : Cmd) (x1 : Nat) : Statement (.berthPause x0 x1) := fun _ h => nomatch h

theorem berthResume (x0 : Cmd) (x1 : Nat) : Statement (.berthResume x0 x1) := fun _ h => nomatch h

theorem berthMigrate (x0 : Cmd) (x1 : Nat) : Statement (.berthMigrate x0 x1) := fun _ h => nomatch h

theorem berthStatus (x0 : Cmd) (x1 : Nat) : Statement (.berthStatus x0 x1) := fun _ h => nomatch h

theorem streamBind (x0 : Cmd) (x1 : Nat) : Statement (.streamBind x0 x1) := fun _ h => nomatch h

theorem streamUnbind (x0 : Cmd) (x1 : Nat) : Statement (.streamUnbind x0 x1) := fun _ h => nomatch h

theorem inputBind (x0 : Cmd) (x1 : Nat) : Statement (.inputBind x0 x1) := fun _ h => nomatch h

theorem quayConfig (x0 : Cmd) (x1 : Nat) : Statement (.quayConfig x0 x1) := fun _ h => nomatch h

theorem quayInject (x0 : Cmd) (x1 : Nat) : Statement (.quayInject x0 x1) := fun _ h => nomatch h

theorem macsecKey (x0 : Cmd) (x1 : Nat) : Statement (.macsecKey x0 x1) := fun _ h => nomatch h

theorem powerSet (x0 : Cmd) (x1 : Nat) : Statement (.powerSet x0 x1) := fun _ h => nomatch h

theorem thermalPolicy (x0 : Cmd) (x1 : Nat) : Statement (.thermalPolicy x0 x1) := fun _ h => nomatch h

theorem selftestPolicy (x0 : Cmd) (x1 : Nat) : Statement (.selftestPolicy x0 x1) := fun _ h => nomatch h

theorem selftestReport (x0 : Cmd) (x1 : Nat) : Statement (.selftestReport x0 x1) := fun _ h => nomatch h

theorem mctpCommand (x0 : Nat) (x1 : Cmd) (x2 : Nat) : Statement (.mctpCommand x0 x1 x2) := fun _ h => nomatch h

theorem mctpStatus (x0 : Via) : Statement (.mctpStatus x0) := fun _ h => nomatch h

theorem setEndpointId (x0 x1 x2 : Nat) : Statement (.setEndpointId x0 x1 x2) := fun _ h => nomatch h

theorem getEndpointId (x0 x1 : Nat) : Statement (.getEndpointId x0 x1) := fun _ h => nomatch h

theorem getMctpVersionSupport (x0 : Via) : Statement (.getMctpVersionSupport x0) := fun _ h => nomatch h

theorem getMessageTypeSupport (x0 : Via) : Statement (.getMessageTypeSupport x0) := fun _ h => nomatch h

theorem getVersion (x0 : Via) : Statement (.getVersion x0) := fun _ h => nomatch h

theorem getCapabilities (x0 : Via) (x1 : List Byte) : Statement (.getCapabilities x0 x1) := fun _ h => nomatch h

theorem negotiateAlgorithms (x0 : Via) (x1 : List Byte) : Statement (.negotiateAlgorithms x0 x1) := fun _ h => nomatch h

theorem getDigests (x0 : Via) : Statement (.getDigests x0) := fun _ h => nomatch h

theorem getCertificate (x0 : Via) (x1 : Nat) (x2 : Nat) (x3 : Nat) : Statement (.getCertificate x0 x1 x2 x3) := fun _ h => nomatch h

theorem challenge (x0 : Via) (x1 : List Byte) : Statement (.challenge x0 x1) := fun _ h => nomatch h

theorem getMeasurements (x0 : Via) (x1 : Bool) (x2 : Nat) (x3 : List Byte) : Statement (.getMeasurements x0 x1 x2 x3) := fun _ h => nomatch h

theorem keyExchange (x0 : Via) (x1 : Nat) (x2 : List Byte) : Statement (.keyExchange x0 x1 x2) := fun _ h => nomatch h

theorem finish (x0 : Via) (x1 : Nat) (x2 : List Byte) : Statement (.finish x0 x1 x2) := fun _ h => nomatch h

theorem endSession (x0 : Via) (x1 : Nat) : Statement (.endSession x0 x1) := fun _ h => nomatch h

theorem ferryManifestStart (x0 x1 : Nat) : Statement (.ferryManifestStart x0 x1) := fun _ h => nomatch h

theorem ferryStreamUnit (x0 x1 : Nat) : Statement (.ferryStreamUnit x0 x1) := fun _ h => nomatch h

theorem ferryManifestComplete (x0 x1 x2 : Nat) : Statement (.ferryManifestComplete x0 x1 x2) := fun _ h => nomatch h

theorem lighterJobStart (x0 x1 : Nat) : Statement (.lighterJobStart x0 x1) := fun _ h => nomatch h

theorem lighterRowComplete (x0 x1 x2 : Nat) : Statement (.lighterRowComplete x0 x1 x2) := fun _ h => nomatch h

theorem lighterJobComplete (x0 x1 x2 : Nat) : Statement (.lighterJobComplete x0 x1 x2) := fun _ h => nomatch h

theorem engineFault (x0 x1 x2 x3 x4 : Nat) : Statement (.engineFault x0 x1 x2 x3 x4) := fun _ h => nomatch h

theorem voterDisagree (x0 : Nat) (x1 : Bool) (x2 x3 : Nat) : Statement (.voterDisagree x0 x1 x2 x3) := fun _ h => nomatch h

theorem voterRejoin (x0 : Nat) (x1 : Bool) (x2 x3 : Nat) : Statement (.voterRejoin x0 x1 x2 x3) := fun _ h => nomatch h

theorem selftestSchedule (x0 x1 : Nat) : Statement (.selftestSchedule x0 x1) := fun _ h => nomatch h

theorem selftestTurnStart (x0 x1 : Nat) : Statement (.selftestTurnStart x0 x1) := fun _ h => nomatch h

theorem selftestBudgetEnd (x0 x1 x2 x3 : Nat) : Statement (.selftestBudgetEnd x0 x1 x2 x3) := fun _ h => nomatch h

theorem selftestSliceEnd (x0 x1 x2 x3 x4 x5 x6 x7 : Nat) : Statement (.selftestSliceEnd x0 x1 x2 x3 x4 x5 x6 x7) := fun _ h => nomatch h

theorem jtagScanEnter (x0 : Nat) : Statement (.jtagScanEnter x0) := fun _ h => nomatch h

theorem wdogKick (x0 : Requester) (x1 x2 : Nat) : Statement (.wdogKick x0 x1 x2) := fun _ h => nomatch h

theorem wdogTimeoutSet (x0 : Requester) (x1 x2 : Nat) : Statement (.wdogTimeoutSet x0 x1 x2) := fun _ h => nomatch h

theorem watchdogExpiry (x0 : BootIn) (x1 : Nat) : Statement (.watchdogExpiry x0 x1) := fun _ h => nomatch h

theorem pwModeOn (x0 : Requester) (x1 x2 x3 : Nat) : Statement (.pwModeOn x0 x1 x2 x3) := fun _ h => nomatch h

theorem pwModeArm (x0 : Requester) (x1 x2 x3 : Nat) : Statement (.pwModeArm x0 x1 x2 x3) := fun _ h => nomatch h

theorem domainEntry (x0 x1 x2 : Nat) : Statement (.domainEntry x0 x1 x2) := fun _ h => nomatch h

theorem domainEntryAbandon (x0 x1 x2 : Nat) : Statement (.domainEntryAbandon x0 x1 x2) := fun _ h => nomatch h

theorem domainReturnDone (x0 x1 x2 : Nat) : Statement (.domainReturnDone x0 x1 x2) := fun _ h => nomatch h

theorem measureExtend (x0 : Requester) (x1 x2 x3 : Nat) : Statement (.measureExtend x0 x1 x2 x3) := fun _ h => nomatch h

theorem mcLaddrWrite (x0 : Requester) (x1 x2 x3 x4 : Nat) : Statement (.mcLaddrWrite x0 x1 x2 x3 x4) := fun _ h => nomatch h

theorem mcLoadWord (x0 : Requester) (x1 x2 x3 x4 : Nat) : Statement (.mcLoadWord x0 x1 x2 x3 x4) := fun _ h => nomatch h

theorem mcCrcCheck (x0 : Requester) (x1 x2 x3 x4 : Nat) : Statement (.mcCrcCheck x0 x1 x2 x3 x4) := fun _ h => nomatch h

theorem mcCrcCheckDone (x0 x1 x2 : Nat) : Statement (.mcCrcCheckDone x0 x1 x2) := fun _ h => nomatch h

theorem mcSwitch (x0 : Requester) (x1 x2 x3 x4 : Nat) : Statement (.mcSwitch x0 x1 x2 x3 x4) := fun _ h => nomatch h

theorem calLoad (x0 : Requester) (x1 x2 : Nat) : Statement (.calLoad x0 x1 x2) := fun _ h => nomatch h

theorem calendarTick (x0 x1 : Nat) : Statement (.calendarTick x0 x1) := fun _ h => nomatch h

theorem keeperWake (x0 : Nat) (x1 : Bool) (x2 : Nat) : Statement (.keeperWake x0 x1 x2) := fun _ h => nomatch h

theorem pwrgdTimeout : Statement .pwrgdTimeout := fun _ h => nomatch h

theorem keeperShutdown (x0 : Requester) (x1 x2 : Nat) : Statement (.keeperShutdown x0 x1 x2) := fun _ h => nomatch h

theorem supplyLoss (x0 : Nat) : Statement (.supplyLoss x0) := fun _ h => nomatch h

theorem shutdownHoldoffEnd (x0 : Nat) : Statement (.shutdownHoldoffEnd x0) := fun _ h => nomatch h

theorem vkeepApply : Statement .vkeepApply := fun _ h => nomatch h

theorem gpioFunctionSwitch (x0 : Requester) (x1 x2 x3 : Nat) : Statement (.gpioFunctionSwitch x0 x1 x2 x3) := fun _ h => nomatch h

theorem gpioOutWrite (x0 : Requester) (x1 x2 x3 : Nat) : Statement (.gpioOutWrite x0 x1 x2 x3) := fun _ h => nomatch h

theorem gpioEvent (x0 : Nat) (x1 : Bool) (x2 : Nat) : Statement (.gpioEvent x0 x1 x2) := fun _ h => nomatch h

theorem adcConversion (x0 x1 : Nat) : Statement (.adcConversion x0 x1) := fun _ h => nomatch h

theorem pcieFlr (x0 x1 : Nat) : Statement (.pcieFlr x0 x1) := fun _ h => nomatch h

theorem pcieD3hotExit (x0 x1 : Nat) : Statement (.pcieD3hotExit x0 x1) := fun _ h => nomatch h

theorem perstAssert (x0 x1 x2 : Nat) : Statement (.perstAssert x0 x1 x2) := fun _ h => nomatch h

theorem perstDeassert (x0 x1 : Nat) : Statement (.perstDeassert x0 x1) := fun _ h => nomatch h

theorem refclkLoss (x0 : Nat) : Statement (.refclkLoss x0) := fun _ h => nomatch h

theorem refclkRequalify (x0 : Nat) : Statement (.refclkRequalify x0) := fun _ h => nomatch h

theorem powerSample (x0 x1 x2 x3 x4 : Nat) : Statement (.powerSample x0 x1 x2 x3 x4) := fun _ h => nomatch h

theorem thermalSample (x0 x1 x2 : Nat) : Statement (.thermalSample x0 x1 x2) := fun _ h => nomatch h

theorem avsStatusPoll (x0 : Bool) (x1 : Nat) : Statement (.avsStatusPoll x0 x1) := fun _ h => nomatch h

theorem avsRetryTimeout (x0 : Nat) : Statement (.avsRetryTimeout x0) := fun _ h => nomatch h

theorem avsFaultTimeout (x0 : Nat) : Statement (.avsFaultTimeout x0) := fun _ h => nomatch h

theorem thermalTrip (x0 x1 x2 : Nat) : Statement (.thermalTrip x0 x1 x2) := fun _ h => nomatch h

theorem coldReset (x0 : Nat) : Statement (.coldReset x0) := fun _ h => nomatch h

theorem coldBoot (x0 : BootIn) : Statement (.coldBoot x0) := fun _ h => nomatch h

theorem repairRecordWrite (x0 : Nat) : Statement (.repairRecordWrite x0) := fun _ h => nomatch h

theorem fabricLinkUp (x0 x1 x2 : Nat) : Statement (.fabricLinkUp x0 x1 x2) := fun _ h => nomatch h

theorem pcieLinkChange (x0 : Nat) (x1 : Bool) (x2 : Nat) : Statement (.pcieLinkChange x0 x1 x2) := fun _ h => nomatch h

theorem pcieD3hotEntry (x0 x1 : Nat) : Statement (.pcieD3hotEntry x0 x1) := fun _ h => nomatch h

theorem pwrgdRise : Statement .pwrgdRise := fun _ h => nomatch h

theorem raiseholdExpiry (x0 : Nat) : Statement (.raiseholdExpiry x0) := fun _ h => nomatch h

theorem vkeepLoss : Statement .vkeepLoss := fun _ h => nomatch h

theorem genlockEdge (x0 : Nat) : Statement (.genlockEdge x0) := fun _ h => nomatch h

theorem fanTachSecond : Statement .fanTachSecond := fun _ h => nomatch h

end Sys2Proof.Laws.EncodedLength
end

