-- ==== Sys2Proof/Laws/State.lean ====
section
/-! SUPPORT. What each update of one field of State leaves: one lemma a field and update, and one a reader and update. -/

namespace Sys2Proof.Machine

set_option Elab.async false

variable (s : State)

/-! The writes to register fields are writes of registers. -/

theorem State.setFld_eq (a hi lo x : Nat) : s.setFld a hi lo x = s.setReg a (putBits (s.reg a) hi lo x) := rfl

theorem State.setFlag_eq (a n : Nat) (x : Bool) : s.setFlag a n x = if x then (s.setFld a n n 1).noteSet a (2 ^ n) else s.setFld a n n 0 := by
  cases x <;> rfl

theorem State.addFld_eq (a hi lo k : Nat) : s.addFld a hi lo k = s.setReg a (putBits (s.reg a) hi lo (s.fld a hi lo + k)) := rfl

/-! setReg changes regs. -/

@[simp] theorem State.setReg_part (a v : Nat) : (s.setReg a v).part = s.part := rfl
@[simp] theorem State.setReg_pending (a v : Nat) : (s.setReg a v).pending = s.pending := rfl
@[simp] theorem State.setReg_htime (a v : Nat) : (s.setReg a v).htime = s.htime := rfl
@[simp] theorem State.setReg_draws (a v : Nat) : (s.setReg a v).draws = s.draws := rfl
@[simp] theorem State.setReg_bus (a v : Nat) : (s.setReg a v).bus = s.bus := rfl
@[simp] theorem State.setReg_mem (a v : Nat) : (s.setReg a v).mem = s.mem := rfl
@[simp] theorem State.setReg_ecc (a v : Nat) : (s.setReg a v).ecc = s.ecc := rfl
@[simp] theorem State.setReg_pages (a v : Nat) : (s.setReg a v).pages = s.pages := rfl
@[simp] theorem State.setReg_groups (a v : Nat) : (s.setReg a v).groups = s.groups := rfl
@[simp] theorem State.setReg_hold (a v : Nat) : (s.setReg a v).hold = s.hold := rfl
@[simp] theorem State.setReg_berths (a v : Nat) : (s.setReg a v).berths = s.berths := rfl
@[simp] theorem State.setReg_rowCe (a v : Nat) : (s.setReg a v).rowCe = s.rowCe := rfl
@[simp] theorem State.setReg_repairQ (a v : Nat) : (s.setReg a v).repairQ = s.repairQ := rfl
@[simp] theorem State.setReg_slots (a v : Nat) : (s.setReg a v).slots = s.slots := rfl
@[simp] theorem State.setReg_eps (a v : Nat) : (s.setReg a v).eps = s.eps := rfl
@[simp] theorem State.setReg_flying (a v : Nat) : (s.setReg a v).flying = s.flying := rfl
@[simp] theorem State.setReg_faultLog (a v : Nat) : (s.setReg a v).faultLog = s.faultLog := rfl
@[simp] theorem State.setReg_faultSeq (a v : Nat) : (s.setReg a v).faultSeq = s.faultSeq := rfl
@[simp] theorem State.setReg_pads (a v : Nat) : (s.setReg a v).pads = s.pads := rfl
@[simp] theorem State.setReg_sync (a v : Nat) : (s.setReg a v).sync = s.sync := rfl
@[simp] theorem State.setReg_domains (a v : Nat) : (s.setReg a v).domains = s.domains := rfl
@[simp] theorem State.setReg_prof (a v : Nat) : (s.setReg a v).prof = s.prof := rfl
@[simp] theorem State.setReg_slices (a v : Nat) : (s.setReg a v).slices = s.slices := rfl
@[simp] theorem State.setReg_follow (a v : Nat) : (s.setReg a v).follow = s.follow := rfl
@[simp] theorem State.setReg_htT (a v : Nat) : (s.setReg a v).htT = s.htT := rfl
@[simp] theorem State.setReg_pipes (a v : Nat) : (s.setReg a v).pipes = s.pipes := rfl
@[simp] theorem State.setReg_quays (a v : Nat) : (s.setReg a v).quays = s.quays := rfl
@[simp] theorem State.setReg_testLog (a v : Nat) : (s.setReg a v).testLog = s.testLog := rfl
@[simp] theorem State.setReg_spareAt (a v : Nat) : (s.setReg a v).spareAt = s.spareAt := rfl
@[simp] theorem State.setReg_engAt (a v : Nat) : (s.setReg a v).engAt = s.engAt := rfl
@[simp] theorem State.setReg_voteAt (a v : Nat) : (s.setReg a v).voteAt = s.voteAt := rfl
@[simp] theorem State.setReg_latches (a v : Nat) : (s.setReg a v).latches = s.latches := rfl
@[simp] theorem State.setReg_patrol (a v : Nat) : (s.setReg a v).patrol = s.patrol := rfl
@[simp] theorem State.setReg_repairing (a v : Nat) : (s.setReg a v).repairing = s.repairing := rfl
@[simp] theorem State.setReg_retire (a v : Nat) : (s.setReg a v).retire = s.retire := rfl
@[simp] theorem State.setReg_mctp (a v : Nat) : (s.setReg a v).mctp = s.mctp := rfl
@[simp] theorem State.setReg_denied (a v : Nat) : (s.setReg a v).denied = s.denied := rfl
@[simp] theorem State.setReg_ptp (a v : Nat) : (s.setReg a v).ptp = s.ptp := rfl
@[simp] theorem State.setReg_pw (a v : Nat) : (s.setReg a v).pw = s.pw := rfl
@[simp] theorem State.setReg_entries (a v : Nat) : (s.setReg a v).entries = s.entries := rfl
@[simp] theorem State.setReg_keeper (a v : Nat) : (s.setReg a v).keeper = s.keeper := rfl
@[simp] theorem State.setReg_otp (a v : Nat) : (s.setReg a v).otp = s.otp := rfl
@[simp] theorem State.setReg_flash (a v : Nat) : (s.setReg a v).flash = s.flash := rfl
@[simp] theorem State.setReg_profTable (a v : Nat) : (s.setReg a v).profTable = s.profTable := rfl
@[simp] theorem State.setReg_keyStore (a v : Nat) : (s.setReg a v).keyStore = s.keyStore := rfl
@[simp] theorem State.setReg_attKey (a v : Nat) : (s.setReg a v).attKey = s.attKey := rfl
@[simp] theorem State.setReg_scanned (a v : Nat) : (s.setReg a v).scanned = s.scanned := rfl
@[simp] theorem State.setReg_fwVer (a v : Nat) : (s.setReg a v).fwVer = s.fwVer := rfl
@[simp] theorem State.setReg_dieImg (a v : Nat) : (s.setReg a v).dieImg = s.dieImg := rfl
@[simp] theorem State.setReg_dockImg (a v : Nat) : (s.setReg a v).dockImg = s.dockImg := rfl
@[simp] theorem State.setReg_cstore (a v : Nat) : (s.setReg a v).cstore = s.cstore := rfl
@[simp] theorem State.setReg_newRepairs (a v : Nat) : (s.setReg a v).newRepairs = s.newRepairs := rfl
@[simp] theorem State.setReg_repairs (a v : Nat) : (s.setReg a v).repairs = s.repairs := rfl
@[simp] theorem State.setReg_repairCopy (a v : Nat) : (s.setReg a v).repairCopy = s.repairCopy := rfl
@[simp] theorem State.setReg_repairSeq (a v : Nat) : (s.setReg a v).repairSeq = s.repairSeq := rfl
@[simp] theorem State.setReg_sessions (a v : Nat) : (s.setReg a v).sessions = s.sessions := rfl
@[simp] theorem State.setReg_chain (a v : Nat) : (s.setReg a v).chain = s.chain := rfl
@[simp] theorem State.setReg_wdogAt (a v : Nat) : (s.setReg a v).wdogAt = s.wdogAt := rfl
@[simp] theorem State.setReg_thermTrip (a v : Nat) : (s.setReg a v).thermTrip = s.thermTrip := rfl
@[simp] theorem State.setReg_toggles (a v : Nat) : (s.setReg a v).toggles = s.toggles := rfl
@[simp] theorem State.setReg_hmHalt (a v : Nat) : (s.setReg a v).hmHalt = s.hmHalt := rfl
@[simp] theorem State.setReg_wdogFired (a v : Nat) : (s.setReg a v).wdogFired = s.wdogFired := rfl
@[simp] theorem State.setReg_adcAt (a v : Nat) : (s.setReg a v).adcAt = s.adcAt := rfl
@[simp] theorem State.setReg_eids (a v : Nat) : (s.setReg a v).eids = s.eids := rfl
@[simp] theorem State.setReg_spdmSeq (a v : Nat) : (s.setReg a v).spdmSeq = s.spdmSeq := rfl
@[simp] theorem State.setReg_cyc (a v : Nat) : (s.setReg a v).cyc = s.cyc := rfl
@[simp] theorem State.setReg_corr (a v : Nat) : (s.setReg a v).corr = s.corr := rfl
@[simp] theorem State.setReg_ptpRun (a v : Nat) : (s.setReg a v).ptpRun = s.ptpRun := rfl
@[simp] theorem State.setReg_memRows (a v : Nat) : (s.setReg a v).memRows = s.memRows := rfl
@[simp] theorem State.setReg_bootAt (a v : Nat) : (s.setReg a v).bootAt = s.bootAt := rfl
@[simp] theorem State.setReg_outside (a v : Nat) : (s.setReg a v).outside = s.outside := rfl
@[simp] theorem State.setReg_switches (a v : Nat) : (s.setReg a v).switches = s.switches := rfl
@[simp] theorem State.setReg_now (a v : Nat) : (s.setReg a v).now = s.now := rfl
@[simp] theorem State.setReg_berth (a v : Nat) (i : Nat) : (s.setReg a v).berth i = s.berth i := rfl
@[simp] theorem State.setReg_slot (a v : Nat) (i j l : Nat) : (s.setReg a v).slot i j l = s.slot i j l := rfl
@[simp] theorem State.setReg_word (a v : Nat) (i : Nat) : (s.setReg a v).word i = s.word i := rfl
@[simp] theorem State.setReg_page (a v : Nat) (i j : Nat) : (s.setReg a v).page i j = s.page i j := rfl
@[simp] theorem State.setReg_ep (a v : Nat) (i : Nat) : (s.setReg a v).ep i = s.ep i := rfl
@[simp] theorem State.setReg_quay (a v : Nat) (i : Nat) : (s.setReg a v).quay i = s.quay i := rfl
@[simp] theorem State.setReg_domain (a v : Nat) (i kc : Nat) : (s.setReg a v).domain i kc = s.domain i kc := rfl
@[simp] theorem State.setReg_pipeOf (a v : Nat) (i j : Nat) : (s.setReg a v).pipeOf i j = s.pipeOf i j := rfl
@[simp] theorem State.setReg_hasDie (a v : Nat) (i : Nat) : (s.setReg a v).hasDie i = s.hasDie i := rfl
@[simp] theorem State.setReg_hasQuay (a v : Nat) (i : Nat) : (s.setReg a v).hasQuay i = s.hasQuay i := rfl

/-! resetReg changes regs. -/

@[simp] theorem State.resetReg_part (a : Nat) : (s.resetReg a).part = s.part := rfl
@[simp] theorem State.resetReg_pending (a : Nat) : (s.resetReg a).pending = s.pending := rfl
@[simp] theorem State.resetReg_htime (a : Nat) : (s.resetReg a).htime = s.htime := rfl
@[simp] theorem State.resetReg_draws (a : Nat) : (s.resetReg a).draws = s.draws := rfl
@[simp] theorem State.resetReg_bus (a : Nat) : (s.resetReg a).bus = s.bus := rfl
@[simp] theorem State.resetReg_mem (a : Nat) : (s.resetReg a).mem = s.mem := rfl
@[simp] theorem State.resetReg_ecc (a : Nat) : (s.resetReg a).ecc = s.ecc := rfl
@[simp] theorem State.resetReg_pages (a : Nat) : (s.resetReg a).pages = s.pages := rfl
@[simp] theorem State.resetReg_groups (a : Nat) : (s.resetReg a).groups = s.groups := rfl
@[simp] theorem State.resetReg_hold (a : Nat) : (s.resetReg a).hold = s.hold := rfl
@[simp] theorem State.resetReg_berths (a : Nat) : (s.resetReg a).berths = s.berths := rfl
@[simp] theorem State.resetReg_rowCe (a : Nat) : (s.resetReg a).rowCe = s.rowCe := rfl
@[simp] theorem State.resetReg_repairQ (a : Nat) : (s.resetReg a).repairQ = s.repairQ := rfl
@[simp] theorem State.resetReg_slots (a : Nat) : (s.resetReg a).slots = s.slots := rfl
@[simp] theorem State.resetReg_eps (a : Nat) : (s.resetReg a).eps = s.eps := rfl
@[simp] theorem State.resetReg_flying (a : Nat) : (s.resetReg a).flying = s.flying := rfl
@[simp] theorem State.resetReg_faultLog (a : Nat) : (s.resetReg a).faultLog = s.faultLog := rfl
@[simp] theorem State.resetReg_faultSeq (a : Nat) : (s.resetReg a).faultSeq = s.faultSeq := rfl
@[simp] theorem State.resetReg_pads (a : Nat) : (s.resetReg a).pads = s.pads := rfl
@[simp] theorem State.resetReg_sync (a : Nat) : (s.resetReg a).sync = s.sync := rfl
@[simp] theorem State.resetReg_domains (a : Nat) : (s.resetReg a).domains = s.domains := rfl
@[simp] theorem State.resetReg_prof (a : Nat) : (s.resetReg a).prof = s.prof := rfl
@[simp] theorem State.resetReg_slices (a : Nat) : (s.resetReg a).slices = s.slices := rfl
@[simp] theorem State.resetReg_follow (a : Nat) : (s.resetReg a).follow = s.follow := rfl
@[simp] theorem State.resetReg_htT (a : Nat) : (s.resetReg a).htT = s.htT := rfl
@[simp] theorem State.resetReg_pipes (a : Nat) : (s.resetReg a).pipes = s.pipes := rfl
@[simp] theorem State.resetReg_quays (a : Nat) : (s.resetReg a).quays = s.quays := rfl
@[simp] theorem State.resetReg_testLog (a : Nat) : (s.resetReg a).testLog = s.testLog := rfl
@[simp] theorem State.resetReg_spareAt (a : Nat) : (s.resetReg a).spareAt = s.spareAt := rfl
@[simp] theorem State.resetReg_engAt (a : Nat) : (s.resetReg a).engAt = s.engAt := rfl
@[simp] theorem State.resetReg_voteAt (a : Nat) : (s.resetReg a).voteAt = s.voteAt := rfl
@[simp] theorem State.resetReg_latches (a : Nat) : (s.resetReg a).latches = s.latches := rfl
@[simp] theorem State.resetReg_patrol (a : Nat) : (s.resetReg a).patrol = s.patrol := rfl
@[simp] theorem State.resetReg_repairing (a : Nat) : (s.resetReg a).repairing = s.repairing := rfl
@[simp] theorem State.resetReg_retire (a : Nat) : (s.resetReg a).retire = s.retire := rfl
@[simp] theorem State.resetReg_mctp (a : Nat) : (s.resetReg a).mctp = s.mctp := rfl
@[simp] theorem State.resetReg_denied (a : Nat) : (s.resetReg a).denied = s.denied := rfl
@[simp] theorem State.resetReg_ptp (a : Nat) : (s.resetReg a).ptp = s.ptp := rfl
@[simp] theorem State.resetReg_pw (a : Nat) : (s.resetReg a).pw = s.pw := rfl
@[simp] theorem State.resetReg_entries (a : Nat) : (s.resetReg a).entries = s.entries := rfl
@[simp] theorem State.resetReg_keeper (a : Nat) : (s.resetReg a).keeper = s.keeper := rfl
@[simp] theorem State.resetReg_otp (a : Nat) : (s.resetReg a).otp = s.otp := rfl
@[simp] theorem State.resetReg_flash (a : Nat) : (s.resetReg a).flash = s.flash := rfl
@[simp] theorem State.resetReg_profTable (a : Nat) : (s.resetReg a).profTable = s.profTable := rfl
@[simp] theorem State.resetReg_keyStore (a : Nat) : (s.resetReg a).keyStore = s.keyStore := rfl
@[simp] theorem State.resetReg_attKey (a : Nat) : (s.resetReg a).attKey = s.attKey := rfl
@[simp] theorem State.resetReg_scanned (a : Nat) : (s.resetReg a).scanned = s.scanned := rfl
@[simp] theorem State.resetReg_fwVer (a : Nat) : (s.resetReg a).fwVer = s.fwVer := rfl
@[simp] theorem State.resetReg_dieImg (a : Nat) : (s.resetReg a).dieImg = s.dieImg := rfl
@[simp] theorem State.resetReg_dockImg (a : Nat) : (s.resetReg a).dockImg = s.dockImg := rfl
@[simp] theorem State.resetReg_cstore (a : Nat) : (s.resetReg a).cstore = s.cstore := rfl
@[simp] theorem State.resetReg_newRepairs (a : Nat) : (s.resetReg a).newRepairs = s.newRepairs := rfl
@[simp] theorem State.resetReg_repairs (a : Nat) : (s.resetReg a).repairs = s.repairs := rfl
@[simp] theorem State.resetReg_repairCopy (a : Nat) : (s.resetReg a).repairCopy = s.repairCopy := rfl
@[simp] theorem State.resetReg_repairSeq (a : Nat) : (s.resetReg a).repairSeq = s.repairSeq := rfl
@[simp] theorem State.resetReg_sessions (a : Nat) : (s.resetReg a).sessions = s.sessions := rfl
@[simp] theorem State.resetReg_chain (a : Nat) : (s.resetReg a).chain = s.chain := rfl
@[simp] theorem State.resetReg_wdogAt (a : Nat) : (s.resetReg a).wdogAt = s.wdogAt := rfl
@[simp] theorem State.resetReg_thermTrip (a : Nat) : (s.resetReg a).thermTrip = s.thermTrip := rfl
@[simp] theorem State.resetReg_toggles (a : Nat) : (s.resetReg a).toggles = s.toggles := rfl
@[simp] theorem State.resetReg_hmHalt (a : Nat) : (s.resetReg a).hmHalt = s.hmHalt := rfl
@[simp] theorem State.resetReg_wdogFired (a : Nat) : (s.resetReg a).wdogFired = s.wdogFired := rfl
@[simp] theorem State.resetReg_adcAt (a : Nat) : (s.resetReg a).adcAt = s.adcAt := rfl
@[simp] theorem State.resetReg_eids (a : Nat) : (s.resetReg a).eids = s.eids := rfl
@[simp] theorem State.resetReg_spdmSeq (a : Nat) : (s.resetReg a).spdmSeq = s.spdmSeq := rfl
@[simp] theorem State.resetReg_cyc (a : Nat) : (s.resetReg a).cyc = s.cyc := rfl
@[simp] theorem State.resetReg_corr (a : Nat) : (s.resetReg a).corr = s.corr := rfl
@[simp] theorem State.resetReg_ptpRun (a : Nat) : (s.resetReg a).ptpRun = s.ptpRun := rfl
@[simp] theorem State.resetReg_memRows (a : Nat) : (s.resetReg a).memRows = s.memRows := rfl
@[simp] theorem State.resetReg_bootAt (a : Nat) : (s.resetReg a).bootAt = s.bootAt := rfl
@[simp] theorem State.resetReg_outside (a : Nat) : (s.resetReg a).outside = s.outside := rfl
@[simp] theorem State.resetReg_switches (a : Nat) : (s.resetReg a).switches = s.switches := rfl
@[simp] theorem State.resetReg_now (a : Nat) : (s.resetReg a).now = s.now := rfl
@[simp] theorem State.resetReg_berth (a : Nat) (i : Nat) : (s.resetReg a).berth i = s.berth i := rfl
@[simp] theorem State.resetReg_slot (a : Nat) (i j l : Nat) : (s.resetReg a).slot i j l = s.slot i j l := rfl
@[simp] theorem State.resetReg_word (a : Nat) (i : Nat) : (s.resetReg a).word i = s.word i := rfl
@[simp] theorem State.resetReg_page (a : Nat) (i j : Nat) : (s.resetReg a).page i j = s.page i j := rfl
@[simp] theorem State.resetReg_ep (a : Nat) (i : Nat) : (s.resetReg a).ep i = s.ep i := rfl
@[simp] theorem State.resetReg_quay (a : Nat) (i : Nat) : (s.resetReg a).quay i = s.quay i := rfl
@[simp] theorem State.resetReg_domain (a : Nat) (i kc : Nat) : (s.resetReg a).domain i kc = s.domain i kc := rfl
@[simp] theorem State.resetReg_pipeOf (a : Nat) (i j : Nat) : (s.resetReg a).pipeOf i j = s.pipeOf i j := rfl
@[simp] theorem State.resetReg_hasDie (a : Nat) (i : Nat) : (s.resetReg a).hasDie i = s.hasDie i := rfl
@[simp] theorem State.resetReg_hasQuay (a : Nat) (i : Nat) : (s.resetReg a).hasQuay i = s.hasQuay i := rfl

/-! setBerth changes berths. -/

@[simp] theorem State.setBerth_part (x : Berth) : (s.setBerth x).part = s.part := rfl
@[simp] theorem State.setBerth_pending (x : Berth) : (s.setBerth x).pending = s.pending := rfl
@[simp] theorem State.setBerth_htime (x : Berth) : (s.setBerth x).htime = s.htime := rfl
@[simp] theorem State.setBerth_draws (x : Berth) : (s.setBerth x).draws = s.draws := rfl
@[simp] theorem State.setBerth_bus (x : Berth) : (s.setBerth x).bus = s.bus := rfl
@[simp] theorem State.setBerth_mem (x : Berth) : (s.setBerth x).mem = s.mem := rfl
@[simp] theorem State.setBerth_ecc (x : Berth) : (s.setBerth x).ecc = s.ecc := rfl
@[simp] theorem State.setBerth_regs (x : Berth) : (s.setBerth x).regs = s.regs := rfl
@[simp] theorem State.setBerth_pages (x : Berth) : (s.setBerth x).pages = s.pages := rfl
@[simp] theorem State.setBerth_groups (x : Berth) : (s.setBerth x).groups = s.groups := rfl
@[simp] theorem State.setBerth_hold (x : Berth) : (s.setBerth x).hold = s.hold := rfl
@[simp] theorem State.setBerth_rowCe (x : Berth) : (s.setBerth x).rowCe = s.rowCe := rfl
@[simp] theorem State.setBerth_repairQ (x : Berth) : (s.setBerth x).repairQ = s.repairQ := rfl
@[simp] theorem State.setBerth_slots (x : Berth) : (s.setBerth x).slots = s.slots := rfl
@[simp] theorem State.setBerth_eps (x : Berth) : (s.setBerth x).eps = s.eps := rfl
@[simp] theorem State.setBerth_flying (x : Berth) : (s.setBerth x).flying = s.flying := rfl
@[simp] theorem State.setBerth_faultLog (x : Berth) : (s.setBerth x).faultLog = s.faultLog := rfl
@[simp] theorem State.setBerth_faultSeq (x : Berth) : (s.setBerth x).faultSeq = s.faultSeq := rfl
@[simp] theorem State.setBerth_pads (x : Berth) : (s.setBerth x).pads = s.pads := rfl
@[simp] theorem State.setBerth_sync (x : Berth) : (s.setBerth x).sync = s.sync := rfl
@[simp] theorem State.setBerth_domains (x : Berth) : (s.setBerth x).domains = s.domains := rfl
@[simp] theorem State.setBerth_prof (x : Berth) : (s.setBerth x).prof = s.prof := rfl
@[simp] theorem State.setBerth_slices (x : Berth) : (s.setBerth x).slices = s.slices := rfl
@[simp] theorem State.setBerth_follow (x : Berth) : (s.setBerth x).follow = s.follow := rfl
@[simp] theorem State.setBerth_htT (x : Berth) : (s.setBerth x).htT = s.htT := rfl
@[simp] theorem State.setBerth_pipes (x : Berth) : (s.setBerth x).pipes = s.pipes := rfl
@[simp] theorem State.setBerth_quays (x : Berth) : (s.setBerth x).quays = s.quays := rfl
@[simp] theorem State.setBerth_testLog (x : Berth) : (s.setBerth x).testLog = s.testLog := rfl
@[simp] theorem State.setBerth_spareAt (x : Berth) : (s.setBerth x).spareAt = s.spareAt := rfl
@[simp] theorem State.setBerth_engAt (x : Berth) : (s.setBerth x).engAt = s.engAt := rfl
@[simp] theorem State.setBerth_voteAt (x : Berth) : (s.setBerth x).voteAt = s.voteAt := rfl
@[simp] theorem State.setBerth_latches (x : Berth) : (s.setBerth x).latches = s.latches := rfl
@[simp] theorem State.setBerth_patrol (x : Berth) : (s.setBerth x).patrol = s.patrol := rfl
@[simp] theorem State.setBerth_repairing (x : Berth) : (s.setBerth x).repairing = s.repairing := rfl
@[simp] theorem State.setBerth_retire (x : Berth) : (s.setBerth x).retire = s.retire := rfl
@[simp] theorem State.setBerth_mctp (x : Berth) : (s.setBerth x).mctp = s.mctp := rfl
@[simp] theorem State.setBerth_denied (x : Berth) : (s.setBerth x).denied = s.denied := rfl
@[simp] theorem State.setBerth_ptp (x : Berth) : (s.setBerth x).ptp = s.ptp := rfl
@[simp] theorem State.setBerth_pw (x : Berth) : (s.setBerth x).pw = s.pw := rfl
@[simp] theorem State.setBerth_entries (x : Berth) : (s.setBerth x).entries = s.entries := rfl
@[simp] theorem State.setBerth_keeper (x : Berth) : (s.setBerth x).keeper = s.keeper := rfl
@[simp] theorem State.setBerth_otp (x : Berth) : (s.setBerth x).otp = s.otp := rfl
@[simp] theorem State.setBerth_flash (x : Berth) : (s.setBerth x).flash = s.flash := rfl
@[simp] theorem State.setBerth_profTable (x : Berth) : (s.setBerth x).profTable = s.profTable := rfl
@[simp] theorem State.setBerth_keyStore (x : Berth) : (s.setBerth x).keyStore = s.keyStore := rfl
@[simp] theorem State.setBerth_attKey (x : Berth) : (s.setBerth x).attKey = s.attKey := rfl
@[simp] theorem State.setBerth_scanned (x : Berth) : (s.setBerth x).scanned = s.scanned := rfl
@[simp] theorem State.setBerth_fwVer (x : Berth) : (s.setBerth x).fwVer = s.fwVer := rfl
@[simp] theorem State.setBerth_dieImg (x : Berth) : (s.setBerth x).dieImg = s.dieImg := rfl
@[simp] theorem State.setBerth_dockImg (x : Berth) : (s.setBerth x).dockImg = s.dockImg := rfl
@[simp] theorem State.setBerth_cstore (x : Berth) : (s.setBerth x).cstore = s.cstore := rfl
@[simp] theorem State.setBerth_newRepairs (x : Berth) : (s.setBerth x).newRepairs = s.newRepairs := rfl
@[simp] theorem State.setBerth_repairs (x : Berth) : (s.setBerth x).repairs = s.repairs := rfl
@[simp] theorem State.setBerth_repairCopy (x : Berth) : (s.setBerth x).repairCopy = s.repairCopy := rfl
@[simp] theorem State.setBerth_repairSeq (x : Berth) : (s.setBerth x).repairSeq = s.repairSeq := rfl
@[simp] theorem State.setBerth_sessions (x : Berth) : (s.setBerth x).sessions = s.sessions := rfl
@[simp] theorem State.setBerth_chain (x : Berth) : (s.setBerth x).chain = s.chain := rfl
@[simp] theorem State.setBerth_wdogAt (x : Berth) : (s.setBerth x).wdogAt = s.wdogAt := rfl
@[simp] theorem State.setBerth_thermTrip (x : Berth) : (s.setBerth x).thermTrip = s.thermTrip := rfl
@[simp] theorem State.setBerth_toggles (x : Berth) : (s.setBerth x).toggles = s.toggles := rfl
@[simp] theorem State.setBerth_hmHalt (x : Berth) : (s.setBerth x).hmHalt = s.hmHalt := rfl
@[simp] theorem State.setBerth_wdogFired (x : Berth) : (s.setBerth x).wdogFired = s.wdogFired := rfl
@[simp] theorem State.setBerth_adcAt (x : Berth) : (s.setBerth x).adcAt = s.adcAt := rfl
@[simp] theorem State.setBerth_eids (x : Berth) : (s.setBerth x).eids = s.eids := rfl
@[simp] theorem State.setBerth_spdmSeq (x : Berth) : (s.setBerth x).spdmSeq = s.spdmSeq := rfl
@[simp] theorem State.setBerth_cyc (x : Berth) : (s.setBerth x).cyc = s.cyc := rfl
@[simp] theorem State.setBerth_corr (x : Berth) : (s.setBerth x).corr = s.corr := rfl
@[simp] theorem State.setBerth_ptpRun (x : Berth) : (s.setBerth x).ptpRun = s.ptpRun := rfl
@[simp] theorem State.setBerth_memRows (x : Berth) : (s.setBerth x).memRows = s.memRows := rfl
@[simp] theorem State.setBerth_bootAt (x : Berth) : (s.setBerth x).bootAt = s.bootAt := rfl
@[simp] theorem State.setBerth_outside (x : Berth) : (s.setBerth x).outside = s.outside := rfl
@[simp] theorem State.setBerth_switches (x : Berth) : (s.setBerth x).switches = s.switches := rfl
@[simp] theorem State.setBerth_now (x : Berth) : (s.setBerth x).now = s.now := rfl
@[simp] theorem State.setBerth_serving (x : Berth) : (s.setBerth x).serving = s.serving := rfl
@[simp] theorem State.setBerth_reg (x : Berth) (r : Nat) : (s.setBerth x).reg r = s.reg r := rfl
@[simp] theorem State.setBerth_fld (x : Berth) (r hi lo : Nat) : (s.setBerth x).fld r hi lo = s.fld r hi lo := rfl
@[simp] theorem State.setBerth_flag (x : Berth) (r i : Nat) : (s.setBerth x).flag r i = s.flag r i := rfl
@[simp] theorem State.setBerth_slot (x : Berth) (i j l : Nat) : (s.setBerth x).slot i j l = s.slot i j l := rfl
@[simp] theorem State.setBerth_word (x : Berth) (i : Nat) : (s.setBerth x).word i = s.word i := rfl
@[simp] theorem State.setBerth_page (x : Berth) (i j : Nat) : (s.setBerth x).page i j = s.page i j := rfl
@[simp] theorem State.setBerth_ep (x : Berth) (i : Nat) : (s.setBerth x).ep i = s.ep i := rfl
@[simp] theorem State.setBerth_quay (x : Berth) (i : Nat) : (s.setBerth x).quay i = s.quay i := rfl
@[simp] theorem State.setBerth_domain (x : Berth) (i kc : Nat) : (s.setBerth x).domain i kc = s.domain i kc := rfl
@[simp] theorem State.setBerth_pipeOf (x : Berth) (i j : Nat) : (s.setBerth x).pipeOf i j = s.pipeOf i j := rfl
@[simp] theorem State.setBerth_hasDie (x : Berth) (i : Nat) : (s.setBerth x).hasDie i = s.hasDie i := rfl
@[simp] theorem State.setBerth_hasQuay (x : Berth) (i : Nat) : (s.setBerth x).hasQuay i = s.hasQuay i := rfl

/-! setSlot changes slots. -/

@[simp] theorem State.setSlot_part (d k n v : Nat) : (s.setSlot d k n v).part = s.part := rfl
@[simp] theorem State.setSlot_pending (d k n v : Nat) : (s.setSlot d k n v).pending = s.pending := rfl
@[simp] theorem State.setSlot_htime (d k n v : Nat) : (s.setSlot d k n v).htime = s.htime := rfl
@[simp] theorem State.setSlot_draws (d k n v : Nat) : (s.setSlot d k n v).draws = s.draws := rfl
@[simp] theorem State.setSlot_bus (d k n v : Nat) : (s.setSlot d k n v).bus = s.bus := rfl
@[simp] theorem State.setSlot_mem (d k n v : Nat) : (s.setSlot d k n v).mem = s.mem := rfl
@[simp] theorem State.setSlot_ecc (d k n v : Nat) : (s.setSlot d k n v).ecc = s.ecc := rfl
@[simp] theorem State.setSlot_regs (d k n v : Nat) : (s.setSlot d k n v).regs = s.regs := rfl
@[simp] theorem State.setSlot_pages (d k n v : Nat) : (s.setSlot d k n v).pages = s.pages := rfl
@[simp] theorem State.setSlot_groups (d k n v : Nat) : (s.setSlot d k n v).groups = s.groups := rfl
@[simp] theorem State.setSlot_hold (d k n v : Nat) : (s.setSlot d k n v).hold = s.hold := rfl
@[simp] theorem State.setSlot_berths (d k n v : Nat) : (s.setSlot d k n v).berths = s.berths := rfl
@[simp] theorem State.setSlot_rowCe (d k n v : Nat) : (s.setSlot d k n v).rowCe = s.rowCe := rfl
@[simp] theorem State.setSlot_repairQ (d k n v : Nat) : (s.setSlot d k n v).repairQ = s.repairQ := rfl
@[simp] theorem State.setSlot_eps (d k n v : Nat) : (s.setSlot d k n v).eps = s.eps := rfl
@[simp] theorem State.setSlot_flying (d k n v : Nat) : (s.setSlot d k n v).flying = s.flying := rfl
@[simp] theorem State.setSlot_faultLog (d k n v : Nat) : (s.setSlot d k n v).faultLog = s.faultLog := rfl
@[simp] theorem State.setSlot_faultSeq (d k n v : Nat) : (s.setSlot d k n v).faultSeq = s.faultSeq := rfl
@[simp] theorem State.setSlot_pads (d k n v : Nat) : (s.setSlot d k n v).pads = s.pads := rfl
@[simp] theorem State.setSlot_sync (d k n v : Nat) : (s.setSlot d k n v).sync = s.sync := rfl
@[simp] theorem State.setSlot_domains (d k n v : Nat) : (s.setSlot d k n v).domains = s.domains := rfl
@[simp] theorem State.setSlot_prof (d k n v : Nat) : (s.setSlot d k n v).prof = s.prof := rfl
@[simp] theorem State.setSlot_slices (d k n v : Nat) : (s.setSlot d k n v).slices = s.slices := rfl
@[simp] theorem State.setSlot_follow (d k n v : Nat) : (s.setSlot d k n v).follow = s.follow := rfl
@[simp] theorem State.setSlot_htT (d k n v : Nat) : (s.setSlot d k n v).htT = s.htT := rfl
@[simp] theorem State.setSlot_pipes (d k n v : Nat) : (s.setSlot d k n v).pipes = s.pipes := rfl
@[simp] theorem State.setSlot_quays (d k n v : Nat) : (s.setSlot d k n v).quays = s.quays := rfl
@[simp] theorem State.setSlot_testLog (d k n v : Nat) : (s.setSlot d k n v).testLog = s.testLog := rfl
@[simp] theorem State.setSlot_spareAt (d k n v : Nat) : (s.setSlot d k n v).spareAt = s.spareAt := rfl
@[simp] theorem State.setSlot_engAt (d k n v : Nat) : (s.setSlot d k n v).engAt = s.engAt := rfl
@[simp] theorem State.setSlot_voteAt (d k n v : Nat) : (s.setSlot d k n v).voteAt = s.voteAt := rfl
@[simp] theorem State.setSlot_latches (d k n v : Nat) : (s.setSlot d k n v).latches = s.latches := rfl
@[simp] theorem State.setSlot_patrol (d k n v : Nat) : (s.setSlot d k n v).patrol = s.patrol := rfl
@[simp] theorem State.setSlot_repairing (d k n v : Nat) : (s.setSlot d k n v).repairing = s.repairing := rfl
@[simp] theorem State.setSlot_retire (d k n v : Nat) : (s.setSlot d k n v).retire = s.retire := rfl
@[simp] theorem State.setSlot_mctp (d k n v : Nat) : (s.setSlot d k n v).mctp = s.mctp := rfl
@[simp] theorem State.setSlot_denied (d k n v : Nat) : (s.setSlot d k n v).denied = s.denied := rfl
@[simp] theorem State.setSlot_ptp (d k n v : Nat) : (s.setSlot d k n v).ptp = s.ptp := rfl
@[simp] theorem State.setSlot_pw (d k n v : Nat) : (s.setSlot d k n v).pw = s.pw := rfl
@[simp] theorem State.setSlot_entries (d k n v : Nat) : (s.setSlot d k n v).entries = s.entries := rfl
@[simp] theorem State.setSlot_keeper (d k n v : Nat) : (s.setSlot d k n v).keeper = s.keeper := rfl
@[simp] theorem State.setSlot_otp (d k n v : Nat) : (s.setSlot d k n v).otp = s.otp := rfl
@[simp] theorem State.setSlot_flash (d k n v : Nat) : (s.setSlot d k n v).flash = s.flash := rfl
@[simp] theorem State.setSlot_profTable (d k n v : Nat) : (s.setSlot d k n v).profTable = s.profTable := rfl
@[simp] theorem State.setSlot_keyStore (d k n v : Nat) : (s.setSlot d k n v).keyStore = s.keyStore := rfl
@[simp] theorem State.setSlot_attKey (d k n v : Nat) : (s.setSlot d k n v).attKey = s.attKey := rfl
@[simp] theorem State.setSlot_scanned (d k n v : Nat) : (s.setSlot d k n v).scanned = s.scanned := rfl
@[simp] theorem State.setSlot_fwVer (d k n v : Nat) : (s.setSlot d k n v).fwVer = s.fwVer := rfl
@[simp] theorem State.setSlot_dieImg (d k n v : Nat) : (s.setSlot d k n v).dieImg = s.dieImg := rfl
@[simp] theorem State.setSlot_dockImg (d k n v : Nat) : (s.setSlot d k n v).dockImg = s.dockImg := rfl
@[simp] theorem State.setSlot_cstore (d k n v : Nat) : (s.setSlot d k n v).cstore = s.cstore := rfl
@[simp] theorem State.setSlot_newRepairs (d k n v : Nat) : (s.setSlot d k n v).newRepairs = s.newRepairs := rfl
@[simp] theorem State.setSlot_repairs (d k n v : Nat) : (s.setSlot d k n v).repairs = s.repairs := rfl
@[simp] theorem State.setSlot_repairCopy (d k n v : Nat) : (s.setSlot d k n v).repairCopy = s.repairCopy := rfl
@[simp] theorem State.setSlot_repairSeq (d k n v : Nat) : (s.setSlot d k n v).repairSeq = s.repairSeq := rfl
@[simp] theorem State.setSlot_sessions (d k n v : Nat) : (s.setSlot d k n v).sessions = s.sessions := rfl
@[simp] theorem State.setSlot_chain (d k n v : Nat) : (s.setSlot d k n v).chain = s.chain := rfl
@[simp] theorem State.setSlot_wdogAt (d k n v : Nat) : (s.setSlot d k n v).wdogAt = s.wdogAt := rfl
@[simp] theorem State.setSlot_thermTrip (d k n v : Nat) : (s.setSlot d k n v).thermTrip = s.thermTrip := rfl
@[simp] theorem State.setSlot_toggles (d k n v : Nat) : (s.setSlot d k n v).toggles = s.toggles := rfl
@[simp] theorem State.setSlot_hmHalt (d k n v : Nat) : (s.setSlot d k n v).hmHalt = s.hmHalt := rfl
@[simp] theorem State.setSlot_wdogFired (d k n v : Nat) : (s.setSlot d k n v).wdogFired = s.wdogFired := rfl
@[simp] theorem State.setSlot_adcAt (d k n v : Nat) : (s.setSlot d k n v).adcAt = s.adcAt := rfl
@[simp] theorem State.setSlot_eids (d k n v : Nat) : (s.setSlot d k n v).eids = s.eids := rfl
@[simp] theorem State.setSlot_spdmSeq (d k n v : Nat) : (s.setSlot d k n v).spdmSeq = s.spdmSeq := rfl
@[simp] theorem State.setSlot_cyc (d k n v : Nat) : (s.setSlot d k n v).cyc = s.cyc := rfl
@[simp] theorem State.setSlot_corr (d k n v : Nat) : (s.setSlot d k n v).corr = s.corr := rfl
@[simp] theorem State.setSlot_ptpRun (d k n v : Nat) : (s.setSlot d k n v).ptpRun = s.ptpRun := rfl
@[simp] theorem State.setSlot_memRows (d k n v : Nat) : (s.setSlot d k n v).memRows = s.memRows := rfl
@[simp] theorem State.setSlot_bootAt (d k n v : Nat) : (s.setSlot d k n v).bootAt = s.bootAt := rfl
@[simp] theorem State.setSlot_outside (d k n v : Nat) : (s.setSlot d k n v).outside = s.outside := rfl
@[simp] theorem State.setSlot_switches (d k n v : Nat) : (s.setSlot d k n v).switches = s.switches := rfl
@[simp] theorem State.setSlot_now (d k n v : Nat) : (s.setSlot d k n v).now = s.now := rfl
@[simp] theorem State.setSlot_serving (d k n v : Nat) : (s.setSlot d k n v).serving = s.serving := rfl
@[simp] theorem State.setSlot_reg (d k n v : Nat) (r : Nat) : (s.setSlot d k n v).reg r = s.reg r := rfl
@[simp] theorem State.setSlot_fld (d k n v : Nat) (r hi lo : Nat) : (s.setSlot d k n v).fld r hi lo = s.fld r hi lo := rfl
@[simp] theorem State.setSlot_flag (d k n v : Nat) (r i : Nat) : (s.setSlot d k n v).flag r i = s.flag r i := rfl
@[simp] theorem State.setSlot_berth (d k n v : Nat) (i : Nat) : (s.setSlot d k n v).berth i = s.berth i := rfl
@[simp] theorem State.setSlot_word (d k n v : Nat) (i : Nat) : (s.setSlot d k n v).word i = s.word i := rfl
@[simp] theorem State.setSlot_page (d k n v : Nat) (i j : Nat) : (s.setSlot d k n v).page i j = s.page i j := rfl
@[simp] theorem State.setSlot_ep (d k n v : Nat) (i : Nat) : (s.setSlot d k n v).ep i = s.ep i := rfl
@[simp] theorem State.setSlot_quay (d k n v : Nat) (i : Nat) : (s.setSlot d k n v).quay i = s.quay i := rfl
@[simp] theorem State.setSlot_domain (d k n v : Nat) (i kc : Nat) : (s.setSlot d k n v).domain i kc = s.domain i kc := rfl
@[simp] theorem State.setSlot_pipeOf (d k n v : Nat) (i j : Nat) : (s.setSlot d k n v).pipeOf i j = s.pipeOf i j := rfl
@[simp] theorem State.setSlot_hasDie (d k n v : Nat) (i : Nat) : (s.setSlot d k n v).hasDie i = s.hasDie i := rfl
@[simp] theorem State.setSlot_hasQuay (d k n v : Nat) (i : Nat) : (s.setSlot d k n v).hasQuay i = s.hasQuay i := rfl

/-! putWord changes mem. -/

@[simp] theorem State.putWord_part (w : Nat) (v : Word) : (s.putWord w v).part = s.part := rfl
@[simp] theorem State.putWord_pending (w : Nat) (v : Word) : (s.putWord w v).pending = s.pending := rfl
@[simp] theorem State.putWord_htime (w : Nat) (v : Word) : (s.putWord w v).htime = s.htime := rfl
@[simp] theorem State.putWord_draws (w : Nat) (v : Word) : (s.putWord w v).draws = s.draws := rfl
@[simp] theorem State.putWord_bus (w : Nat) (v : Word) : (s.putWord w v).bus = s.bus := rfl
@[simp] theorem State.putWord_ecc (w : Nat) (v : Word) : (s.putWord w v).ecc = s.ecc := rfl
@[simp] theorem State.putWord_regs (w : Nat) (v : Word) : (s.putWord w v).regs = s.regs := rfl
@[simp] theorem State.putWord_pages (w : Nat) (v : Word) : (s.putWord w v).pages = s.pages := rfl
@[simp] theorem State.putWord_groups (w : Nat) (v : Word) : (s.putWord w v).groups = s.groups := rfl
@[simp] theorem State.putWord_hold (w : Nat) (v : Word) : (s.putWord w v).hold = s.hold := rfl
@[simp] theorem State.putWord_berths (w : Nat) (v : Word) : (s.putWord w v).berths = s.berths := rfl
@[simp] theorem State.putWord_rowCe (w : Nat) (v : Word) : (s.putWord w v).rowCe = s.rowCe := rfl
@[simp] theorem State.putWord_repairQ (w : Nat) (v : Word) : (s.putWord w v).repairQ = s.repairQ := rfl
@[simp] theorem State.putWord_slots (w : Nat) (v : Word) : (s.putWord w v).slots = s.slots := rfl
@[simp] theorem State.putWord_eps (w : Nat) (v : Word) : (s.putWord w v).eps = s.eps := rfl
@[simp] theorem State.putWord_flying (w : Nat) (v : Word) : (s.putWord w v).flying = s.flying := rfl
@[simp] theorem State.putWord_faultLog (w : Nat) (v : Word) : (s.putWord w v).faultLog = s.faultLog := rfl
@[simp] theorem State.putWord_faultSeq (w : Nat) (v : Word) : (s.putWord w v).faultSeq = s.faultSeq := rfl
@[simp] theorem State.putWord_pads (w : Nat) (v : Word) : (s.putWord w v).pads = s.pads := rfl
@[simp] theorem State.putWord_sync (w : Nat) (v : Word) : (s.putWord w v).sync = s.sync := rfl
@[simp] theorem State.putWord_domains (w : Nat) (v : Word) : (s.putWord w v).domains = s.domains := rfl
@[simp] theorem State.putWord_prof (w : Nat) (v : Word) : (s.putWord w v).prof = s.prof := rfl
@[simp] theorem State.putWord_slices (w : Nat) (v : Word) : (s.putWord w v).slices = s.slices := rfl
@[simp] theorem State.putWord_follow (w : Nat) (v : Word) : (s.putWord w v).follow = s.follow := rfl
@[simp] theorem State.putWord_htT (w : Nat) (v : Word) : (s.putWord w v).htT = s.htT := rfl
@[simp] theorem State.putWord_pipes (w : Nat) (v : Word) : (s.putWord w v).pipes = s.pipes := rfl
@[simp] theorem State.putWord_quays (w : Nat) (v : Word) : (s.putWord w v).quays = s.quays := rfl
@[simp] theorem State.putWord_testLog (w : Nat) (v : Word) : (s.putWord w v).testLog = s.testLog := rfl
@[simp] theorem State.putWord_spareAt (w : Nat) (v : Word) : (s.putWord w v).spareAt = s.spareAt := rfl
@[simp] theorem State.putWord_engAt (w : Nat) (v : Word) : (s.putWord w v).engAt = s.engAt := rfl
@[simp] theorem State.putWord_voteAt (w : Nat) (v : Word) : (s.putWord w v).voteAt = s.voteAt := rfl
@[simp] theorem State.putWord_latches (w : Nat) (v : Word) : (s.putWord w v).latches = s.latches := rfl
@[simp] theorem State.putWord_patrol (w : Nat) (v : Word) : (s.putWord w v).patrol = s.patrol := rfl
@[simp] theorem State.putWord_repairing (w : Nat) (v : Word) : (s.putWord w v).repairing = s.repairing := rfl
@[simp] theorem State.putWord_retire (w : Nat) (v : Word) : (s.putWord w v).retire = s.retire := rfl
@[simp] theorem State.putWord_mctp (w : Nat) (v : Word) : (s.putWord w v).mctp = s.mctp := rfl
@[simp] theorem State.putWord_denied (w : Nat) (v : Word) : (s.putWord w v).denied = s.denied := rfl
@[simp] theorem State.putWord_ptp (w : Nat) (v : Word) : (s.putWord w v).ptp = s.ptp := rfl
@[simp] theorem State.putWord_pw (w : Nat) (v : Word) : (s.putWord w v).pw = s.pw := rfl
@[simp] theorem State.putWord_entries (w : Nat) (v : Word) : (s.putWord w v).entries = s.entries := rfl
@[simp] theorem State.putWord_keeper (w : Nat) (v : Word) : (s.putWord w v).keeper = s.keeper := rfl
@[simp] theorem State.putWord_otp (w : Nat) (v : Word) : (s.putWord w v).otp = s.otp := rfl
@[simp] theorem State.putWord_flash (w : Nat) (v : Word) : (s.putWord w v).flash = s.flash := rfl
@[simp] theorem State.putWord_profTable (w : Nat) (v : Word) : (s.putWord w v).profTable = s.profTable := rfl
@[simp] theorem State.putWord_keyStore (w : Nat) (v : Word) : (s.putWord w v).keyStore = s.keyStore := rfl
@[simp] theorem State.putWord_attKey (w : Nat) (v : Word) : (s.putWord w v).attKey = s.attKey := rfl
@[simp] theorem State.putWord_scanned (w : Nat) (v : Word) : (s.putWord w v).scanned = s.scanned := rfl
@[simp] theorem State.putWord_fwVer (w : Nat) (v : Word) : (s.putWord w v).fwVer = s.fwVer := rfl
@[simp] theorem State.putWord_dieImg (w : Nat) (v : Word) : (s.putWord w v).dieImg = s.dieImg := rfl
@[simp] theorem State.putWord_dockImg (w : Nat) (v : Word) : (s.putWord w v).dockImg = s.dockImg := rfl
@[simp] theorem State.putWord_cstore (w : Nat) (v : Word) : (s.putWord w v).cstore = s.cstore := rfl
@[simp] theorem State.putWord_newRepairs (w : Nat) (v : Word) : (s.putWord w v).newRepairs = s.newRepairs := rfl
@[simp] theorem State.putWord_repairs (w : Nat) (v : Word) : (s.putWord w v).repairs = s.repairs := rfl
@[simp] theorem State.putWord_repairCopy (w : Nat) (v : Word) : (s.putWord w v).repairCopy = s.repairCopy := rfl
@[simp] theorem State.putWord_repairSeq (w : Nat) (v : Word) : (s.putWord w v).repairSeq = s.repairSeq := rfl
@[simp] theorem State.putWord_sessions (w : Nat) (v : Word) : (s.putWord w v).sessions = s.sessions := rfl
@[simp] theorem State.putWord_chain (w : Nat) (v : Word) : (s.putWord w v).chain = s.chain := rfl
@[simp] theorem State.putWord_wdogAt (w : Nat) (v : Word) : (s.putWord w v).wdogAt = s.wdogAt := rfl
@[simp] theorem State.putWord_thermTrip (w : Nat) (v : Word) : (s.putWord w v).thermTrip = s.thermTrip := rfl
@[simp] theorem State.putWord_toggles (w : Nat) (v : Word) : (s.putWord w v).toggles = s.toggles := rfl
@[simp] theorem State.putWord_hmHalt (w : Nat) (v : Word) : (s.putWord w v).hmHalt = s.hmHalt := rfl
@[simp] theorem State.putWord_wdogFired (w : Nat) (v : Word) : (s.putWord w v).wdogFired = s.wdogFired := rfl
@[simp] theorem State.putWord_adcAt (w : Nat) (v : Word) : (s.putWord w v).adcAt = s.adcAt := rfl
@[simp] theorem State.putWord_eids (w : Nat) (v : Word) : (s.putWord w v).eids = s.eids := rfl
@[simp] theorem State.putWord_spdmSeq (w : Nat) (v : Word) : (s.putWord w v).spdmSeq = s.spdmSeq := rfl
@[simp] theorem State.putWord_cyc (w : Nat) (v : Word) : (s.putWord w v).cyc = s.cyc := rfl
@[simp] theorem State.putWord_corr (w : Nat) (v : Word) : (s.putWord w v).corr = s.corr := rfl
@[simp] theorem State.putWord_ptpRun (w : Nat) (v : Word) : (s.putWord w v).ptpRun = s.ptpRun := rfl
@[simp] theorem State.putWord_memRows (w : Nat) (v : Word) : (s.putWord w v).memRows = s.memRows := rfl
@[simp] theorem State.putWord_bootAt (w : Nat) (v : Word) : (s.putWord w v).bootAt = s.bootAt := rfl
@[simp] theorem State.putWord_outside (w : Nat) (v : Word) : (s.putWord w v).outside = s.outside := rfl
@[simp] theorem State.putWord_switches (w : Nat) (v : Word) : (s.putWord w v).switches = s.switches := rfl
@[simp] theorem State.putWord_now (w : Nat) (v : Word) : (s.putWord w v).now = s.now := rfl
@[simp] theorem State.putWord_serving (w : Nat) (v : Word) : (s.putWord w v).serving = s.serving := rfl
@[simp] theorem State.putWord_reg (w : Nat) (v : Word) (r : Nat) : (s.putWord w v).reg r = s.reg r := rfl
@[simp] theorem State.putWord_fld (w : Nat) (v : Word) (r hi lo : Nat) : (s.putWord w v).fld r hi lo = s.fld r hi lo := rfl
@[simp] theorem State.putWord_flag (w : Nat) (v : Word) (r i : Nat) : (s.putWord w v).flag r i = s.flag r i := rfl
@[simp] theorem State.putWord_berth (w : Nat) (v : Word) (i : Nat) : (s.putWord w v).berth i = s.berth i := rfl
@[simp] theorem State.putWord_slot (w : Nat) (v : Word) (i j l : Nat) : (s.putWord w v).slot i j l = s.slot i j l := rfl
@[simp] theorem State.putWord_page (w : Nat) (v : Word) (i j : Nat) : (s.putWord w v).page i j = s.page i j := rfl
@[simp] theorem State.putWord_ep (w : Nat) (v : Word) (i : Nat) : (s.putWord w v).ep i = s.ep i := rfl
@[simp] theorem State.putWord_quay (w : Nat) (v : Word) (i : Nat) : (s.putWord w v).quay i = s.quay i := rfl
@[simp] theorem State.putWord_domain (w : Nat) (v : Word) (i kc : Nat) : (s.putWord w v).domain i kc = s.domain i kc := rfl
@[simp] theorem State.putWord_pipeOf (w : Nat) (v : Word) (i j : Nat) : (s.putWord w v).pipeOf i j = s.pipeOf i j := rfl
@[simp] theorem State.putWord_hasDie (w : Nat) (v : Word) (i : Nat) : (s.putWord w v).hasDie i = s.hasDie i := rfl
@[simp] theorem State.putWord_hasQuay (w : Nat) (v : Word) (i : Nat) : (s.putWord w v).hasQuay i = s.hasQuay i := rfl

/-! respond changes bus. -/

@[simp] theorem State.respond_part (b : BusResp) : (s.respond b).part = s.part := rfl
@[simp] theorem State.respond_pending (b : BusResp) : (s.respond b).pending = s.pending := rfl
@[simp] theorem State.respond_htime (b : BusResp) : (s.respond b).htime = s.htime := rfl
@[simp] theorem State.respond_draws (b : BusResp) : (s.respond b).draws = s.draws := rfl
@[simp] theorem State.respond_mem (b : BusResp) : (s.respond b).mem = s.mem := rfl
@[simp] theorem State.respond_ecc (b : BusResp) : (s.respond b).ecc = s.ecc := rfl
@[simp] theorem State.respond_regs (b : BusResp) : (s.respond b).regs = s.regs := rfl
@[simp] theorem State.respond_pages (b : BusResp) : (s.respond b).pages = s.pages := rfl
@[simp] theorem State.respond_groups (b : BusResp) : (s.respond b).groups = s.groups := rfl
@[simp] theorem State.respond_hold (b : BusResp) : (s.respond b).hold = s.hold := rfl
@[simp] theorem State.respond_berths (b : BusResp) : (s.respond b).berths = s.berths := rfl
@[simp] theorem State.respond_rowCe (b : BusResp) : (s.respond b).rowCe = s.rowCe := rfl
@[simp] theorem State.respond_repairQ (b : BusResp) : (s.respond b).repairQ = s.repairQ := rfl
@[simp] theorem State.respond_slots (b : BusResp) : (s.respond b).slots = s.slots := rfl
@[simp] theorem State.respond_eps (b : BusResp) : (s.respond b).eps = s.eps := rfl
@[simp] theorem State.respond_flying (b : BusResp) : (s.respond b).flying = s.flying := rfl
@[simp] theorem State.respond_faultLog (b : BusResp) : (s.respond b).faultLog = s.faultLog := rfl
@[simp] theorem State.respond_faultSeq (b : BusResp) : (s.respond b).faultSeq = s.faultSeq := rfl
@[simp] theorem State.respond_pads (b : BusResp) : (s.respond b).pads = s.pads := rfl
@[simp] theorem State.respond_sync (b : BusResp) : (s.respond b).sync = s.sync := rfl
@[simp] theorem State.respond_domains (b : BusResp) : (s.respond b).domains = s.domains := rfl
@[simp] theorem State.respond_prof (b : BusResp) : (s.respond b).prof = s.prof := rfl
@[simp] theorem State.respond_slices (b : BusResp) : (s.respond b).slices = s.slices := rfl
@[simp] theorem State.respond_follow (b : BusResp) : (s.respond b).follow = s.follow := rfl
@[simp] theorem State.respond_htT (b : BusResp) : (s.respond b).htT = s.htT := rfl
@[simp] theorem State.respond_pipes (b : BusResp) : (s.respond b).pipes = s.pipes := rfl
@[simp] theorem State.respond_quays (b : BusResp) : (s.respond b).quays = s.quays := rfl
@[simp] theorem State.respond_testLog (b : BusResp) : (s.respond b).testLog = s.testLog := rfl
@[simp] theorem State.respond_spareAt (b : BusResp) : (s.respond b).spareAt = s.spareAt := rfl
@[simp] theorem State.respond_engAt (b : BusResp) : (s.respond b).engAt = s.engAt := rfl
@[simp] theorem State.respond_voteAt (b : BusResp) : (s.respond b).voteAt = s.voteAt := rfl
@[simp] theorem State.respond_latches (b : BusResp) : (s.respond b).latches = s.latches := rfl
@[simp] theorem State.respond_patrol (b : BusResp) : (s.respond b).patrol = s.patrol := rfl
@[simp] theorem State.respond_repairing (b : BusResp) : (s.respond b).repairing = s.repairing := rfl
@[simp] theorem State.respond_retire (b : BusResp) : (s.respond b).retire = s.retire := rfl
@[simp] theorem State.respond_mctp (b : BusResp) : (s.respond b).mctp = s.mctp := rfl
@[simp] theorem State.respond_denied (b : BusResp) : (s.respond b).denied = s.denied := rfl
@[simp] theorem State.respond_ptp (b : BusResp) : (s.respond b).ptp = s.ptp := rfl
@[simp] theorem State.respond_pw (b : BusResp) : (s.respond b).pw = s.pw := rfl
@[simp] theorem State.respond_entries (b : BusResp) : (s.respond b).entries = s.entries := rfl
@[simp] theorem State.respond_keeper (b : BusResp) : (s.respond b).keeper = s.keeper := rfl
@[simp] theorem State.respond_otp (b : BusResp) : (s.respond b).otp = s.otp := rfl
@[simp] theorem State.respond_flash (b : BusResp) : (s.respond b).flash = s.flash := rfl
@[simp] theorem State.respond_profTable (b : BusResp) : (s.respond b).profTable = s.profTable := rfl
@[simp] theorem State.respond_keyStore (b : BusResp) : (s.respond b).keyStore = s.keyStore := rfl
@[simp] theorem State.respond_attKey (b : BusResp) : (s.respond b).attKey = s.attKey := rfl
@[simp] theorem State.respond_scanned (b : BusResp) : (s.respond b).scanned = s.scanned := rfl
@[simp] theorem State.respond_fwVer (b : BusResp) : (s.respond b).fwVer = s.fwVer := rfl
@[simp] theorem State.respond_dieImg (b : BusResp) : (s.respond b).dieImg = s.dieImg := rfl
@[simp] theorem State.respond_dockImg (b : BusResp) : (s.respond b).dockImg = s.dockImg := rfl
@[simp] theorem State.respond_cstore (b : BusResp) : (s.respond b).cstore = s.cstore := rfl
@[simp] theorem State.respond_newRepairs (b : BusResp) : (s.respond b).newRepairs = s.newRepairs := rfl
@[simp] theorem State.respond_repairs (b : BusResp) : (s.respond b).repairs = s.repairs := rfl
@[simp] theorem State.respond_repairCopy (b : BusResp) : (s.respond b).repairCopy = s.repairCopy := rfl
@[simp] theorem State.respond_repairSeq (b : BusResp) : (s.respond b).repairSeq = s.repairSeq := rfl
@[simp] theorem State.respond_sessions (b : BusResp) : (s.respond b).sessions = s.sessions := rfl
@[simp] theorem State.respond_chain (b : BusResp) : (s.respond b).chain = s.chain := rfl
@[simp] theorem State.respond_wdogAt (b : BusResp) : (s.respond b).wdogAt = s.wdogAt := rfl
@[simp] theorem State.respond_thermTrip (b : BusResp) : (s.respond b).thermTrip = s.thermTrip := rfl
@[simp] theorem State.respond_toggles (b : BusResp) : (s.respond b).toggles = s.toggles := rfl
@[simp] theorem State.respond_hmHalt (b : BusResp) : (s.respond b).hmHalt = s.hmHalt := rfl
@[simp] theorem State.respond_wdogFired (b : BusResp) : (s.respond b).wdogFired = s.wdogFired := rfl
@[simp] theorem State.respond_adcAt (b : BusResp) : (s.respond b).adcAt = s.adcAt := rfl
@[simp] theorem State.respond_eids (b : BusResp) : (s.respond b).eids = s.eids := rfl
@[simp] theorem State.respond_spdmSeq (b : BusResp) : (s.respond b).spdmSeq = s.spdmSeq := rfl
@[simp] theorem State.respond_cyc (b : BusResp) : (s.respond b).cyc = s.cyc := rfl
@[simp] theorem State.respond_corr (b : BusResp) : (s.respond b).corr = s.corr := rfl
@[simp] theorem State.respond_ptpRun (b : BusResp) : (s.respond b).ptpRun = s.ptpRun := rfl
@[simp] theorem State.respond_memRows (b : BusResp) : (s.respond b).memRows = s.memRows := rfl
@[simp] theorem State.respond_bootAt (b : BusResp) : (s.respond b).bootAt = s.bootAt := rfl
@[simp] theorem State.respond_outside (b : BusResp) : (s.respond b).outside = s.outside := rfl
@[simp] theorem State.respond_switches (b : BusResp) : (s.respond b).switches = s.switches := rfl
@[simp] theorem State.respond_now (b : BusResp) : (s.respond b).now = s.now := rfl
@[simp] theorem State.respond_serving (b : BusResp) : (s.respond b).serving = s.serving := rfl
@[simp] theorem State.respond_reg (b : BusResp) (r : Nat) : (s.respond b).reg r = s.reg r := rfl
@[simp] theorem State.respond_fld (b : BusResp) (r hi lo : Nat) : (s.respond b).fld r hi lo = s.fld r hi lo := rfl
@[simp] theorem State.respond_flag (b : BusResp) (r i : Nat) : (s.respond b).flag r i = s.flag r i := rfl
@[simp] theorem State.respond_berth (b : BusResp) (i : Nat) : (s.respond b).berth i = s.berth i := rfl
@[simp] theorem State.respond_slot (b : BusResp) (i j l : Nat) : (s.respond b).slot i j l = s.slot i j l := rfl
@[simp] theorem State.respond_word (b : BusResp) (i : Nat) : (s.respond b).word i = s.word i := rfl
@[simp] theorem State.respond_page (b : BusResp) (i j : Nat) : (s.respond b).page i j = s.page i j := rfl
@[simp] theorem State.respond_ep (b : BusResp) (i : Nat) : (s.respond b).ep i = s.ep i := rfl
@[simp] theorem State.respond_quay (b : BusResp) (i : Nat) : (s.respond b).quay i = s.quay i := rfl
@[simp] theorem State.respond_domain (b : BusResp) (i kc : Nat) : (s.respond b).domain i kc = s.domain i kc := rfl
@[simp] theorem State.respond_pipeOf (b : BusResp) (i j : Nat) : (s.respond b).pipeOf i j = s.pipeOf i j := rfl
@[simp] theorem State.respond_hasDie (b : BusResp) (i : Nat) : (s.respond b).hasDie i = s.hasDie i := rfl
@[simp] theorem State.respond_hasQuay (b : BusResp) (i : Nat) : (s.respond b).hasQuay i = s.hasQuay i := rfl

/-! modQuay changes quays. -/

@[simp] theorem State.modQuay_part (q : Nat) (g : Quay → Quay) : (s.modQuay q g).part = s.part := rfl
@[simp] theorem State.modQuay_pending (q : Nat) (g : Quay → Quay) : (s.modQuay q g).pending = s.pending := rfl
@[simp] theorem State.modQuay_htime (q : Nat) (g : Quay → Quay) : (s.modQuay q g).htime = s.htime := rfl
@[simp] theorem State.modQuay_draws (q : Nat) (g : Quay → Quay) : (s.modQuay q g).draws = s.draws := rfl
@[simp] theorem State.modQuay_bus (q : Nat) (g : Quay → Quay) : (s.modQuay q g).bus = s.bus := rfl
@[simp] theorem State.modQuay_mem (q : Nat) (g : Quay → Quay) : (s.modQuay q g).mem = s.mem := rfl
@[simp] theorem State.modQuay_ecc (q : Nat) (g : Quay → Quay) : (s.modQuay q g).ecc = s.ecc := rfl
@[simp] theorem State.modQuay_regs (q : Nat) (g : Quay → Quay) : (s.modQuay q g).regs = s.regs := rfl
@[simp] theorem State.modQuay_pages (q : Nat) (g : Quay → Quay) : (s.modQuay q g).pages = s.pages := rfl
@[simp] theorem State.modQuay_groups (q : Nat) (g : Quay → Quay) : (s.modQuay q g).groups = s.groups := rfl
@[simp] theorem State.modQuay_hold (q : Nat) (g : Quay → Quay) : (s.modQuay q g).hold = s.hold := rfl
@[simp] theorem State.modQuay_berths (q : Nat) (g : Quay → Quay) : (s.modQuay q g).berths = s.berths := rfl
@[simp] theorem State.modQuay_rowCe (q : Nat) (g : Quay → Quay) : (s.modQuay q g).rowCe = s.rowCe := rfl
@[simp] theorem State.modQuay_repairQ (q : Nat) (g : Quay → Quay) : (s.modQuay q g).repairQ = s.repairQ := rfl
@[simp] theorem State.modQuay_slots (q : Nat) (g : Quay → Quay) : (s.modQuay q g).slots = s.slots := rfl
@[simp] theorem State.modQuay_eps (q : Nat) (g : Quay → Quay) : (s.modQuay q g).eps = s.eps := rfl
@[simp] theorem State.modQuay_flying (q : Nat) (g : Quay → Quay) : (s.modQuay q g).flying = s.flying := rfl
@[simp] theorem State.modQuay_faultLog (q : Nat) (g : Quay → Quay) : (s.modQuay q g).faultLog = s.faultLog := rfl
@[simp] theorem State.modQuay_faultSeq (q : Nat) (g : Quay → Quay) : (s.modQuay q g).faultSeq = s.faultSeq := rfl
@[simp] theorem State.modQuay_pads (q : Nat) (g : Quay → Quay) : (s.modQuay q g).pads = s.pads := rfl
@[simp] theorem State.modQuay_sync (q : Nat) (g : Quay → Quay) : (s.modQuay q g).sync = s.sync := rfl
@[simp] theorem State.modQuay_domains (q : Nat) (g : Quay → Quay) : (s.modQuay q g).domains = s.domains := rfl
@[simp] theorem State.modQuay_prof (q : Nat) (g : Quay → Quay) : (s.modQuay q g).prof = s.prof := rfl
@[simp] theorem State.modQuay_slices (q : Nat) (g : Quay → Quay) : (s.modQuay q g).slices = s.slices := rfl
@[simp] theorem State.modQuay_follow (q : Nat) (g : Quay → Quay) : (s.modQuay q g).follow = s.follow := rfl
@[simp] theorem State.modQuay_htT (q : Nat) (g : Quay → Quay) : (s.modQuay q g).htT = s.htT := rfl
@[simp] theorem State.modQuay_pipes (q : Nat) (g : Quay → Quay) : (s.modQuay q g).pipes = s.pipes := rfl
@[simp] theorem State.modQuay_testLog (q : Nat) (g : Quay → Quay) : (s.modQuay q g).testLog = s.testLog := rfl
@[simp] theorem State.modQuay_spareAt (q : Nat) (g : Quay → Quay) : (s.modQuay q g).spareAt = s.spareAt := rfl
@[simp] theorem State.modQuay_engAt (q : Nat) (g : Quay → Quay) : (s.modQuay q g).engAt = s.engAt := rfl
@[simp] theorem State.modQuay_voteAt (q : Nat) (g : Quay → Quay) : (s.modQuay q g).voteAt = s.voteAt := rfl
@[simp] theorem State.modQuay_latches (q : Nat) (g : Quay → Quay) : (s.modQuay q g).latches = s.latches := rfl
@[simp] theorem State.modQuay_patrol (q : Nat) (g : Quay → Quay) : (s.modQuay q g).patrol = s.patrol := rfl
@[simp] theorem State.modQuay_repairing (q : Nat) (g : Quay → Quay) : (s.modQuay q g).repairing = s.repairing := rfl
@[simp] theorem State.modQuay_retire (q : Nat) (g : Quay → Quay) : (s.modQuay q g).retire = s.retire := rfl
@[simp] theorem State.modQuay_mctp (q : Nat) (g : Quay → Quay) : (s.modQuay q g).mctp = s.mctp := rfl
@[simp] theorem State.modQuay_denied (q : Nat) (g : Quay → Quay) : (s.modQuay q g).denied = s.denied := rfl
@[simp] theorem State.modQuay_ptp (q : Nat) (g : Quay → Quay) : (s.modQuay q g).ptp = s.ptp := rfl
@[simp] theorem State.modQuay_pw (q : Nat) (g : Quay → Quay) : (s.modQuay q g).pw = s.pw := rfl
@[simp] theorem State.modQuay_entries (q : Nat) (g : Quay → Quay) : (s.modQuay q g).entries = s.entries := rfl
@[simp] theorem State.modQuay_keeper (q : Nat) (g : Quay → Quay) : (s.modQuay q g).keeper = s.keeper := rfl
@[simp] theorem State.modQuay_otp (q : Nat) (g : Quay → Quay) : (s.modQuay q g).otp = s.otp := rfl
@[simp] theorem State.modQuay_flash (q : Nat) (g : Quay → Quay) : (s.modQuay q g).flash = s.flash := rfl
@[simp] theorem State.modQuay_profTable (q : Nat) (g : Quay → Quay) : (s.modQuay q g).profTable = s.profTable := rfl
@[simp] theorem State.modQuay_keyStore (q : Nat) (g : Quay → Quay) : (s.modQuay q g).keyStore = s.keyStore := rfl
@[simp] theorem State.modQuay_attKey (q : Nat) (g : Quay → Quay) : (s.modQuay q g).attKey = s.attKey := rfl
@[simp] theorem State.modQuay_scanned (q : Nat) (g : Quay → Quay) : (s.modQuay q g).scanned = s.scanned := rfl
@[simp] theorem State.modQuay_fwVer (q : Nat) (g : Quay → Quay) : (s.modQuay q g).fwVer = s.fwVer := rfl
@[simp] theorem State.modQuay_dieImg (q : Nat) (g : Quay → Quay) : (s.modQuay q g).dieImg = s.dieImg := rfl
@[simp] theorem State.modQuay_dockImg (q : Nat) (g : Quay → Quay) : (s.modQuay q g).dockImg = s.dockImg := rfl
@[simp] theorem State.modQuay_cstore (q : Nat) (g : Quay → Quay) : (s.modQuay q g).cstore = s.cstore := rfl
@[simp] theorem State.modQuay_newRepairs (q : Nat) (g : Quay → Quay) : (s.modQuay q g).newRepairs = s.newRepairs := rfl
@[simp] theorem State.modQuay_repairs (q : Nat) (g : Quay → Quay) : (s.modQuay q g).repairs = s.repairs := rfl
@[simp] theorem State.modQuay_repairCopy (q : Nat) (g : Quay → Quay) : (s.modQuay q g).repairCopy = s.repairCopy := rfl
@[simp] theorem State.modQuay_repairSeq (q : Nat) (g : Quay → Quay) : (s.modQuay q g).repairSeq = s.repairSeq := rfl
@[simp] theorem State.modQuay_sessions (q : Nat) (g : Quay → Quay) : (s.modQuay q g).sessions = s.sessions := rfl
@[simp] theorem State.modQuay_chain (q : Nat) (g : Quay → Quay) : (s.modQuay q g).chain = s.chain := rfl
@[simp] theorem State.modQuay_wdogAt (q : Nat) (g : Quay → Quay) : (s.modQuay q g).wdogAt = s.wdogAt := rfl
@[simp] theorem State.modQuay_thermTrip (q : Nat) (g : Quay → Quay) : (s.modQuay q g).thermTrip = s.thermTrip := rfl
@[simp] theorem State.modQuay_toggles (q : Nat) (g : Quay → Quay) : (s.modQuay q g).toggles = s.toggles := rfl
@[simp] theorem State.modQuay_hmHalt (q : Nat) (g : Quay → Quay) : (s.modQuay q g).hmHalt = s.hmHalt := rfl
@[simp] theorem State.modQuay_wdogFired (q : Nat) (g : Quay → Quay) : (s.modQuay q g).wdogFired = s.wdogFired := rfl
@[simp] theorem State.modQuay_adcAt (q : Nat) (g : Quay → Quay) : (s.modQuay q g).adcAt = s.adcAt := rfl
@[simp] theorem State.modQuay_eids (q : Nat) (g : Quay → Quay) : (s.modQuay q g).eids = s.eids := rfl
@[simp] theorem State.modQuay_spdmSeq (q : Nat) (g : Quay → Quay) : (s.modQuay q g).spdmSeq = s.spdmSeq := rfl
@[simp] theorem State.modQuay_cyc (q : Nat) (g : Quay → Quay) : (s.modQuay q g).cyc = s.cyc := rfl
@[simp] theorem State.modQuay_corr (q : Nat) (g : Quay → Quay) : (s.modQuay q g).corr = s.corr := rfl
@[simp] theorem State.modQuay_ptpRun (q : Nat) (g : Quay → Quay) : (s.modQuay q g).ptpRun = s.ptpRun := rfl
@[simp] theorem State.modQuay_memRows (q : Nat) (g : Quay → Quay) : (s.modQuay q g).memRows = s.memRows := rfl
@[simp] theorem State.modQuay_bootAt (q : Nat) (g : Quay → Quay) : (s.modQuay q g).bootAt = s.bootAt := rfl
@[simp] theorem State.modQuay_outside (q : Nat) (g : Quay → Quay) : (s.modQuay q g).outside = s.outside := rfl
@[simp] theorem State.modQuay_switches (q : Nat) (g : Quay → Quay) : (s.modQuay q g).switches = s.switches := rfl
@[simp] theorem State.modQuay_now (q : Nat) (g : Quay → Quay) : (s.modQuay q g).now = s.now := rfl
@[simp] theorem State.modQuay_serving (q : Nat) (g : Quay → Quay) : (s.modQuay q g).serving = s.serving := rfl
@[simp] theorem State.modQuay_reg (q : Nat) (g : Quay → Quay) (r : Nat) : (s.modQuay q g).reg r = s.reg r := rfl
@[simp] theorem State.modQuay_fld (q : Nat) (g : Quay → Quay) (r hi lo : Nat) : (s.modQuay q g).fld r hi lo = s.fld r hi lo := rfl
@[simp] theorem State.modQuay_flag (q : Nat) (g : Quay → Quay) (r i : Nat) : (s.modQuay q g).flag r i = s.flag r i := rfl
@[simp] theorem State.modQuay_berth (q : Nat) (g : Quay → Quay) (i : Nat) : (s.modQuay q g).berth i = s.berth i := rfl
@[simp] theorem State.modQuay_slot (q : Nat) (g : Quay → Quay) (i j l : Nat) : (s.modQuay q g).slot i j l = s.slot i j l := rfl
@[simp] theorem State.modQuay_word (q : Nat) (g : Quay → Quay) (i : Nat) : (s.modQuay q g).word i = s.word i := rfl
@[simp] theorem State.modQuay_page (q : Nat) (g : Quay → Quay) (i j : Nat) : (s.modQuay q g).page i j = s.page i j := rfl
@[simp] theorem State.modQuay_ep (q : Nat) (g : Quay → Quay) (i : Nat) : (s.modQuay q g).ep i = s.ep i := rfl
@[simp] theorem State.modQuay_domain (q : Nat) (g : Quay → Quay) (i kc : Nat) : (s.modQuay q g).domain i kc = s.domain i kc := rfl
@[simp] theorem State.modQuay_pipeOf (q : Nat) (g : Quay → Quay) (i j : Nat) : (s.modQuay q g).pipeOf i j = s.pipeOf i j := rfl
@[simp] theorem State.modQuay_hasDie (q : Nat) (g : Quay → Quay) (i : Nat) : (s.modQuay q g).hasDie i = s.hasDie i := rfl
@[simp] theorem State.modQuay_hasQuay (q : Nat) (g : Quay → Quay) (i : Nat) : (s.modQuay q g).hasQuay i = s.hasQuay i := rfl

/-! modEp changes eps. -/

@[simp] theorem State.modEp_part (e : Nat) (g : Endpoint → Endpoint) : (s.modEp e g).part = s.part := rfl
@[simp] theorem State.modEp_pending (e : Nat) (g : Endpoint → Endpoint) : (s.modEp e g).pending = s.pending := rfl
@[simp] theorem State.modEp_htime (e : Nat) (g : Endpoint → Endpoint) : (s.modEp e g).htime = s.htime := rfl
@[simp] theorem State.modEp_draws (e : Nat) (g : Endpoint → Endpoint) : (s.modEp e g).draws = s.draws := rfl
@[simp] theorem State.modEp_bus (e : Nat) (g : Endpoint → Endpoint) : (s.modEp e g).bus = s.bus := rfl
@[simp] theorem State.modEp_mem (e : Nat) (g : Endpoint → Endpoint) : (s.modEp e g).mem = s.mem := rfl
@[simp] theorem State.modEp_ecc (e : Nat) (g : Endpoint → Endpoint) : (s.modEp e g).ecc = s.ecc := rfl
@[simp] theorem State.modEp_regs (e : Nat) (g : Endpoint → Endpoint) : (s.modEp e g).regs = s.regs := rfl
@[simp] theorem State.modEp_pages (e : Nat) (g : Endpoint → Endpoint) : (s.modEp e g).pages = s.pages := rfl
@[simp] theorem State.modEp_groups (e : Nat) (g : Endpoint → Endpoint) : (s.modEp e g).groups = s.groups := rfl
@[simp] theorem State.modEp_hold (e : Nat) (g : Endpoint → Endpoint) : (s.modEp e g).hold = s.hold := rfl
@[simp] theorem State.modEp_berths (e : Nat) (g : Endpoint → Endpoint) : (s.modEp e g).berths = s.berths := rfl
@[simp] theorem State.modEp_rowCe (e : Nat) (g : Endpoint → Endpoint) : (s.modEp e g).rowCe = s.rowCe := rfl
@[simp] theorem State.modEp_repairQ (e : Nat) (g : Endpoint → Endpoint) : (s.modEp e g).repairQ = s.repairQ := rfl
@[simp] theorem State.modEp_slots (e : Nat) (g : Endpoint → Endpoint) : (s.modEp e g).slots = s.slots := rfl
@[simp] theorem State.modEp_flying (e : Nat) (g : Endpoint → Endpoint) : (s.modEp e g).flying = s.flying := rfl
@[simp] theorem State.modEp_faultLog (e : Nat) (g : Endpoint → Endpoint) : (s.modEp e g).faultLog = s.faultLog := rfl
@[simp] theorem State.modEp_faultSeq (e : Nat) (g : Endpoint → Endpoint) : (s.modEp e g).faultSeq = s.faultSeq := rfl
@[simp] theorem State.modEp_pads (e : Nat) (g : Endpoint → Endpoint) : (s.modEp e g).pads = s.pads := rfl
@[simp] theorem State.modEp_sync (e : Nat) (g : Endpoint → Endpoint) : (s.modEp e g).sync = s.sync := rfl
@[simp] theorem State.modEp_domains (e : Nat) (g : Endpoint → Endpoint) : (s.modEp e g).domains = s.domains := rfl
@[simp] theorem State.modEp_prof (e : Nat) (g : Endpoint → Endpoint) : (s.modEp e g).prof = s.prof := rfl
@[simp] theorem State.modEp_slices (e : Nat) (g : Endpoint → Endpoint) : (s.modEp e g).slices = s.slices := rfl
@[simp] theorem State.modEp_follow (e : Nat) (g : Endpoint → Endpoint) : (s.modEp e g).follow = s.follow := rfl
@[simp] theorem State.modEp_htT (e : Nat) (g : Endpoint → Endpoint) : (s.modEp e g).htT = s.htT := rfl
@[simp] theorem State.modEp_pipes (e : Nat) (g : Endpoint → Endpoint) : (s.modEp e g).pipes = s.pipes := rfl
@[simp] theorem State.modEp_quays (e : Nat) (g : Endpoint → Endpoint) : (s.modEp e g).quays = s.quays := rfl
@[simp] theorem State.modEp_testLog (e : Nat) (g : Endpoint → Endpoint) : (s.modEp e g).testLog = s.testLog := rfl
@[simp] theorem State.modEp_spareAt (e : Nat) (g : Endpoint → Endpoint) : (s.modEp e g).spareAt = s.spareAt := rfl
@[simp] theorem State.modEp_engAt (e : Nat) (g : Endpoint → Endpoint) : (s.modEp e g).engAt = s.engAt := rfl
@[simp] theorem State.modEp_voteAt (e : Nat) (g : Endpoint → Endpoint) : (s.modEp e g).voteAt = s.voteAt := rfl
@[simp] theorem State.modEp_latches (e : Nat) (g : Endpoint → Endpoint) : (s.modEp e g).latches = s.latches := rfl
@[simp] theorem State.modEp_patrol (e : Nat) (g : Endpoint → Endpoint) : (s.modEp e g).patrol = s.patrol := rfl
@[simp] theorem State.modEp_repairing (e : Nat) (g : Endpoint → Endpoint) : (s.modEp e g).repairing = s.repairing := rfl
@[simp] theorem State.modEp_retire (e : Nat) (g : Endpoint → Endpoint) : (s.modEp e g).retire = s.retire := rfl
@[simp] theorem State.modEp_mctp (e : Nat) (g : Endpoint → Endpoint) : (s.modEp e g).mctp = s.mctp := rfl
@[simp] theorem State.modEp_denied (e : Nat) (g : Endpoint → Endpoint) : (s.modEp e g).denied = s.denied := rfl
@[simp] theorem State.modEp_ptp (e : Nat) (g : Endpoint → Endpoint) : (s.modEp e g).ptp = s.ptp := rfl
@[simp] theorem State.modEp_pw (e : Nat) (g : Endpoint → Endpoint) : (s.modEp e g).pw = s.pw := rfl
@[simp] theorem State.modEp_entries (e : Nat) (g : Endpoint → Endpoint) : (s.modEp e g).entries = s.entries := rfl
@[simp] theorem State.modEp_keeper (e : Nat) (g : Endpoint → Endpoint) : (s.modEp e g).keeper = s.keeper := rfl
@[simp] theorem State.modEp_otp (e : Nat) (g : Endpoint → Endpoint) : (s.modEp e g).otp = s.otp := rfl
@[simp] theorem State.modEp_flash (e : Nat) (g : Endpoint → Endpoint) : (s.modEp e g).flash = s.flash := rfl
@[simp] theorem State.modEp_profTable (e : Nat) (g : Endpoint → Endpoint) : (s.modEp e g).profTable = s.profTable := rfl
@[simp] theorem State.modEp_keyStore (e : Nat) (g : Endpoint → Endpoint) : (s.modEp e g).keyStore = s.keyStore := rfl
@[simp] theorem State.modEp_attKey (e : Nat) (g : Endpoint → Endpoint) : (s.modEp e g).attKey = s.attKey := rfl
@[simp] theorem State.modEp_scanned (e : Nat) (g : Endpoint → Endpoint) : (s.modEp e g).scanned = s.scanned := rfl
@[simp] theorem State.modEp_fwVer (e : Nat) (g : Endpoint → Endpoint) : (s.modEp e g).fwVer = s.fwVer := rfl
@[simp] theorem State.modEp_dieImg (e : Nat) (g : Endpoint → Endpoint) : (s.modEp e g).dieImg = s.dieImg := rfl
@[simp] theorem State.modEp_dockImg (e : Nat) (g : Endpoint → Endpoint) : (s.modEp e g).dockImg = s.dockImg := rfl
@[simp] theorem State.modEp_cstore (e : Nat) (g : Endpoint → Endpoint) : (s.modEp e g).cstore = s.cstore := rfl
@[simp] theorem State.modEp_newRepairs (e : Nat) (g : Endpoint → Endpoint) : (s.modEp e g).newRepairs = s.newRepairs := rfl
@[simp] theorem State.modEp_repairs (e : Nat) (g : Endpoint → Endpoint) : (s.modEp e g).repairs = s.repairs := rfl
@[simp] theorem State.modEp_repairCopy (e : Nat) (g : Endpoint → Endpoint) : (s.modEp e g).repairCopy = s.repairCopy := rfl
@[simp] theorem State.modEp_repairSeq (e : Nat) (g : Endpoint → Endpoint) : (s.modEp e g).repairSeq = s.repairSeq := rfl
@[simp] theorem State.modEp_sessions (e : Nat) (g : Endpoint → Endpoint) : (s.modEp e g).sessions = s.sessions := rfl
@[simp] theorem State.modEp_chain (e : Nat) (g : Endpoint → Endpoint) : (s.modEp e g).chain = s.chain := rfl
@[simp] theorem State.modEp_wdogAt (e : Nat) (g : Endpoint → Endpoint) : (s.modEp e g).wdogAt = s.wdogAt := rfl
@[simp] theorem State.modEp_thermTrip (e : Nat) (g : Endpoint → Endpoint) : (s.modEp e g).thermTrip = s.thermTrip := rfl
@[simp] theorem State.modEp_toggles (e : Nat) (g : Endpoint → Endpoint) : (s.modEp e g).toggles = s.toggles := rfl
@[simp] theorem State.modEp_hmHalt (e : Nat) (g : Endpoint → Endpoint) : (s.modEp e g).hmHalt = s.hmHalt := rfl
@[simp] theorem State.modEp_wdogFired (e : Nat) (g : Endpoint → Endpoint) : (s.modEp e g).wdogFired = s.wdogFired := rfl
@[simp] theorem State.modEp_adcAt (e : Nat) (g : Endpoint → Endpoint) : (s.modEp e g).adcAt = s.adcAt := rfl
@[simp] theorem State.modEp_eids (e : Nat) (g : Endpoint → Endpoint) : (s.modEp e g).eids = s.eids := rfl
@[simp] theorem State.modEp_spdmSeq (e : Nat) (g : Endpoint → Endpoint) : (s.modEp e g).spdmSeq = s.spdmSeq := rfl
@[simp] theorem State.modEp_cyc (e : Nat) (g : Endpoint → Endpoint) : (s.modEp e g).cyc = s.cyc := rfl
@[simp] theorem State.modEp_corr (e : Nat) (g : Endpoint → Endpoint) : (s.modEp e g).corr = s.corr := rfl
@[simp] theorem State.modEp_ptpRun (e : Nat) (g : Endpoint → Endpoint) : (s.modEp e g).ptpRun = s.ptpRun := rfl
@[simp] theorem State.modEp_memRows (e : Nat) (g : Endpoint → Endpoint) : (s.modEp e g).memRows = s.memRows := rfl
@[simp] theorem State.modEp_bootAt (e : Nat) (g : Endpoint → Endpoint) : (s.modEp e g).bootAt = s.bootAt := rfl
@[simp] theorem State.modEp_outside (e : Nat) (g : Endpoint → Endpoint) : (s.modEp e g).outside = s.outside := rfl
@[simp] theorem State.modEp_switches (e : Nat) (g : Endpoint → Endpoint) : (s.modEp e g).switches = s.switches := rfl
@[simp] theorem State.modEp_now (e : Nat) (g : Endpoint → Endpoint) : (s.modEp e g).now = s.now := rfl
@[simp] theorem State.modEp_serving (e : Nat) (g : Endpoint → Endpoint) : (s.modEp e g).serving = s.serving := rfl
@[simp] theorem State.modEp_reg (e : Nat) (g : Endpoint → Endpoint) (r : Nat) : (s.modEp e g).reg r = s.reg r := rfl
@[simp] theorem State.modEp_fld (e : Nat) (g : Endpoint → Endpoint) (r hi lo : Nat) : (s.modEp e g).fld r hi lo = s.fld r hi lo := rfl
@[simp] theorem State.modEp_flag (e : Nat) (g : Endpoint → Endpoint) (r i : Nat) : (s.modEp e g).flag r i = s.flag r i := rfl
@[simp] theorem State.modEp_berth (e : Nat) (g : Endpoint → Endpoint) (i : Nat) : (s.modEp e g).berth i = s.berth i := rfl
@[simp] theorem State.modEp_slot (e : Nat) (g : Endpoint → Endpoint) (i j l : Nat) : (s.modEp e g).slot i j l = s.slot i j l := rfl
@[simp] theorem State.modEp_word (e : Nat) (g : Endpoint → Endpoint) (i : Nat) : (s.modEp e g).word i = s.word i := rfl
@[simp] theorem State.modEp_page (e : Nat) (g : Endpoint → Endpoint) (i j : Nat) : (s.modEp e g).page i j = s.page i j := rfl
@[simp] theorem State.modEp_quay (e : Nat) (g : Endpoint → Endpoint) (i : Nat) : (s.modEp e g).quay i = s.quay i := rfl
@[simp] theorem State.modEp_domain (e : Nat) (g : Endpoint → Endpoint) (i kc : Nat) : (s.modEp e g).domain i kc = s.domain i kc := rfl
@[simp] theorem State.modEp_pipeOf (e : Nat) (g : Endpoint → Endpoint) (i j : Nat) : (s.modEp e g).pipeOf i j = s.pipeOf i j := rfl
@[simp] theorem State.modEp_hasDie (e : Nat) (g : Endpoint → Endpoint) (i : Nat) : (s.modEp e g).hasDie i = s.hasDie i := rfl
@[simp] theorem State.modEp_hasQuay (e : Nat) (g : Endpoint → Endpoint) (i : Nat) : (s.modEp e g).hasQuay i = s.hasQuay i := rfl

/-! setModer changes hold. -/

@[simp] theorem State.setModer_part (d n : Nat) (m : Moder) : (s.setModer d n m).part = s.part := rfl
@[simp] theorem State.setModer_pending (d n : Nat) (m : Moder) : (s.setModer d n m).pending = s.pending := rfl
@[simp] theorem State.setModer_htime (d n : Nat) (m : Moder) : (s.setModer d n m).htime = s.htime := rfl
@[simp] theorem State.setModer_draws (d n : Nat) (m : Moder) : (s.setModer d n m).draws = s.draws := rfl
@[simp] theorem State.setModer_bus (d n : Nat) (m : Moder) : (s.setModer d n m).bus = s.bus := rfl
@[simp] theorem State.setModer_mem (d n : Nat) (m : Moder) : (s.setModer d n m).mem = s.mem := rfl
@[simp] theorem State.setModer_ecc (d n : Nat) (m : Moder) : (s.setModer d n m).ecc = s.ecc := rfl
@[simp] theorem State.setModer_regs (d n : Nat) (m : Moder) : (s.setModer d n m).regs = s.regs := rfl
@[simp] theorem State.setModer_pages (d n : Nat) (m : Moder) : (s.setModer d n m).pages = s.pages := rfl
@[simp] theorem State.setModer_groups (d n : Nat) (m : Moder) : (s.setModer d n m).groups = s.groups := rfl
@[simp] theorem State.setModer_berths (d n : Nat) (m : Moder) : (s.setModer d n m).berths = s.berths := rfl
@[simp] theorem State.setModer_rowCe (d n : Nat) (m : Moder) : (s.setModer d n m).rowCe = s.rowCe := rfl
@[simp] theorem State.setModer_repairQ (d n : Nat) (m : Moder) : (s.setModer d n m).repairQ = s.repairQ := rfl
@[simp] theorem State.setModer_slots (d n : Nat) (m : Moder) : (s.setModer d n m).slots = s.slots := rfl
@[simp] theorem State.setModer_eps (d n : Nat) (m : Moder) : (s.setModer d n m).eps = s.eps := rfl
@[simp] theorem State.setModer_flying (d n : Nat) (m : Moder) : (s.setModer d n m).flying = s.flying := rfl
@[simp] theorem State.setModer_faultLog (d n : Nat) (m : Moder) : (s.setModer d n m).faultLog = s.faultLog := rfl
@[simp] theorem State.setModer_faultSeq (d n : Nat) (m : Moder) : (s.setModer d n m).faultSeq = s.faultSeq := rfl
@[simp] theorem State.setModer_pads (d n : Nat) (m : Moder) : (s.setModer d n m).pads = s.pads := rfl
@[simp] theorem State.setModer_sync (d n : Nat) (m : Moder) : (s.setModer d n m).sync = s.sync := rfl
@[simp] theorem State.setModer_domains (d n : Nat) (m : Moder) : (s.setModer d n m).domains = s.domains := rfl
@[simp] theorem State.setModer_prof (d n : Nat) (m : Moder) : (s.setModer d n m).prof = s.prof := rfl
@[simp] theorem State.setModer_slices (d n : Nat) (m : Moder) : (s.setModer d n m).slices = s.slices := rfl
@[simp] theorem State.setModer_follow (d n : Nat) (m : Moder) : (s.setModer d n m).follow = s.follow := rfl
@[simp] theorem State.setModer_htT (d n : Nat) (m : Moder) : (s.setModer d n m).htT = s.htT := rfl
@[simp] theorem State.setModer_pipes (d n : Nat) (m : Moder) : (s.setModer d n m).pipes = s.pipes := rfl
@[simp] theorem State.setModer_quays (d n : Nat) (m : Moder) : (s.setModer d n m).quays = s.quays := rfl
@[simp] theorem State.setModer_testLog (d n : Nat) (m : Moder) : (s.setModer d n m).testLog = s.testLog := rfl
@[simp] theorem State.setModer_spareAt (d n : Nat) (m : Moder) : (s.setModer d n m).spareAt = s.spareAt := rfl
@[simp] theorem State.setModer_engAt (d n : Nat) (m : Moder) : (s.setModer d n m).engAt = s.engAt := rfl
@[simp] theorem State.setModer_voteAt (d n : Nat) (m : Moder) : (s.setModer d n m).voteAt = s.voteAt := rfl
@[simp] theorem State.setModer_latches (d n : Nat) (m : Moder) : (s.setModer d n m).latches = s.latches := rfl
@[simp] theorem State.setModer_patrol (d n : Nat) (m : Moder) : (s.setModer d n m).patrol = s.patrol := rfl
@[simp] theorem State.setModer_repairing (d n : Nat) (m : Moder) : (s.setModer d n m).repairing = s.repairing := rfl
@[simp] theorem State.setModer_retire (d n : Nat) (m : Moder) : (s.setModer d n m).retire = s.retire := rfl
@[simp] theorem State.setModer_mctp (d n : Nat) (m : Moder) : (s.setModer d n m).mctp = s.mctp := rfl
@[simp] theorem State.setModer_denied (d n : Nat) (m : Moder) : (s.setModer d n m).denied = s.denied := rfl
@[simp] theorem State.setModer_ptp (d n : Nat) (m : Moder) : (s.setModer d n m).ptp = s.ptp := rfl
@[simp] theorem State.setModer_pw (d n : Nat) (m : Moder) : (s.setModer d n m).pw = s.pw := rfl
@[simp] theorem State.setModer_entries (d n : Nat) (m : Moder) : (s.setModer d n m).entries = s.entries := rfl
@[simp] theorem State.setModer_keeper (d n : Nat) (m : Moder) : (s.setModer d n m).keeper = s.keeper := rfl
@[simp] theorem State.setModer_otp (d n : Nat) (m : Moder) : (s.setModer d n m).otp = s.otp := rfl
@[simp] theorem State.setModer_flash (d n : Nat) (m : Moder) : (s.setModer d n m).flash = s.flash := rfl
@[simp] theorem State.setModer_profTable (d n : Nat) (m : Moder) : (s.setModer d n m).profTable = s.profTable := rfl
@[simp] theorem State.setModer_keyStore (d n : Nat) (m : Moder) : (s.setModer d n m).keyStore = s.keyStore := rfl
@[simp] theorem State.setModer_attKey (d n : Nat) (m : Moder) : (s.setModer d n m).attKey = s.attKey := rfl
@[simp] theorem State.setModer_scanned (d n : Nat) (m : Moder) : (s.setModer d n m).scanned = s.scanned := rfl
@[simp] theorem State.setModer_fwVer (d n : Nat) (m : Moder) : (s.setModer d n m).fwVer = s.fwVer := rfl
@[simp] theorem State.setModer_dieImg (d n : Nat) (m : Moder) : (s.setModer d n m).dieImg = s.dieImg := rfl
@[simp] theorem State.setModer_dockImg (d n : Nat) (m : Moder) : (s.setModer d n m).dockImg = s.dockImg := rfl
@[simp] theorem State.setModer_cstore (d n : Nat) (m : Moder) : (s.setModer d n m).cstore = s.cstore := rfl
@[simp] theorem State.setModer_newRepairs (d n : Nat) (m : Moder) : (s.setModer d n m).newRepairs = s.newRepairs := rfl
@[simp] theorem State.setModer_repairs (d n : Nat) (m : Moder) : (s.setModer d n m).repairs = s.repairs := rfl
@[simp] theorem State.setModer_repairCopy (d n : Nat) (m : Moder) : (s.setModer d n m).repairCopy = s.repairCopy := rfl
@[simp] theorem State.setModer_repairSeq (d n : Nat) (m : Moder) : (s.setModer d n m).repairSeq = s.repairSeq := rfl
@[simp] theorem State.setModer_sessions (d n : Nat) (m : Moder) : (s.setModer d n m).sessions = s.sessions := rfl
@[simp] theorem State.setModer_chain (d n : Nat) (m : Moder) : (s.setModer d n m).chain = s.chain := rfl
@[simp] theorem State.setModer_wdogAt (d n : Nat) (m : Moder) : (s.setModer d n m).wdogAt = s.wdogAt := rfl
@[simp] theorem State.setModer_thermTrip (d n : Nat) (m : Moder) : (s.setModer d n m).thermTrip = s.thermTrip := rfl
@[simp] theorem State.setModer_toggles (d n : Nat) (m : Moder) : (s.setModer d n m).toggles = s.toggles := rfl
@[simp] theorem State.setModer_hmHalt (d n : Nat) (m : Moder) : (s.setModer d n m).hmHalt = s.hmHalt := rfl
@[simp] theorem State.setModer_wdogFired (d n : Nat) (m : Moder) : (s.setModer d n m).wdogFired = s.wdogFired := rfl
@[simp] theorem State.setModer_adcAt (d n : Nat) (m : Moder) : (s.setModer d n m).adcAt = s.adcAt := rfl
@[simp] theorem State.setModer_eids (d n : Nat) (m : Moder) : (s.setModer d n m).eids = s.eids := rfl
@[simp] theorem State.setModer_spdmSeq (d n : Nat) (m : Moder) : (s.setModer d n m).spdmSeq = s.spdmSeq := rfl
@[simp] theorem State.setModer_cyc (d n : Nat) (m : Moder) : (s.setModer d n m).cyc = s.cyc := rfl
@[simp] theorem State.setModer_corr (d n : Nat) (m : Moder) : (s.setModer d n m).corr = s.corr := rfl
@[simp] theorem State.setModer_ptpRun (d n : Nat) (m : Moder) : (s.setModer d n m).ptpRun = s.ptpRun := rfl
@[simp] theorem State.setModer_memRows (d n : Nat) (m : Moder) : (s.setModer d n m).memRows = s.memRows := rfl
@[simp] theorem State.setModer_bootAt (d n : Nat) (m : Moder) : (s.setModer d n m).bootAt = s.bootAt := rfl
@[simp] theorem State.setModer_outside (d n : Nat) (m : Moder) : (s.setModer d n m).outside = s.outside := rfl
@[simp] theorem State.setModer_switches (d n : Nat) (m : Moder) : (s.setModer d n m).switches = s.switches := rfl
@[simp] theorem State.setModer_now (d n : Nat) (m : Moder) : (s.setModer d n m).now = s.now := rfl
@[simp] theorem State.setModer_serving (d n : Nat) (m : Moder) : (s.setModer d n m).serving = s.serving := rfl
@[simp] theorem State.setModer_reg (d n : Nat) (m : Moder) (r : Nat) : (s.setModer d n m).reg r = s.reg r := rfl
@[simp] theorem State.setModer_fld (d n : Nat) (m : Moder) (r hi lo : Nat) : (s.setModer d n m).fld r hi lo = s.fld r hi lo := rfl
@[simp] theorem State.setModer_flag (d n : Nat) (m : Moder) (r i : Nat) : (s.setModer d n m).flag r i = s.flag r i := rfl
@[simp] theorem State.setModer_berth (d n : Nat) (m : Moder) (i : Nat) : (s.setModer d n m).berth i = s.berth i := rfl
@[simp] theorem State.setModer_slot (d n : Nat) (m : Moder) (i j l : Nat) : (s.setModer d n m).slot i j l = s.slot i j l := rfl
@[simp] theorem State.setModer_word (d n : Nat) (m : Moder) (i : Nat) : (s.setModer d n m).word i = s.word i := rfl
@[simp] theorem State.setModer_page (d n : Nat) (m : Moder) (i j : Nat) : (s.setModer d n m).page i j = s.page i j := rfl
@[simp] theorem State.setModer_ep (d n : Nat) (m : Moder) (i : Nat) : (s.setModer d n m).ep i = s.ep i := rfl
@[simp] theorem State.setModer_quay (d n : Nat) (m : Moder) (i : Nat) : (s.setModer d n m).quay i = s.quay i := rfl
@[simp] theorem State.setModer_domain (d n : Nat) (m : Moder) (i kc : Nat) : (s.setModer d n m).domain i kc = s.domain i kc := rfl
@[simp] theorem State.setModer_pipeOf (d n : Nat) (m : Moder) (i j : Nat) : (s.setModer d n m).pipeOf i j = s.pipeOf i j := rfl
@[simp] theorem State.setModer_hasDie (d n : Nat) (m : Moder) (i : Nat) : (s.setModer d n m).hasDie i = s.hasDie i := rfl
@[simp] theorem State.setModer_hasQuay (d n : Nat) (m : Moder) (i : Nat) : (s.setModer d n m).hasQuay i = s.hasQuay i := rfl

/-! setPage changes pages. -/

@[simp] theorem State.setPage_part (d p v : Nat) : (s.setPage d p v).part = s.part := rfl
@[simp] theorem State.setPage_pending (d p v : Nat) : (s.setPage d p v).pending = s.pending := rfl
@[simp] theorem State.setPage_htime (d p v : Nat) : (s.setPage d p v).htime = s.htime := rfl
@[simp] theorem State.setPage_draws (d p v : Nat) : (s.setPage d p v).draws = s.draws := rfl
@[simp] theorem State.setPage_bus (d p v : Nat) : (s.setPage d p v).bus = s.bus := rfl
@[simp] theorem State.setPage_mem (d p v : Nat) : (s.setPage d p v).mem = s.mem := rfl
@[simp] theorem State.setPage_ecc (d p v : Nat) : (s.setPage d p v).ecc = s.ecc := rfl
@[simp] theorem State.setPage_regs (d p v : Nat) : (s.setPage d p v).regs = s.regs := rfl
@[simp] theorem State.setPage_groups (d p v : Nat) : (s.setPage d p v).groups = s.groups := rfl
@[simp] theorem State.setPage_hold (d p v : Nat) : (s.setPage d p v).hold = s.hold := rfl
@[simp] theorem State.setPage_berths (d p v : Nat) : (s.setPage d p v).berths = s.berths := rfl
@[simp] theorem State.setPage_rowCe (d p v : Nat) : (s.setPage d p v).rowCe = s.rowCe := rfl
@[simp] theorem State.setPage_repairQ (d p v : Nat) : (s.setPage d p v).repairQ = s.repairQ := rfl
@[simp] theorem State.setPage_slots (d p v : Nat) : (s.setPage d p v).slots = s.slots := rfl
@[simp] theorem State.setPage_eps (d p v : Nat) : (s.setPage d p v).eps = s.eps := rfl
@[simp] theorem State.setPage_flying (d p v : Nat) : (s.setPage d p v).flying = s.flying := rfl
@[simp] theorem State.setPage_faultLog (d p v : Nat) : (s.setPage d p v).faultLog = s.faultLog := rfl
@[simp] theorem State.setPage_faultSeq (d p v : Nat) : (s.setPage d p v).faultSeq = s.faultSeq := rfl
@[simp] theorem State.setPage_pads (d p v : Nat) : (s.setPage d p v).pads = s.pads := rfl
@[simp] theorem State.setPage_sync (d p v : Nat) : (s.setPage d p v).sync = s.sync := rfl
@[simp] theorem State.setPage_domains (d p v : Nat) : (s.setPage d p v).domains = s.domains := rfl
@[simp] theorem State.setPage_prof (d p v : Nat) : (s.setPage d p v).prof = s.prof := rfl
@[simp] theorem State.setPage_slices (d p v : Nat) : (s.setPage d p v).slices = s.slices := rfl
@[simp] theorem State.setPage_follow (d p v : Nat) : (s.setPage d p v).follow = s.follow := rfl
@[simp] theorem State.setPage_htT (d p v : Nat) : (s.setPage d p v).htT = s.htT := rfl
@[simp] theorem State.setPage_pipes (d p v : Nat) : (s.setPage d p v).pipes = s.pipes := rfl
@[simp] theorem State.setPage_quays (d p v : Nat) : (s.setPage d p v).quays = s.quays := rfl
@[simp] theorem State.setPage_testLog (d p v : Nat) : (s.setPage d p v).testLog = s.testLog := rfl
@[simp] theorem State.setPage_spareAt (d p v : Nat) : (s.setPage d p v).spareAt = s.spareAt := rfl
@[simp] theorem State.setPage_engAt (d p v : Nat) : (s.setPage d p v).engAt = s.engAt := rfl
@[simp] theorem State.setPage_voteAt (d p v : Nat) : (s.setPage d p v).voteAt = s.voteAt := rfl
@[simp] theorem State.setPage_latches (d p v : Nat) : (s.setPage d p v).latches = s.latches := rfl
@[simp] theorem State.setPage_patrol (d p v : Nat) : (s.setPage d p v).patrol = s.patrol := rfl
@[simp] theorem State.setPage_repairing (d p v : Nat) : (s.setPage d p v).repairing = s.repairing := rfl
@[simp] theorem State.setPage_retire (d p v : Nat) : (s.setPage d p v).retire = s.retire := rfl
@[simp] theorem State.setPage_mctp (d p v : Nat) : (s.setPage d p v).mctp = s.mctp := rfl
@[simp] theorem State.setPage_denied (d p v : Nat) : (s.setPage d p v).denied = s.denied := rfl
@[simp] theorem State.setPage_ptp (d p v : Nat) : (s.setPage d p v).ptp = s.ptp := rfl
@[simp] theorem State.setPage_pw (d p v : Nat) : (s.setPage d p v).pw = s.pw := rfl
@[simp] theorem State.setPage_entries (d p v : Nat) : (s.setPage d p v).entries = s.entries := rfl
@[simp] theorem State.setPage_keeper (d p v : Nat) : (s.setPage d p v).keeper = s.keeper := rfl
@[simp] theorem State.setPage_otp (d p v : Nat) : (s.setPage d p v).otp = s.otp := rfl
@[simp] theorem State.setPage_flash (d p v : Nat) : (s.setPage d p v).flash = s.flash := rfl
@[simp] theorem State.setPage_profTable (d p v : Nat) : (s.setPage d p v).profTable = s.profTable := rfl
@[simp] theorem State.setPage_keyStore (d p v : Nat) : (s.setPage d p v).keyStore = s.keyStore := rfl
@[simp] theorem State.setPage_attKey (d p v : Nat) : (s.setPage d p v).attKey = s.attKey := rfl
@[simp] theorem State.setPage_scanned (d p v : Nat) : (s.setPage d p v).scanned = s.scanned := rfl
@[simp] theorem State.setPage_fwVer (d p v : Nat) : (s.setPage d p v).fwVer = s.fwVer := rfl
@[simp] theorem State.setPage_dieImg (d p v : Nat) : (s.setPage d p v).dieImg = s.dieImg := rfl
@[simp] theorem State.setPage_dockImg (d p v : Nat) : (s.setPage d p v).dockImg = s.dockImg := rfl
@[simp] theorem State.setPage_cstore (d p v : Nat) : (s.setPage d p v).cstore = s.cstore := rfl
@[simp] theorem State.setPage_newRepairs (d p v : Nat) : (s.setPage d p v).newRepairs = s.newRepairs := rfl
@[simp] theorem State.setPage_repairs (d p v : Nat) : (s.setPage d p v).repairs = s.repairs := rfl
@[simp] theorem State.setPage_repairCopy (d p v : Nat) : (s.setPage d p v).repairCopy = s.repairCopy := rfl
@[simp] theorem State.setPage_repairSeq (d p v : Nat) : (s.setPage d p v).repairSeq = s.repairSeq := rfl
@[simp] theorem State.setPage_sessions (d p v : Nat) : (s.setPage d p v).sessions = s.sessions := rfl
@[simp] theorem State.setPage_chain (d p v : Nat) : (s.setPage d p v).chain = s.chain := rfl
@[simp] theorem State.setPage_wdogAt (d p v : Nat) : (s.setPage d p v).wdogAt = s.wdogAt := rfl
@[simp] theorem State.setPage_thermTrip (d p v : Nat) : (s.setPage d p v).thermTrip = s.thermTrip := rfl
@[simp] theorem State.setPage_toggles (d p v : Nat) : (s.setPage d p v).toggles = s.toggles := rfl
@[simp] theorem State.setPage_hmHalt (d p v : Nat) : (s.setPage d p v).hmHalt = s.hmHalt := rfl
@[simp] theorem State.setPage_wdogFired (d p v : Nat) : (s.setPage d p v).wdogFired = s.wdogFired := rfl
@[simp] theorem State.setPage_adcAt (d p v : Nat) : (s.setPage d p v).adcAt = s.adcAt := rfl
@[simp] theorem State.setPage_eids (d p v : Nat) : (s.setPage d p v).eids = s.eids := rfl
@[simp] theorem State.setPage_spdmSeq (d p v : Nat) : (s.setPage d p v).spdmSeq = s.spdmSeq := rfl
@[simp] theorem State.setPage_cyc (d p v : Nat) : (s.setPage d p v).cyc = s.cyc := rfl
@[simp] theorem State.setPage_corr (d p v : Nat) : (s.setPage d p v).corr = s.corr := rfl
@[simp] theorem State.setPage_ptpRun (d p v : Nat) : (s.setPage d p v).ptpRun = s.ptpRun := rfl
@[simp] theorem State.setPage_memRows (d p v : Nat) : (s.setPage d p v).memRows = s.memRows := rfl
@[simp] theorem State.setPage_bootAt (d p v : Nat) : (s.setPage d p v).bootAt = s.bootAt := rfl
@[simp] theorem State.setPage_outside (d p v : Nat) : (s.setPage d p v).outside = s.outside := rfl
@[simp] theorem State.setPage_switches (d p v : Nat) : (s.setPage d p v).switches = s.switches := rfl
@[simp] theorem State.setPage_now (d p v : Nat) : (s.setPage d p v).now = s.now := rfl
@[simp] theorem State.setPage_serving (d p v : Nat) : (s.setPage d p v).serving = s.serving := rfl
@[simp] theorem State.setPage_reg (d p v : Nat) (r : Nat) : (s.setPage d p v).reg r = s.reg r := rfl
@[simp] theorem State.setPage_fld (d p v : Nat) (r hi lo : Nat) : (s.setPage d p v).fld r hi lo = s.fld r hi lo := rfl
@[simp] theorem State.setPage_flag (d p v : Nat) (r i : Nat) : (s.setPage d p v).flag r i = s.flag r i := rfl
@[simp] theorem State.setPage_berth (d p v : Nat) (i : Nat) : (s.setPage d p v).berth i = s.berth i := rfl
@[simp] theorem State.setPage_slot (d p v : Nat) (i j l : Nat) : (s.setPage d p v).slot i j l = s.slot i j l := rfl
@[simp] theorem State.setPage_word (d p v : Nat) (i : Nat) : (s.setPage d p v).word i = s.word i := rfl
@[simp] theorem State.setPage_ep (d p v : Nat) (i : Nat) : (s.setPage d p v).ep i = s.ep i := rfl
@[simp] theorem State.setPage_quay (d p v : Nat) (i : Nat) : (s.setPage d p v).quay i = s.quay i := rfl
@[simp] theorem State.setPage_domain (d p v : Nat) (i kc : Nat) : (s.setPage d p v).domain i kc = s.domain i kc := rfl
@[simp] theorem State.setPage_pipeOf (d p v : Nat) (i j : Nat) : (s.setPage d p v).pipeOf i j = s.pipeOf i j := rfl
@[simp] theorem State.setPage_hasDie (d p v : Nat) (i : Nat) : (s.setPage d p v).hasDie i = s.hasDie i := rfl
@[simp] theorem State.setPage_hasQuay (d p v : Nat) (i : Nat) : (s.setPage d p v).hasQuay i = s.hasQuay i := rfl

/-! setDomain changes domains. -/

@[simp] theorem State.setDomain_part (d code v : Nat) : (s.setDomain d code v).part = s.part := rfl
@[simp] theorem State.setDomain_pending (d code v : Nat) : (s.setDomain d code v).pending = s.pending := rfl
@[simp] theorem State.setDomain_htime (d code v : Nat) : (s.setDomain d code v).htime = s.htime := rfl
@[simp] theorem State.setDomain_draws (d code v : Nat) : (s.setDomain d code v).draws = s.draws := rfl
@[simp] theorem State.setDomain_bus (d code v : Nat) : (s.setDomain d code v).bus = s.bus := rfl
@[simp] theorem State.setDomain_mem (d code v : Nat) : (s.setDomain d code v).mem = s.mem := rfl
@[simp] theorem State.setDomain_ecc (d code v : Nat) : (s.setDomain d code v).ecc = s.ecc := rfl
@[simp] theorem State.setDomain_regs (d code v : Nat) : (s.setDomain d code v).regs = s.regs := rfl
@[simp] theorem State.setDomain_pages (d code v : Nat) : (s.setDomain d code v).pages = s.pages := rfl
@[simp] theorem State.setDomain_groups (d code v : Nat) : (s.setDomain d code v).groups = s.groups := rfl
@[simp] theorem State.setDomain_hold (d code v : Nat) : (s.setDomain d code v).hold = s.hold := rfl
@[simp] theorem State.setDomain_berths (d code v : Nat) : (s.setDomain d code v).berths = s.berths := rfl
@[simp] theorem State.setDomain_rowCe (d code v : Nat) : (s.setDomain d code v).rowCe = s.rowCe := rfl
@[simp] theorem State.setDomain_repairQ (d code v : Nat) : (s.setDomain d code v).repairQ = s.repairQ := rfl
@[simp] theorem State.setDomain_slots (d code v : Nat) : (s.setDomain d code v).slots = s.slots := rfl
@[simp] theorem State.setDomain_eps (d code v : Nat) : (s.setDomain d code v).eps = s.eps := rfl
@[simp] theorem State.setDomain_flying (d code v : Nat) : (s.setDomain d code v).flying = s.flying := rfl
@[simp] theorem State.setDomain_faultLog (d code v : Nat) : (s.setDomain d code v).faultLog = s.faultLog := rfl
@[simp] theorem State.setDomain_faultSeq (d code v : Nat) : (s.setDomain d code v).faultSeq = s.faultSeq := rfl
@[simp] theorem State.setDomain_pads (d code v : Nat) : (s.setDomain d code v).pads = s.pads := rfl
@[simp] theorem State.setDomain_sync (d code v : Nat) : (s.setDomain d code v).sync = s.sync := rfl
@[simp] theorem State.setDomain_prof (d code v : Nat) : (s.setDomain d code v).prof = s.prof := rfl
@[simp] theorem State.setDomain_slices (d code v : Nat) : (s.setDomain d code v).slices = s.slices := rfl
@[simp] theorem State.setDomain_follow (d code v : Nat) : (s.setDomain d code v).follow = s.follow := rfl
@[simp] theorem State.setDomain_htT (d code v : Nat) : (s.setDomain d code v).htT = s.htT := rfl
@[simp] theorem State.setDomain_pipes (d code v : Nat) : (s.setDomain d code v).pipes = s.pipes := rfl
@[simp] theorem State.setDomain_quays (d code v : Nat) : (s.setDomain d code v).quays = s.quays := rfl
@[simp] theorem State.setDomain_testLog (d code v : Nat) : (s.setDomain d code v).testLog = s.testLog := rfl
@[simp] theorem State.setDomain_spareAt (d code v : Nat) : (s.setDomain d code v).spareAt = s.spareAt := rfl
@[simp] theorem State.setDomain_engAt (d code v : Nat) : (s.setDomain d code v).engAt = s.engAt := rfl
@[simp] theorem State.setDomain_voteAt (d code v : Nat) : (s.setDomain d code v).voteAt = s.voteAt := rfl
@[simp] theorem State.setDomain_latches (d code v : Nat) : (s.setDomain d code v).latches = s.latches := rfl
@[simp] theorem State.setDomain_patrol (d code v : Nat) : (s.setDomain d code v).patrol = s.patrol := rfl
@[simp] theorem State.setDomain_repairing (d code v : Nat) : (s.setDomain d code v).repairing = s.repairing := rfl
@[simp] theorem State.setDomain_retire (d code v : Nat) : (s.setDomain d code v).retire = s.retire := rfl
@[simp] theorem State.setDomain_mctp (d code v : Nat) : (s.setDomain d code v).mctp = s.mctp := rfl
@[simp] theorem State.setDomain_denied (d code v : Nat) : (s.setDomain d code v).denied = s.denied := rfl
@[simp] theorem State.setDomain_ptp (d code v : Nat) : (s.setDomain d code v).ptp = s.ptp := rfl
@[simp] theorem State.setDomain_pw (d code v : Nat) : (s.setDomain d code v).pw = s.pw := rfl
@[simp] theorem State.setDomain_entries (d code v : Nat) : (s.setDomain d code v).entries = s.entries := rfl
@[simp] theorem State.setDomain_keeper (d code v : Nat) : (s.setDomain d code v).keeper = s.keeper := rfl
@[simp] theorem State.setDomain_otp (d code v : Nat) : (s.setDomain d code v).otp = s.otp := rfl
@[simp] theorem State.setDomain_flash (d code v : Nat) : (s.setDomain d code v).flash = s.flash := rfl
@[simp] theorem State.setDomain_profTable (d code v : Nat) : (s.setDomain d code v).profTable = s.profTable := rfl
@[simp] theorem State.setDomain_keyStore (d code v : Nat) : (s.setDomain d code v).keyStore = s.keyStore := rfl
@[simp] theorem State.setDomain_attKey (d code v : Nat) : (s.setDomain d code v).attKey = s.attKey := rfl
@[simp] theorem State.setDomain_scanned (d code v : Nat) : (s.setDomain d code v).scanned = s.scanned := rfl
@[simp] theorem State.setDomain_fwVer (d code v : Nat) : (s.setDomain d code v).fwVer = s.fwVer := rfl
@[simp] theorem State.setDomain_dieImg (d code v : Nat) : (s.setDomain d code v).dieImg = s.dieImg := rfl
@[simp] theorem State.setDomain_dockImg (d code v : Nat) : (s.setDomain d code v).dockImg = s.dockImg := rfl
@[simp] theorem State.setDomain_cstore (d code v : Nat) : (s.setDomain d code v).cstore = s.cstore := rfl
@[simp] theorem State.setDomain_newRepairs (d code v : Nat) : (s.setDomain d code v).newRepairs = s.newRepairs := rfl
@[simp] theorem State.setDomain_repairs (d code v : Nat) : (s.setDomain d code v).repairs = s.repairs := rfl
@[simp] theorem State.setDomain_repairCopy (d code v : Nat) : (s.setDomain d code v).repairCopy = s.repairCopy := rfl
@[simp] theorem State.setDomain_repairSeq (d code v : Nat) : (s.setDomain d code v).repairSeq = s.repairSeq := rfl
@[simp] theorem State.setDomain_sessions (d code v : Nat) : (s.setDomain d code v).sessions = s.sessions := rfl
@[simp] theorem State.setDomain_chain (d code v : Nat) : (s.setDomain d code v).chain = s.chain := rfl
@[simp] theorem State.setDomain_wdogAt (d code v : Nat) : (s.setDomain d code v).wdogAt = s.wdogAt := rfl
@[simp] theorem State.setDomain_thermTrip (d code v : Nat) : (s.setDomain d code v).thermTrip = s.thermTrip := rfl
@[simp] theorem State.setDomain_toggles (d code v : Nat) : (s.setDomain d code v).toggles = s.toggles := rfl
@[simp] theorem State.setDomain_hmHalt (d code v : Nat) : (s.setDomain d code v).hmHalt = s.hmHalt := rfl
@[simp] theorem State.setDomain_wdogFired (d code v : Nat) : (s.setDomain d code v).wdogFired = s.wdogFired := rfl
@[simp] theorem State.setDomain_adcAt (d code v : Nat) : (s.setDomain d code v).adcAt = s.adcAt := rfl
@[simp] theorem State.setDomain_eids (d code v : Nat) : (s.setDomain d code v).eids = s.eids := rfl
@[simp] theorem State.setDomain_spdmSeq (d code v : Nat) : (s.setDomain d code v).spdmSeq = s.spdmSeq := rfl
@[simp] theorem State.setDomain_cyc (d code v : Nat) : (s.setDomain d code v).cyc = s.cyc := rfl
@[simp] theorem State.setDomain_corr (d code v : Nat) : (s.setDomain d code v).corr = s.corr := rfl
@[simp] theorem State.setDomain_ptpRun (d code v : Nat) : (s.setDomain d code v).ptpRun = s.ptpRun := rfl
@[simp] theorem State.setDomain_memRows (d code v : Nat) : (s.setDomain d code v).memRows = s.memRows := rfl
@[simp] theorem State.setDomain_bootAt (d code v : Nat) : (s.setDomain d code v).bootAt = s.bootAt := rfl
@[simp] theorem State.setDomain_outside (d code v : Nat) : (s.setDomain d code v).outside = s.outside := rfl
@[simp] theorem State.setDomain_switches (d code v : Nat) : (s.setDomain d code v).switches = s.switches := rfl
@[simp] theorem State.setDomain_now (d code v : Nat) : (s.setDomain d code v).now = s.now := rfl
@[simp] theorem State.setDomain_serving (d code v : Nat) : (s.setDomain d code v).serving = s.serving := rfl
@[simp] theorem State.setDomain_reg (d code v : Nat) (r : Nat) : (s.setDomain d code v).reg r = s.reg r := rfl
@[simp] theorem State.setDomain_fld (d code v : Nat) (r hi lo : Nat) : (s.setDomain d code v).fld r hi lo = s.fld r hi lo := rfl
@[simp] theorem State.setDomain_flag (d code v : Nat) (r i : Nat) : (s.setDomain d code v).flag r i = s.flag r i := rfl
@[simp] theorem State.setDomain_berth (d code v : Nat) (i : Nat) : (s.setDomain d code v).berth i = s.berth i := rfl
@[simp] theorem State.setDomain_slot (d code v : Nat) (i j l : Nat) : (s.setDomain d code v).slot i j l = s.slot i j l := rfl
@[simp] theorem State.setDomain_word (d code v : Nat) (i : Nat) : (s.setDomain d code v).word i = s.word i := rfl
@[simp] theorem State.setDomain_page (d code v : Nat) (i j : Nat) : (s.setDomain d code v).page i j = s.page i j := rfl
@[simp] theorem State.setDomain_ep (d code v : Nat) (i : Nat) : (s.setDomain d code v).ep i = s.ep i := rfl
@[simp] theorem State.setDomain_quay (d code v : Nat) (i : Nat) : (s.setDomain d code v).quay i = s.quay i := rfl
@[simp] theorem State.setDomain_pipeOf (d code v : Nat) (i j : Nat) : (s.setDomain d code v).pipeOf i j = s.pipeOf i j := rfl
@[simp] theorem State.setDomain_hasDie (d code v : Nat) (i : Nat) : (s.setDomain d code v).hasDie i = s.hasDie i := rfl
@[simp] theorem State.setDomain_hasQuay (d code v : Nat) (i : Nat) : (s.setDomain d code v).hasQuay i = s.hasQuay i := rfl

/-! setPipe changes pipes. -/

@[simp] theorem State.setPipe_part (d k : Nat) (p : DockPipe) : (s.setPipe d k p).part = s.part := rfl
@[simp] theorem State.setPipe_pending (d k : Nat) (p : DockPipe) : (s.setPipe d k p).pending = s.pending := rfl
@[simp] theorem State.setPipe_htime (d k : Nat) (p : DockPipe) : (s.setPipe d k p).htime = s.htime := rfl
@[simp] theorem State.setPipe_draws (d k : Nat) (p : DockPipe) : (s.setPipe d k p).draws = s.draws := rfl
@[simp] theorem State.setPipe_bus (d k : Nat) (p : DockPipe) : (s.setPipe d k p).bus = s.bus := rfl
@[simp] theorem State.setPipe_mem (d k : Nat) (p : DockPipe) : (s.setPipe d k p).mem = s.mem := rfl
@[simp] theorem State.setPipe_ecc (d k : Nat) (p : DockPipe) : (s.setPipe d k p).ecc = s.ecc := rfl
@[simp] theorem State.setPipe_regs (d k : Nat) (p : DockPipe) : (s.setPipe d k p).regs = s.regs := rfl
@[simp] theorem State.setPipe_pages (d k : Nat) (p : DockPipe) : (s.setPipe d k p).pages = s.pages := rfl
@[simp] theorem State.setPipe_groups (d k : Nat) (p : DockPipe) : (s.setPipe d k p).groups = s.groups := rfl
@[simp] theorem State.setPipe_hold (d k : Nat) (p : DockPipe) : (s.setPipe d k p).hold = s.hold := rfl
@[simp] theorem State.setPipe_berths (d k : Nat) (p : DockPipe) : (s.setPipe d k p).berths = s.berths := rfl
@[simp] theorem State.setPipe_rowCe (d k : Nat) (p : DockPipe) : (s.setPipe d k p).rowCe = s.rowCe := rfl
@[simp] theorem State.setPipe_repairQ (d k : Nat) (p : DockPipe) : (s.setPipe d k p).repairQ = s.repairQ := rfl
@[simp] theorem State.setPipe_slots (d k : Nat) (p : DockPipe) : (s.setPipe d k p).slots = s.slots := rfl
@[simp] theorem State.setPipe_eps (d k : Nat) (p : DockPipe) : (s.setPipe d k p).eps = s.eps := rfl
@[simp] theorem State.setPipe_flying (d k : Nat) (p : DockPipe) : (s.setPipe d k p).flying = s.flying := rfl
@[simp] theorem State.setPipe_faultLog (d k : Nat) (p : DockPipe) : (s.setPipe d k p).faultLog = s.faultLog := rfl
@[simp] theorem State.setPipe_faultSeq (d k : Nat) (p : DockPipe) : (s.setPipe d k p).faultSeq = s.faultSeq := rfl
@[simp] theorem State.setPipe_pads (d k : Nat) (p : DockPipe) : (s.setPipe d k p).pads = s.pads := rfl
@[simp] theorem State.setPipe_sync (d k : Nat) (p : DockPipe) : (s.setPipe d k p).sync = s.sync := rfl
@[simp] theorem State.setPipe_domains (d k : Nat) (p : DockPipe) : (s.setPipe d k p).domains = s.domains := rfl
@[simp] theorem State.setPipe_prof (d k : Nat) (p : DockPipe) : (s.setPipe d k p).prof = s.prof := rfl
@[simp] theorem State.setPipe_slices (d k : Nat) (p : DockPipe) : (s.setPipe d k p).slices = s.slices := rfl
@[simp] theorem State.setPipe_follow (d k : Nat) (p : DockPipe) : (s.setPipe d k p).follow = s.follow := rfl
@[simp] theorem State.setPipe_htT (d k : Nat) (p : DockPipe) : (s.setPipe d k p).htT = s.htT := rfl
@[simp] theorem State.setPipe_quays (d k : Nat) (p : DockPipe) : (s.setPipe d k p).quays = s.quays := rfl
@[simp] theorem State.setPipe_testLog (d k : Nat) (p : DockPipe) : (s.setPipe d k p).testLog = s.testLog := rfl
@[simp] theorem State.setPipe_spareAt (d k : Nat) (p : DockPipe) : (s.setPipe d k p).spareAt = s.spareAt := rfl
@[simp] theorem State.setPipe_engAt (d k : Nat) (p : DockPipe) : (s.setPipe d k p).engAt = s.engAt := rfl
@[simp] theorem State.setPipe_voteAt (d k : Nat) (p : DockPipe) : (s.setPipe d k p).voteAt = s.voteAt := rfl
@[simp] theorem State.setPipe_latches (d k : Nat) (p : DockPipe) : (s.setPipe d k p).latches = s.latches := rfl
@[simp] theorem State.setPipe_patrol (d k : Nat) (p : DockPipe) : (s.setPipe d k p).patrol = s.patrol := rfl
@[simp] theorem State.setPipe_repairing (d k : Nat) (p : DockPipe) : (s.setPipe d k p).repairing = s.repairing := rfl
@[simp] theorem State.setPipe_retire (d k : Nat) (p : DockPipe) : (s.setPipe d k p).retire = s.retire := rfl
@[simp] theorem State.setPipe_mctp (d k : Nat) (p : DockPipe) : (s.setPipe d k p).mctp = s.mctp := rfl
@[simp] theorem State.setPipe_denied (d k : Nat) (p : DockPipe) : (s.setPipe d k p).denied = s.denied := rfl
@[simp] theorem State.setPipe_ptp (d k : Nat) (p : DockPipe) : (s.setPipe d k p).ptp = s.ptp := rfl
@[simp] theorem State.setPipe_pw (d k : Nat) (p : DockPipe) : (s.setPipe d k p).pw = s.pw := rfl
@[simp] theorem State.setPipe_entries (d k : Nat) (p : DockPipe) : (s.setPipe d k p).entries = s.entries := rfl
@[simp] theorem State.setPipe_keeper (d k : Nat) (p : DockPipe) : (s.setPipe d k p).keeper = s.keeper := rfl
@[simp] theorem State.setPipe_otp (d k : Nat) (p : DockPipe) : (s.setPipe d k p).otp = s.otp := rfl
@[simp] theorem State.setPipe_flash (d k : Nat) (p : DockPipe) : (s.setPipe d k p).flash = s.flash := rfl
@[simp] theorem State.setPipe_profTable (d k : Nat) (p : DockPipe) : (s.setPipe d k p).profTable = s.profTable := rfl
@[simp] theorem State.setPipe_keyStore (d k : Nat) (p : DockPipe) : (s.setPipe d k p).keyStore = s.keyStore := rfl
@[simp] theorem State.setPipe_attKey (d k : Nat) (p : DockPipe) : (s.setPipe d k p).attKey = s.attKey := rfl
@[simp] theorem State.setPipe_scanned (d k : Nat) (p : DockPipe) : (s.setPipe d k p).scanned = s.scanned := rfl
@[simp] theorem State.setPipe_fwVer (d k : Nat) (p : DockPipe) : (s.setPipe d k p).fwVer = s.fwVer := rfl
@[simp] theorem State.setPipe_dieImg (d k : Nat) (p : DockPipe) : (s.setPipe d k p).dieImg = s.dieImg := rfl
@[simp] theorem State.setPipe_dockImg (d k : Nat) (p : DockPipe) : (s.setPipe d k p).dockImg = s.dockImg := rfl
@[simp] theorem State.setPipe_cstore (d k : Nat) (p : DockPipe) : (s.setPipe d k p).cstore = s.cstore := rfl
@[simp] theorem State.setPipe_newRepairs (d k : Nat) (p : DockPipe) : (s.setPipe d k p).newRepairs = s.newRepairs := rfl
@[simp] theorem State.setPipe_repairs (d k : Nat) (p : DockPipe) : (s.setPipe d k p).repairs = s.repairs := rfl
@[simp] theorem State.setPipe_repairCopy (d k : Nat) (p : DockPipe) : (s.setPipe d k p).repairCopy = s.repairCopy := rfl
@[simp] theorem State.setPipe_repairSeq (d k : Nat) (p : DockPipe) : (s.setPipe d k p).repairSeq = s.repairSeq := rfl
@[simp] theorem State.setPipe_sessions (d k : Nat) (p : DockPipe) : (s.setPipe d k p).sessions = s.sessions := rfl
@[simp] theorem State.setPipe_chain (d k : Nat) (p : DockPipe) : (s.setPipe d k p).chain = s.chain := rfl
@[simp] theorem State.setPipe_wdogAt (d k : Nat) (p : DockPipe) : (s.setPipe d k p).wdogAt = s.wdogAt := rfl
@[simp] theorem State.setPipe_thermTrip (d k : Nat) (p : DockPipe) : (s.setPipe d k p).thermTrip = s.thermTrip := rfl
@[simp] theorem State.setPipe_toggles (d k : Nat) (p : DockPipe) : (s.setPipe d k p).toggles = s.toggles := rfl
@[simp] theorem State.setPipe_hmHalt (d k : Nat) (p : DockPipe) : (s.setPipe d k p).hmHalt = s.hmHalt := rfl
@[simp] theorem State.setPipe_wdogFired (d k : Nat) (p : DockPipe) : (s.setPipe d k p).wdogFired = s.wdogFired := rfl
@[simp] theorem State.setPipe_adcAt (d k : Nat) (p : DockPipe) : (s.setPipe d k p).adcAt = s.adcAt := rfl
@[simp] theorem State.setPipe_eids (d k : Nat) (p : DockPipe) : (s.setPipe d k p).eids = s.eids := rfl
@[simp] theorem State.setPipe_spdmSeq (d k : Nat) (p : DockPipe) : (s.setPipe d k p).spdmSeq = s.spdmSeq := rfl
@[simp] theorem State.setPipe_cyc (d k : Nat) (p : DockPipe) : (s.setPipe d k p).cyc = s.cyc := rfl
@[simp] theorem State.setPipe_corr (d k : Nat) (p : DockPipe) : (s.setPipe d k p).corr = s.corr := rfl
@[simp] theorem State.setPipe_ptpRun (d k : Nat) (p : DockPipe) : (s.setPipe d k p).ptpRun = s.ptpRun := rfl
@[simp] theorem State.setPipe_memRows (d k : Nat) (p : DockPipe) : (s.setPipe d k p).memRows = s.memRows := rfl
@[simp] theorem State.setPipe_bootAt (d k : Nat) (p : DockPipe) : (s.setPipe d k p).bootAt = s.bootAt := rfl
@[simp] theorem State.setPipe_outside (d k : Nat) (p : DockPipe) : (s.setPipe d k p).outside = s.outside := rfl
@[simp] theorem State.setPipe_switches (d k : Nat) (p : DockPipe) : (s.setPipe d k p).switches = s.switches := rfl
@[simp] theorem State.setPipe_now (d k : Nat) (p : DockPipe) : (s.setPipe d k p).now = s.now := rfl
@[simp] theorem State.setPipe_serving (d k : Nat) (p : DockPipe) : (s.setPipe d k p).serving = s.serving := rfl
@[simp] theorem State.setPipe_reg (d k : Nat) (p : DockPipe) (r : Nat) : (s.setPipe d k p).reg r = s.reg r := rfl
@[simp] theorem State.setPipe_fld (d k : Nat) (p : DockPipe) (r hi lo : Nat) : (s.setPipe d k p).fld r hi lo = s.fld r hi lo := rfl
@[simp] theorem State.setPipe_flag (d k : Nat) (p : DockPipe) (r i : Nat) : (s.setPipe d k p).flag r i = s.flag r i := rfl
@[simp] theorem State.setPipe_berth (d k : Nat) (p : DockPipe) (i : Nat) : (s.setPipe d k p).berth i = s.berth i := rfl
@[simp] theorem State.setPipe_slot (d k : Nat) (p : DockPipe) (i j l : Nat) : (s.setPipe d k p).slot i j l = s.slot i j l := rfl
@[simp] theorem State.setPipe_word (d k : Nat) (p : DockPipe) (i : Nat) : (s.setPipe d k p).word i = s.word i := rfl
@[simp] theorem State.setPipe_page (d k : Nat) (p : DockPipe) (i j : Nat) : (s.setPipe d k p).page i j = s.page i j := rfl
@[simp] theorem State.setPipe_ep (d k : Nat) (p : DockPipe) (i : Nat) : (s.setPipe d k p).ep i = s.ep i := rfl
@[simp] theorem State.setPipe_quay (d k : Nat) (p : DockPipe) (i : Nat) : (s.setPipe d k p).quay i = s.quay i := rfl
@[simp] theorem State.setPipe_domain (d k : Nat) (p : DockPipe) (i kc : Nat) : (s.setPipe d k p).domain i kc = s.domain i kc := rfl
@[simp] theorem State.setPipe_hasDie (d k : Nat) (p : DockPipe) (i : Nat) : (s.setPipe d k p).hasDie i = s.hasDie i := rfl
@[simp] theorem State.setPipe_hasQuay (d k : Nat) (p : DockPipe) (i : Nat) : (s.setPipe d k p).hasQuay i = s.hasQuay i := rfl

/-! setCsBank changes cstore. -/

@[simp] theorem State.setCsBank_part (d k n : Nat) (c : CBank) : (s.setCsBank d k n c).part = s.part := rfl
@[simp] theorem State.setCsBank_pending (d k n : Nat) (c : CBank) : (s.setCsBank d k n c).pending = s.pending := rfl
@[simp] theorem State.setCsBank_htime (d k n : Nat) (c : CBank) : (s.setCsBank d k n c).htime = s.htime := rfl
@[simp] theorem State.setCsBank_draws (d k n : Nat) (c : CBank) : (s.setCsBank d k n c).draws = s.draws := rfl
@[simp] theorem State.setCsBank_bus (d k n : Nat) (c : CBank) : (s.setCsBank d k n c).bus = s.bus := rfl
@[simp] theorem State.setCsBank_mem (d k n : Nat) (c : CBank) : (s.setCsBank d k n c).mem = s.mem := rfl
@[simp] theorem State.setCsBank_ecc (d k n : Nat) (c : CBank) : (s.setCsBank d k n c).ecc = s.ecc := rfl
@[simp] theorem State.setCsBank_regs (d k n : Nat) (c : CBank) : (s.setCsBank d k n c).regs = s.regs := rfl
@[simp] theorem State.setCsBank_pages (d k n : Nat) (c : CBank) : (s.setCsBank d k n c).pages = s.pages := rfl
@[simp] theorem State.setCsBank_groups (d k n : Nat) (c : CBank) : (s.setCsBank d k n c).groups = s.groups := rfl
@[simp] theorem State.setCsBank_hold (d k n : Nat) (c : CBank) : (s.setCsBank d k n c).hold = s.hold := rfl
@[simp] theorem State.setCsBank_berths (d k n : Nat) (c : CBank) : (s.setCsBank d k n c).berths = s.berths := rfl
@[simp] theorem State.setCsBank_rowCe (d k n : Nat) (c : CBank) : (s.setCsBank d k n c).rowCe = s.rowCe := rfl
@[simp] theorem State.setCsBank_repairQ (d k n : Nat) (c : CBank) : (s.setCsBank d k n c).repairQ = s.repairQ := rfl
@[simp] theorem State.setCsBank_slots (d k n : Nat) (c : CBank) : (s.setCsBank d k n c).slots = s.slots := rfl
@[simp] theorem State.setCsBank_eps (d k n : Nat) (c : CBank) : (s.setCsBank d k n c).eps = s.eps := rfl
@[simp] theorem State.setCsBank_flying (d k n : Nat) (c : CBank) : (s.setCsBank d k n c).flying = s.flying := rfl
@[simp] theorem State.setCsBank_faultLog (d k n : Nat) (c : CBank) : (s.setCsBank d k n c).faultLog = s.faultLog := rfl
@[simp] theorem State.setCsBank_faultSeq (d k n : Nat) (c : CBank) : (s.setCsBank d k n c).faultSeq = s.faultSeq := rfl
@[simp] theorem State.setCsBank_pads (d k n : Nat) (c : CBank) : (s.setCsBank d k n c).pads = s.pads := rfl
@[simp] theorem State.setCsBank_sync (d k n : Nat) (c : CBank) : (s.setCsBank d k n c).sync = s.sync := rfl
@[simp] theorem State.setCsBank_domains (d k n : Nat) (c : CBank) : (s.setCsBank d k n c).domains = s.domains := rfl
@[simp] theorem State.setCsBank_prof (d k n : Nat) (c : CBank) : (s.setCsBank d k n c).prof = s.prof := rfl
@[simp] theorem State.setCsBank_slices (d k n : Nat) (c : CBank) : (s.setCsBank d k n c).slices = s.slices := rfl
@[simp] theorem State.setCsBank_follow (d k n : Nat) (c : CBank) : (s.setCsBank d k n c).follow = s.follow := rfl
@[simp] theorem State.setCsBank_htT (d k n : Nat) (c : CBank) : (s.setCsBank d k n c).htT = s.htT := rfl
@[simp] theorem State.setCsBank_pipes (d k n : Nat) (c : CBank) : (s.setCsBank d k n c).pipes = s.pipes := rfl
@[simp] theorem State.setCsBank_quays (d k n : Nat) (c : CBank) : (s.setCsBank d k n c).quays = s.quays := rfl
@[simp] theorem State.setCsBank_testLog (d k n : Nat) (c : CBank) : (s.setCsBank d k n c).testLog = s.testLog := rfl
@[simp] theorem State.setCsBank_spareAt (d k n : Nat) (c : CBank) : (s.setCsBank d k n c).spareAt = s.spareAt := rfl
@[simp] theorem State.setCsBank_engAt (d k n : Nat) (c : CBank) : (s.setCsBank d k n c).engAt = s.engAt := rfl
@[simp] theorem State.setCsBank_voteAt (d k n : Nat) (c : CBank) : (s.setCsBank d k n c).voteAt = s.voteAt := rfl
@[simp] theorem State.setCsBank_latches (d k n : Nat) (c : CBank) : (s.setCsBank d k n c).latches = s.latches := rfl
@[simp] theorem State.setCsBank_patrol (d k n : Nat) (c : CBank) : (s.setCsBank d k n c).patrol = s.patrol := rfl
@[simp] theorem State.setCsBank_repairing (d k n : Nat) (c : CBank) : (s.setCsBank d k n c).repairing = s.repairing := rfl
@[simp] theorem State.setCsBank_retire (d k n : Nat) (c : CBank) : (s.setCsBank d k n c).retire = s.retire := rfl
@[simp] theorem State.setCsBank_mctp (d k n : Nat) (c : CBank) : (s.setCsBank d k n c).mctp = s.mctp := rfl
@[simp] theorem State.setCsBank_denied (d k n : Nat) (c : CBank) : (s.setCsBank d k n c).denied = s.denied := rfl
@[simp] theorem State.setCsBank_ptp (d k n : Nat) (c : CBank) : (s.setCsBank d k n c).ptp = s.ptp := rfl
@[simp] theorem State.setCsBank_pw (d k n : Nat) (c : CBank) : (s.setCsBank d k n c).pw = s.pw := rfl
@[simp] theorem State.setCsBank_entries (d k n : Nat) (c : CBank) : (s.setCsBank d k n c).entries = s.entries := rfl
@[simp] theorem State.setCsBank_keeper (d k n : Nat) (c : CBank) : (s.setCsBank d k n c).keeper = s.keeper := rfl
@[simp] theorem State.setCsBank_otp (d k n : Nat) (c : CBank) : (s.setCsBank d k n c).otp = s.otp := rfl
@[simp] theorem State.setCsBank_flash (d k n : Nat) (c : CBank) : (s.setCsBank d k n c).flash = s.flash := rfl
@[simp] theorem State.setCsBank_profTable (d k n : Nat) (c : CBank) : (s.setCsBank d k n c).profTable = s.profTable := rfl
@[simp] theorem State.setCsBank_keyStore (d k n : Nat) (c : CBank) : (s.setCsBank d k n c).keyStore = s.keyStore := rfl
@[simp] theorem State.setCsBank_attKey (d k n : Nat) (c : CBank) : (s.setCsBank d k n c).attKey = s.attKey := rfl
@[simp] theorem State.setCsBank_scanned (d k n : Nat) (c : CBank) : (s.setCsBank d k n c).scanned = s.scanned := rfl
@[simp] theorem State.setCsBank_fwVer (d k n : Nat) (c : CBank) : (s.setCsBank d k n c).fwVer = s.fwVer := rfl
@[simp] theorem State.setCsBank_dieImg (d k n : Nat) (c : CBank) : (s.setCsBank d k n c).dieImg = s.dieImg := rfl
@[simp] theorem State.setCsBank_dockImg (d k n : Nat) (c : CBank) : (s.setCsBank d k n c).dockImg = s.dockImg := rfl
@[simp] theorem State.setCsBank_newRepairs (d k n : Nat) (c : CBank) : (s.setCsBank d k n c).newRepairs = s.newRepairs := rfl
@[simp] theorem State.setCsBank_repairs (d k n : Nat) (c : CBank) : (s.setCsBank d k n c).repairs = s.repairs := rfl
@[simp] theorem State.setCsBank_repairCopy (d k n : Nat) (c : CBank) : (s.setCsBank d k n c).repairCopy = s.repairCopy := rfl
@[simp] theorem State.setCsBank_repairSeq (d k n : Nat) (c : CBank) : (s.setCsBank d k n c).repairSeq = s.repairSeq := rfl
@[simp] theorem State.setCsBank_sessions (d k n : Nat) (c : CBank) : (s.setCsBank d k n c).sessions = s.sessions := rfl
@[simp] theorem State.setCsBank_chain (d k n : Nat) (c : CBank) : (s.setCsBank d k n c).chain = s.chain := rfl
@[simp] theorem State.setCsBank_wdogAt (d k n : Nat) (c : CBank) : (s.setCsBank d k n c).wdogAt = s.wdogAt := rfl
@[simp] theorem State.setCsBank_thermTrip (d k n : Nat) (c : CBank) : (s.setCsBank d k n c).thermTrip = s.thermTrip := rfl
@[simp] theorem State.setCsBank_toggles (d k n : Nat) (c : CBank) : (s.setCsBank d k n c).toggles = s.toggles := rfl
@[simp] theorem State.setCsBank_hmHalt (d k n : Nat) (c : CBank) : (s.setCsBank d k n c).hmHalt = s.hmHalt := rfl
@[simp] theorem State.setCsBank_wdogFired (d k n : Nat) (c : CBank) : (s.setCsBank d k n c).wdogFired = s.wdogFired := rfl
@[simp] theorem State.setCsBank_adcAt (d k n : Nat) (c : CBank) : (s.setCsBank d k n c).adcAt = s.adcAt := rfl
@[simp] theorem State.setCsBank_eids (d k n : Nat) (c : CBank) : (s.setCsBank d k n c).eids = s.eids := rfl
@[simp] theorem State.setCsBank_spdmSeq (d k n : Nat) (c : CBank) : (s.setCsBank d k n c).spdmSeq = s.spdmSeq := rfl
@[simp] theorem State.setCsBank_cyc (d k n : Nat) (c : CBank) : (s.setCsBank d k n c).cyc = s.cyc := rfl
@[simp] theorem State.setCsBank_corr (d k n : Nat) (c : CBank) : (s.setCsBank d k n c).corr = s.corr := rfl
@[simp] theorem State.setCsBank_ptpRun (d k n : Nat) (c : CBank) : (s.setCsBank d k n c).ptpRun = s.ptpRun := rfl
@[simp] theorem State.setCsBank_memRows (d k n : Nat) (c : CBank) : (s.setCsBank d k n c).memRows = s.memRows := rfl
@[simp] theorem State.setCsBank_bootAt (d k n : Nat) (c : CBank) : (s.setCsBank d k n c).bootAt = s.bootAt := rfl
@[simp] theorem State.setCsBank_outside (d k n : Nat) (c : CBank) : (s.setCsBank d k n c).outside = s.outside := rfl
@[simp] theorem State.setCsBank_switches (d k n : Nat) (c : CBank) : (s.setCsBank d k n c).switches = s.switches := rfl
@[simp] theorem State.setCsBank_now (d k n : Nat) (c : CBank) : (s.setCsBank d k n c).now = s.now := rfl
@[simp] theorem State.setCsBank_serving (d k n : Nat) (c : CBank) : (s.setCsBank d k n c).serving = s.serving := rfl
@[simp] theorem State.setCsBank_reg (d k n : Nat) (c : CBank) (r : Nat) : (s.setCsBank d k n c).reg r = s.reg r := rfl
@[simp] theorem State.setCsBank_fld (d k n : Nat) (c : CBank) (r hi lo : Nat) : (s.setCsBank d k n c).fld r hi lo = s.fld r hi lo := rfl
@[simp] theorem State.setCsBank_flag (d k n : Nat) (c : CBank) (r i : Nat) : (s.setCsBank d k n c).flag r i = s.flag r i := rfl
@[simp] theorem State.setCsBank_berth (d k n : Nat) (c : CBank) (i : Nat) : (s.setCsBank d k n c).berth i = s.berth i := rfl
@[simp] theorem State.setCsBank_slot (d k n : Nat) (c : CBank) (i j l : Nat) : (s.setCsBank d k n c).slot i j l = s.slot i j l := rfl
@[simp] theorem State.setCsBank_word (d k n : Nat) (c : CBank) (i : Nat) : (s.setCsBank d k n c).word i = s.word i := rfl
@[simp] theorem State.setCsBank_page (d k n : Nat) (c : CBank) (i j : Nat) : (s.setCsBank d k n c).page i j = s.page i j := rfl
@[simp] theorem State.setCsBank_ep (d k n : Nat) (c : CBank) (i : Nat) : (s.setCsBank d k n c).ep i = s.ep i := rfl
@[simp] theorem State.setCsBank_quay (d k n : Nat) (c : CBank) (i : Nat) : (s.setCsBank d k n c).quay i = s.quay i := rfl
@[simp] theorem State.setCsBank_domain (d k n : Nat) (c : CBank) (i kc : Nat) : (s.setCsBank d k n c).domain i kc = s.domain i kc := rfl
@[simp] theorem State.setCsBank_pipeOf (d k n : Nat) (c : CBank) (i j : Nat) : (s.setCsBank d k n c).pipeOf i j = s.pipeOf i j := rfl
@[simp] theorem State.setCsBank_hasDie (d k n : Nat) (c : CBank) (i : Nat) : (s.setCsBank d k n c).hasDie i = s.hasDie i := rfl
@[simp] theorem State.setCsBank_hasQuay (d k n : Nat) (c : CBank) (i : Nat) : (s.setCsBank d k n c).hasQuay i = s.hasQuay i := rfl

/-! setFld changes regs. -/

@[simp] theorem State.setFld_part (a hi lo x : Nat) : (s.setFld a hi lo x).part = s.part := rfl
@[simp] theorem State.setFld_pending (a hi lo x : Nat) : (s.setFld a hi lo x).pending = s.pending := rfl
@[simp] theorem State.setFld_htime (a hi lo x : Nat) : (s.setFld a hi lo x).htime = s.htime := rfl
@[simp] theorem State.setFld_draws (a hi lo x : Nat) : (s.setFld a hi lo x).draws = s.draws := rfl
@[simp] theorem State.setFld_bus (a hi lo x : Nat) : (s.setFld a hi lo x).bus = s.bus := rfl
@[simp] theorem State.setFld_mem (a hi lo x : Nat) : (s.setFld a hi lo x).mem = s.mem := rfl
@[simp] theorem State.setFld_ecc (a hi lo x : Nat) : (s.setFld a hi lo x).ecc = s.ecc := rfl
@[simp] theorem State.setFld_pages (a hi lo x : Nat) : (s.setFld a hi lo x).pages = s.pages := rfl
@[simp] theorem State.setFld_groups (a hi lo x : Nat) : (s.setFld a hi lo x).groups = s.groups := rfl
@[simp] theorem State.setFld_hold (a hi lo x : Nat) : (s.setFld a hi lo x).hold = s.hold := rfl
@[simp] theorem State.setFld_berths (a hi lo x : Nat) : (s.setFld a hi lo x).berths = s.berths := rfl
@[simp] theorem State.setFld_rowCe (a hi lo x : Nat) : (s.setFld a hi lo x).rowCe = s.rowCe := rfl
@[simp] theorem State.setFld_repairQ (a hi lo x : Nat) : (s.setFld a hi lo x).repairQ = s.repairQ := rfl
@[simp] theorem State.setFld_slots (a hi lo x : Nat) : (s.setFld a hi lo x).slots = s.slots := rfl
@[simp] theorem State.setFld_eps (a hi lo x : Nat) : (s.setFld a hi lo x).eps = s.eps := rfl
@[simp] theorem State.setFld_flying (a hi lo x : Nat) : (s.setFld a hi lo x).flying = s.flying := rfl
@[simp] theorem State.setFld_faultLog (a hi lo x : Nat) : (s.setFld a hi lo x).faultLog = s.faultLog := rfl
@[simp] theorem State.setFld_faultSeq (a hi lo x : Nat) : (s.setFld a hi lo x).faultSeq = s.faultSeq := rfl
@[simp] theorem State.setFld_pads (a hi lo x : Nat) : (s.setFld a hi lo x).pads = s.pads := rfl
@[simp] theorem State.setFld_sync (a hi lo x : Nat) : (s.setFld a hi lo x).sync = s.sync := rfl
@[simp] theorem State.setFld_domains (a hi lo x : Nat) : (s.setFld a hi lo x).domains = s.domains := rfl
@[simp] theorem State.setFld_prof (a hi lo x : Nat) : (s.setFld a hi lo x).prof = s.prof := rfl
@[simp] theorem State.setFld_slices (a hi lo x : Nat) : (s.setFld a hi lo x).slices = s.slices := rfl
@[simp] theorem State.setFld_follow (a hi lo x : Nat) : (s.setFld a hi lo x).follow = s.follow := rfl
@[simp] theorem State.setFld_htT (a hi lo x : Nat) : (s.setFld a hi lo x).htT = s.htT := rfl
@[simp] theorem State.setFld_pipes (a hi lo x : Nat) : (s.setFld a hi lo x).pipes = s.pipes := rfl
@[simp] theorem State.setFld_quays (a hi lo x : Nat) : (s.setFld a hi lo x).quays = s.quays := rfl
@[simp] theorem State.setFld_testLog (a hi lo x : Nat) : (s.setFld a hi lo x).testLog = s.testLog := rfl
@[simp] theorem State.setFld_spareAt (a hi lo x : Nat) : (s.setFld a hi lo x).spareAt = s.spareAt := rfl
@[simp] theorem State.setFld_engAt (a hi lo x : Nat) : (s.setFld a hi lo x).engAt = s.engAt := rfl
@[simp] theorem State.setFld_voteAt (a hi lo x : Nat) : (s.setFld a hi lo x).voteAt = s.voteAt := rfl
@[simp] theorem State.setFld_latches (a hi lo x : Nat) : (s.setFld a hi lo x).latches = s.latches := rfl
@[simp] theorem State.setFld_patrol (a hi lo x : Nat) : (s.setFld a hi lo x).patrol = s.patrol := rfl
@[simp] theorem State.setFld_repairing (a hi lo x : Nat) : (s.setFld a hi lo x).repairing = s.repairing := rfl
@[simp] theorem State.setFld_retire (a hi lo x : Nat) : (s.setFld a hi lo x).retire = s.retire := rfl
@[simp] theorem State.setFld_mctp (a hi lo x : Nat) : (s.setFld a hi lo x).mctp = s.mctp := rfl
@[simp] theorem State.setFld_denied (a hi lo x : Nat) : (s.setFld a hi lo x).denied = s.denied := rfl
@[simp] theorem State.setFld_ptp (a hi lo x : Nat) : (s.setFld a hi lo x).ptp = s.ptp := rfl
@[simp] theorem State.setFld_pw (a hi lo x : Nat) : (s.setFld a hi lo x).pw = s.pw := rfl
@[simp] theorem State.setFld_entries (a hi lo x : Nat) : (s.setFld a hi lo x).entries = s.entries := rfl
@[simp] theorem State.setFld_keeper (a hi lo x : Nat) : (s.setFld a hi lo x).keeper = s.keeper := rfl
@[simp] theorem State.setFld_otp (a hi lo x : Nat) : (s.setFld a hi lo x).otp = s.otp := rfl
@[simp] theorem State.setFld_flash (a hi lo x : Nat) : (s.setFld a hi lo x).flash = s.flash := rfl
@[simp] theorem State.setFld_profTable (a hi lo x : Nat) : (s.setFld a hi lo x).profTable = s.profTable := rfl
@[simp] theorem State.setFld_keyStore (a hi lo x : Nat) : (s.setFld a hi lo x).keyStore = s.keyStore := rfl
@[simp] theorem State.setFld_attKey (a hi lo x : Nat) : (s.setFld a hi lo x).attKey = s.attKey := rfl
@[simp] theorem State.setFld_scanned (a hi lo x : Nat) : (s.setFld a hi lo x).scanned = s.scanned := rfl
@[simp] theorem State.setFld_fwVer (a hi lo x : Nat) : (s.setFld a hi lo x).fwVer = s.fwVer := rfl
@[simp] theorem State.setFld_dieImg (a hi lo x : Nat) : (s.setFld a hi lo x).dieImg = s.dieImg := rfl
@[simp] theorem State.setFld_dockImg (a hi lo x : Nat) : (s.setFld a hi lo x).dockImg = s.dockImg := rfl
@[simp] theorem State.setFld_cstore (a hi lo x : Nat) : (s.setFld a hi lo x).cstore = s.cstore := rfl
@[simp] theorem State.setFld_newRepairs (a hi lo x : Nat) : (s.setFld a hi lo x).newRepairs = s.newRepairs := rfl
@[simp] theorem State.setFld_repairs (a hi lo x : Nat) : (s.setFld a hi lo x).repairs = s.repairs := rfl
@[simp] theorem State.setFld_repairCopy (a hi lo x : Nat) : (s.setFld a hi lo x).repairCopy = s.repairCopy := rfl
@[simp] theorem State.setFld_repairSeq (a hi lo x : Nat) : (s.setFld a hi lo x).repairSeq = s.repairSeq := rfl
@[simp] theorem State.setFld_sessions (a hi lo x : Nat) : (s.setFld a hi lo x).sessions = s.sessions := rfl
@[simp] theorem State.setFld_chain (a hi lo x : Nat) : (s.setFld a hi lo x).chain = s.chain := rfl
@[simp] theorem State.setFld_wdogAt (a hi lo x : Nat) : (s.setFld a hi lo x).wdogAt = s.wdogAt := rfl
@[simp] theorem State.setFld_thermTrip (a hi lo x : Nat) : (s.setFld a hi lo x).thermTrip = s.thermTrip := rfl
@[simp] theorem State.setFld_toggles (a hi lo x : Nat) : (s.setFld a hi lo x).toggles = s.toggles := rfl
@[simp] theorem State.setFld_hmHalt (a hi lo x : Nat) : (s.setFld a hi lo x).hmHalt = s.hmHalt := rfl
@[simp] theorem State.setFld_wdogFired (a hi lo x : Nat) : (s.setFld a hi lo x).wdogFired = s.wdogFired := rfl
@[simp] theorem State.setFld_adcAt (a hi lo x : Nat) : (s.setFld a hi lo x).adcAt = s.adcAt := rfl
@[simp] theorem State.setFld_eids (a hi lo x : Nat) : (s.setFld a hi lo x).eids = s.eids := rfl
@[simp] theorem State.setFld_spdmSeq (a hi lo x : Nat) : (s.setFld a hi lo x).spdmSeq = s.spdmSeq := rfl
@[simp] theorem State.setFld_cyc (a hi lo x : Nat) : (s.setFld a hi lo x).cyc = s.cyc := rfl
@[simp] theorem State.setFld_corr (a hi lo x : Nat) : (s.setFld a hi lo x).corr = s.corr := rfl
@[simp] theorem State.setFld_ptpRun (a hi lo x : Nat) : (s.setFld a hi lo x).ptpRun = s.ptpRun := rfl
@[simp] theorem State.setFld_memRows (a hi lo x : Nat) : (s.setFld a hi lo x).memRows = s.memRows := rfl
@[simp] theorem State.setFld_bootAt (a hi lo x : Nat) : (s.setFld a hi lo x).bootAt = s.bootAt := rfl
@[simp] theorem State.setFld_outside (a hi lo x : Nat) : (s.setFld a hi lo x).outside = s.outside := rfl
@[simp] theorem State.setFld_switches (a hi lo x : Nat) : (s.setFld a hi lo x).switches = s.switches := rfl
@[simp] theorem State.setFld_now (a hi lo x : Nat) : (s.setFld a hi lo x).now = s.now := rfl
@[simp] theorem State.setFld_berth (a hi lo x : Nat) (i : Nat) : (s.setFld a hi lo x).berth i = s.berth i := rfl
@[simp] theorem State.setFld_slot (a hi lo x : Nat) (i j l : Nat) : (s.setFld a hi lo x).slot i j l = s.slot i j l := rfl
@[simp] theorem State.setFld_word (a hi lo x : Nat) (i : Nat) : (s.setFld a hi lo x).word i = s.word i := rfl
@[simp] theorem State.setFld_page (a hi lo x : Nat) (i j : Nat) : (s.setFld a hi lo x).page i j = s.page i j := rfl
@[simp] theorem State.setFld_ep (a hi lo x : Nat) (i : Nat) : (s.setFld a hi lo x).ep i = s.ep i := rfl
@[simp] theorem State.setFld_quay (a hi lo x : Nat) (i : Nat) : (s.setFld a hi lo x).quay i = s.quay i := rfl
@[simp] theorem State.setFld_domain (a hi lo x : Nat) (i kc : Nat) : (s.setFld a hi lo x).domain i kc = s.domain i kc := rfl
@[simp] theorem State.setFld_pipeOf (a hi lo x : Nat) (i j : Nat) : (s.setFld a hi lo x).pipeOf i j = s.pipeOf i j := rfl
@[simp] theorem State.setFld_hasDie (a hi lo x : Nat) (i : Nat) : (s.setFld a hi lo x).hasDie i = s.hasDie i := rfl
@[simp] theorem State.setFld_hasQuay (a hi lo x : Nat) (i : Nat) : (s.setFld a hi lo x).hasQuay i = s.hasQuay i := rfl

/-! setFlag changes regs and cyc. -/

@[simp] theorem State.setFlag_part (a n : Nat) (x : Bool) : (s.setFlag a n x).part = s.part := by cases x <;> rfl
@[simp] theorem State.setFlag_pending (a n : Nat) (x : Bool) : (s.setFlag a n x).pending = s.pending := by cases x <;> rfl
@[simp] theorem State.setFlag_htime (a n : Nat) (x : Bool) : (s.setFlag a n x).htime = s.htime := by cases x <;> rfl
@[simp] theorem State.setFlag_draws (a n : Nat) (x : Bool) : (s.setFlag a n x).draws = s.draws := by cases x <;> rfl
@[simp] theorem State.setFlag_bus (a n : Nat) (x : Bool) : (s.setFlag a n x).bus = s.bus := by cases x <;> rfl
@[simp] theorem State.setFlag_mem (a n : Nat) (x : Bool) : (s.setFlag a n x).mem = s.mem := by cases x <;> rfl
@[simp] theorem State.setFlag_ecc (a n : Nat) (x : Bool) : (s.setFlag a n x).ecc = s.ecc := by cases x <;> rfl
@[simp] theorem State.setFlag_pages (a n : Nat) (x : Bool) : (s.setFlag a n x).pages = s.pages := by cases x <;> rfl
@[simp] theorem State.setFlag_groups (a n : Nat) (x : Bool) : (s.setFlag a n x).groups = s.groups := by cases x <;> rfl
@[simp] theorem State.setFlag_hold (a n : Nat) (x : Bool) : (s.setFlag a n x).hold = s.hold := by cases x <;> rfl
@[simp] theorem State.setFlag_berths (a n : Nat) (x : Bool) : (s.setFlag a n x).berths = s.berths := by cases x <;> rfl
@[simp] theorem State.setFlag_rowCe (a n : Nat) (x : Bool) : (s.setFlag a n x).rowCe = s.rowCe := by cases x <;> rfl
@[simp] theorem State.setFlag_repairQ (a n : Nat) (x : Bool) : (s.setFlag a n x).repairQ = s.repairQ := by cases x <;> rfl
@[simp] theorem State.setFlag_slots (a n : Nat) (x : Bool) : (s.setFlag a n x).slots = s.slots := by cases x <;> rfl
@[simp] theorem State.setFlag_eps (a n : Nat) (x : Bool) : (s.setFlag a n x).eps = s.eps := by cases x <;> rfl
@[simp] theorem State.setFlag_flying (a n : Nat) (x : Bool) : (s.setFlag a n x).flying = s.flying := by cases x <;> rfl
@[simp] theorem State.setFlag_faultLog (a n : Nat) (x : Bool) : (s.setFlag a n x).faultLog = s.faultLog := by cases x <;> rfl
@[simp] theorem State.setFlag_faultSeq (a n : Nat) (x : Bool) : (s.setFlag a n x).faultSeq = s.faultSeq := by cases x <;> rfl
@[simp] theorem State.setFlag_pads (a n : Nat) (x : Bool) : (s.setFlag a n x).pads = s.pads := by cases x <;> rfl
@[simp] theorem State.setFlag_sync (a n : Nat) (x : Bool) : (s.setFlag a n x).sync = s.sync := by cases x <;> rfl
@[simp] theorem State.setFlag_domains (a n : Nat) (x : Bool) : (s.setFlag a n x).domains = s.domains := by cases x <;> rfl
@[simp] theorem State.setFlag_prof (a n : Nat) (x : Bool) : (s.setFlag a n x).prof = s.prof := by cases x <;> rfl
@[simp] theorem State.setFlag_slices (a n : Nat) (x : Bool) : (s.setFlag a n x).slices = s.slices := by cases x <;> rfl
@[simp] theorem State.setFlag_follow (a n : Nat) (x : Bool) : (s.setFlag a n x).follow = s.follow := by cases x <;> rfl
@[simp] theorem State.setFlag_htT (a n : Nat) (x : Bool) : (s.setFlag a n x).htT = s.htT := by cases x <;> rfl
@[simp] theorem State.setFlag_pipes (a n : Nat) (x : Bool) : (s.setFlag a n x).pipes = s.pipes := by cases x <;> rfl
@[simp] theorem State.setFlag_quays (a n : Nat) (x : Bool) : (s.setFlag a n x).quays = s.quays := by cases x <;> rfl
@[simp] theorem State.setFlag_testLog (a n : Nat) (x : Bool) : (s.setFlag a n x).testLog = s.testLog := by cases x <;> rfl
@[simp] theorem State.setFlag_spareAt (a n : Nat) (x : Bool) : (s.setFlag a n x).spareAt = s.spareAt := by cases x <;> rfl
@[simp] theorem State.setFlag_engAt (a n : Nat) (x : Bool) : (s.setFlag a n x).engAt = s.engAt := by cases x <;> rfl
@[simp] theorem State.setFlag_voteAt (a n : Nat) (x : Bool) : (s.setFlag a n x).voteAt = s.voteAt := by cases x <;> rfl
@[simp] theorem State.setFlag_latches (a n : Nat) (x : Bool) : (s.setFlag a n x).latches = s.latches := by cases x <;> rfl
@[simp] theorem State.setFlag_patrol (a n : Nat) (x : Bool) : (s.setFlag a n x).patrol = s.patrol := by cases x <;> rfl
@[simp] theorem State.setFlag_repairing (a n : Nat) (x : Bool) : (s.setFlag a n x).repairing = s.repairing := by cases x <;> rfl
@[simp] theorem State.setFlag_retire (a n : Nat) (x : Bool) : (s.setFlag a n x).retire = s.retire := by cases x <;> rfl
@[simp] theorem State.setFlag_mctp (a n : Nat) (x : Bool) : (s.setFlag a n x).mctp = s.mctp := by cases x <;> rfl
@[simp] theorem State.setFlag_denied (a n : Nat) (x : Bool) : (s.setFlag a n x).denied = s.denied := by cases x <;> rfl
@[simp] theorem State.setFlag_ptp (a n : Nat) (x : Bool) : (s.setFlag a n x).ptp = s.ptp := by cases x <;> rfl
@[simp] theorem State.setFlag_pw (a n : Nat) (x : Bool) : (s.setFlag a n x).pw = s.pw := by cases x <;> rfl
@[simp] theorem State.setFlag_entries (a n : Nat) (x : Bool) : (s.setFlag a n x).entries = s.entries := by cases x <;> rfl
@[simp] theorem State.setFlag_keeper (a n : Nat) (x : Bool) : (s.setFlag a n x).keeper = s.keeper := by cases x <;> rfl
@[simp] theorem State.setFlag_otp (a n : Nat) (x : Bool) : (s.setFlag a n x).otp = s.otp := by cases x <;> rfl
@[simp] theorem State.setFlag_flash (a n : Nat) (x : Bool) : (s.setFlag a n x).flash = s.flash := by cases x <;> rfl
@[simp] theorem State.setFlag_profTable (a n : Nat) (x : Bool) : (s.setFlag a n x).profTable = s.profTable := by cases x <;> rfl
@[simp] theorem State.setFlag_keyStore (a n : Nat) (x : Bool) : (s.setFlag a n x).keyStore = s.keyStore := by cases x <;> rfl
@[simp] theorem State.setFlag_attKey (a n : Nat) (x : Bool) : (s.setFlag a n x).attKey = s.attKey := by cases x <;> rfl
@[simp] theorem State.setFlag_scanned (a n : Nat) (x : Bool) : (s.setFlag a n x).scanned = s.scanned := by cases x <;> rfl
@[simp] theorem State.setFlag_fwVer (a n : Nat) (x : Bool) : (s.setFlag a n x).fwVer = s.fwVer := by cases x <;> rfl
@[simp] theorem State.setFlag_dieImg (a n : Nat) (x : Bool) : (s.setFlag a n x).dieImg = s.dieImg := by cases x <;> rfl
@[simp] theorem State.setFlag_dockImg (a n : Nat) (x : Bool) : (s.setFlag a n x).dockImg = s.dockImg := by cases x <;> rfl
@[simp] theorem State.setFlag_cstore (a n : Nat) (x : Bool) : (s.setFlag a n x).cstore = s.cstore := by cases x <;> rfl
@[simp] theorem State.setFlag_newRepairs (a n : Nat) (x : Bool) : (s.setFlag a n x).newRepairs = s.newRepairs := by cases x <;> rfl
@[simp] theorem State.setFlag_repairs (a n : Nat) (x : Bool) : (s.setFlag a n x).repairs = s.repairs := by cases x <;> rfl
@[simp] theorem State.setFlag_repairCopy (a n : Nat) (x : Bool) : (s.setFlag a n x).repairCopy = s.repairCopy := by cases x <;> rfl
@[simp] theorem State.setFlag_repairSeq (a n : Nat) (x : Bool) : (s.setFlag a n x).repairSeq = s.repairSeq := by cases x <;> rfl
@[simp] theorem State.setFlag_sessions (a n : Nat) (x : Bool) : (s.setFlag a n x).sessions = s.sessions := by cases x <;> rfl
@[simp] theorem State.setFlag_chain (a n : Nat) (x : Bool) : (s.setFlag a n x).chain = s.chain := by cases x <;> rfl
@[simp] theorem State.setFlag_wdogAt (a n : Nat) (x : Bool) : (s.setFlag a n x).wdogAt = s.wdogAt := by cases x <;> rfl
@[simp] theorem State.setFlag_thermTrip (a n : Nat) (x : Bool) : (s.setFlag a n x).thermTrip = s.thermTrip := by cases x <;> rfl
@[simp] theorem State.setFlag_toggles (a n : Nat) (x : Bool) : (s.setFlag a n x).toggles = s.toggles := by cases x <;> rfl
@[simp] theorem State.setFlag_hmHalt (a n : Nat) (x : Bool) : (s.setFlag a n x).hmHalt = s.hmHalt := by cases x <;> rfl
@[simp] theorem State.setFlag_wdogFired (a n : Nat) (x : Bool) : (s.setFlag a n x).wdogFired = s.wdogFired := by cases x <;> rfl
@[simp] theorem State.setFlag_adcAt (a n : Nat) (x : Bool) : (s.setFlag a n x).adcAt = s.adcAt := by cases x <;> rfl
@[simp] theorem State.setFlag_eids (a n : Nat) (x : Bool) : (s.setFlag a n x).eids = s.eids := by cases x <;> rfl
@[simp] theorem State.setFlag_spdmSeq (a n : Nat) (x : Bool) : (s.setFlag a n x).spdmSeq = s.spdmSeq := by cases x <;> rfl
@[simp] theorem State.setFlag_corr (a n : Nat) (x : Bool) : (s.setFlag a n x).corr = s.corr := by cases x <;> rfl
@[simp] theorem State.setFlag_ptpRun (a n : Nat) (x : Bool) : (s.setFlag a n x).ptpRun = s.ptpRun := by cases x <;> rfl
@[simp] theorem State.setFlag_memRows (a n : Nat) (x : Bool) : (s.setFlag a n x).memRows = s.memRows := by cases x <;> rfl
@[simp] theorem State.setFlag_bootAt (a n : Nat) (x : Bool) : (s.setFlag a n x).bootAt = s.bootAt := by cases x <;> rfl
@[simp] theorem State.setFlag_outside (a n : Nat) (x : Bool) : (s.setFlag a n x).outside = s.outside := by cases x <;> rfl
@[simp] theorem State.setFlag_switches (a n : Nat) (x : Bool) : (s.setFlag a n x).switches = s.switches := by cases x <;> rfl
@[simp] theorem State.setFlag_now (a n : Nat) (x : Bool) : (s.setFlag a n x).now = s.now := by cases x <;> rfl
@[simp] theorem State.setFlag_berth (a n : Nat) (x : Bool) (i : Nat) : (s.setFlag a n x).berth i = s.berth i := by cases x <;> rfl
@[simp] theorem State.setFlag_slot (a n : Nat) (x : Bool) (i j l : Nat) : (s.setFlag a n x).slot i j l = s.slot i j l := by cases x <;> rfl
@[simp] theorem State.setFlag_word (a n : Nat) (x : Bool) (i : Nat) : (s.setFlag a n x).word i = s.word i := by cases x <;> rfl
@[simp] theorem State.setFlag_page (a n : Nat) (x : Bool) (i j : Nat) : (s.setFlag a n x).page i j = s.page i j := by cases x <;> rfl
@[simp] theorem State.setFlag_ep (a n : Nat) (x : Bool) (i : Nat) : (s.setFlag a n x).ep i = s.ep i := by cases x <;> rfl
@[simp] theorem State.setFlag_quay (a n : Nat) (x : Bool) (i : Nat) : (s.setFlag a n x).quay i = s.quay i := by cases x <;> rfl
@[simp] theorem State.setFlag_domain (a n : Nat) (x : Bool) (i kc : Nat) : (s.setFlag a n x).domain i kc = s.domain i kc := by cases x <;> rfl
@[simp] theorem State.setFlag_pipeOf (a n : Nat) (x : Bool) (i j : Nat) : (s.setFlag a n x).pipeOf i j = s.pipeOf i j := by cases x <;> rfl
@[simp] theorem State.setFlag_hasDie (a n : Nat) (x : Bool) (i : Nat) : (s.setFlag a n x).hasDie i = s.hasDie i := by cases x <;> rfl
@[simp] theorem State.setFlag_hasQuay (a n : Nat) (x : Bool) (i : Nat) : (s.setFlag a n x).hasQuay i = s.hasQuay i := by cases x <;> rfl

/-! addFld changes regs. -/

@[simp] theorem State.addFld_part (a hi lo k : Nat) : (s.addFld a hi lo k).part = s.part := rfl
@[simp] theorem State.addFld_pending (a hi lo k : Nat) : (s.addFld a hi lo k).pending = s.pending := rfl
@[simp] theorem State.addFld_htime (a hi lo k : Nat) : (s.addFld a hi lo k).htime = s.htime := rfl
@[simp] theorem State.addFld_draws (a hi lo k : Nat) : (s.addFld a hi lo k).draws = s.draws := rfl
@[simp] theorem State.addFld_bus (a hi lo k : Nat) : (s.addFld a hi lo k).bus = s.bus := rfl
@[simp] theorem State.addFld_mem (a hi lo k : Nat) : (s.addFld a hi lo k).mem = s.mem := rfl
@[simp] theorem State.addFld_ecc (a hi lo k : Nat) : (s.addFld a hi lo k).ecc = s.ecc := rfl
@[simp] theorem State.addFld_pages (a hi lo k : Nat) : (s.addFld a hi lo k).pages = s.pages := rfl
@[simp] theorem State.addFld_groups (a hi lo k : Nat) : (s.addFld a hi lo k).groups = s.groups := rfl
@[simp] theorem State.addFld_hold (a hi lo k : Nat) : (s.addFld a hi lo k).hold = s.hold := rfl
@[simp] theorem State.addFld_berths (a hi lo k : Nat) : (s.addFld a hi lo k).berths = s.berths := rfl
@[simp] theorem State.addFld_rowCe (a hi lo k : Nat) : (s.addFld a hi lo k).rowCe = s.rowCe := rfl
@[simp] theorem State.addFld_repairQ (a hi lo k : Nat) : (s.addFld a hi lo k).repairQ = s.repairQ := rfl
@[simp] theorem State.addFld_slots (a hi lo k : Nat) : (s.addFld a hi lo k).slots = s.slots := rfl
@[simp] theorem State.addFld_eps (a hi lo k : Nat) : (s.addFld a hi lo k).eps = s.eps := rfl
@[simp] theorem State.addFld_flying (a hi lo k : Nat) : (s.addFld a hi lo k).flying = s.flying := rfl
@[simp] theorem State.addFld_faultLog (a hi lo k : Nat) : (s.addFld a hi lo k).faultLog = s.faultLog := rfl
@[simp] theorem State.addFld_faultSeq (a hi lo k : Nat) : (s.addFld a hi lo k).faultSeq = s.faultSeq := rfl
@[simp] theorem State.addFld_pads (a hi lo k : Nat) : (s.addFld a hi lo k).pads = s.pads := rfl
@[simp] theorem State.addFld_sync (a hi lo k : Nat) : (s.addFld a hi lo k).sync = s.sync := rfl
@[simp] theorem State.addFld_domains (a hi lo k : Nat) : (s.addFld a hi lo k).domains = s.domains := rfl
@[simp] theorem State.addFld_prof (a hi lo k : Nat) : (s.addFld a hi lo k).prof = s.prof := rfl
@[simp] theorem State.addFld_slices (a hi lo k : Nat) : (s.addFld a hi lo k).slices = s.slices := rfl
@[simp] theorem State.addFld_follow (a hi lo k : Nat) : (s.addFld a hi lo k).follow = s.follow := rfl
@[simp] theorem State.addFld_htT (a hi lo k : Nat) : (s.addFld a hi lo k).htT = s.htT := rfl
@[simp] theorem State.addFld_pipes (a hi lo k : Nat) : (s.addFld a hi lo k).pipes = s.pipes := rfl
@[simp] theorem State.addFld_quays (a hi lo k : Nat) : (s.addFld a hi lo k).quays = s.quays := rfl
@[simp] theorem State.addFld_testLog (a hi lo k : Nat) : (s.addFld a hi lo k).testLog = s.testLog := rfl
@[simp] theorem State.addFld_spareAt (a hi lo k : Nat) : (s.addFld a hi lo k).spareAt = s.spareAt := rfl
@[simp] theorem State.addFld_engAt (a hi lo k : Nat) : (s.addFld a hi lo k).engAt = s.engAt := rfl
@[simp] theorem State.addFld_voteAt (a hi lo k : Nat) : (s.addFld a hi lo k).voteAt = s.voteAt := rfl
@[simp] theorem State.addFld_latches (a hi lo k : Nat) : (s.addFld a hi lo k).latches = s.latches := rfl
@[simp] theorem State.addFld_patrol (a hi lo k : Nat) : (s.addFld a hi lo k).patrol = s.patrol := rfl
@[simp] theorem State.addFld_repairing (a hi lo k : Nat) : (s.addFld a hi lo k).repairing = s.repairing := rfl
@[simp] theorem State.addFld_retire (a hi lo k : Nat) : (s.addFld a hi lo k).retire = s.retire := rfl
@[simp] theorem State.addFld_mctp (a hi lo k : Nat) : (s.addFld a hi lo k).mctp = s.mctp := rfl
@[simp] theorem State.addFld_denied (a hi lo k : Nat) : (s.addFld a hi lo k).denied = s.denied := rfl
@[simp] theorem State.addFld_ptp (a hi lo k : Nat) : (s.addFld a hi lo k).ptp = s.ptp := rfl
@[simp] theorem State.addFld_pw (a hi lo k : Nat) : (s.addFld a hi lo k).pw = s.pw := rfl
@[simp] theorem State.addFld_entries (a hi lo k : Nat) : (s.addFld a hi lo k).entries = s.entries := rfl
@[simp] theorem State.addFld_keeper (a hi lo k : Nat) : (s.addFld a hi lo k).keeper = s.keeper := rfl
@[simp] theorem State.addFld_otp (a hi lo k : Nat) : (s.addFld a hi lo k).otp = s.otp := rfl
@[simp] theorem State.addFld_flash (a hi lo k : Nat) : (s.addFld a hi lo k).flash = s.flash := rfl
@[simp] theorem State.addFld_profTable (a hi lo k : Nat) : (s.addFld a hi lo k).profTable = s.profTable := rfl
@[simp] theorem State.addFld_keyStore (a hi lo k : Nat) : (s.addFld a hi lo k).keyStore = s.keyStore := rfl
@[simp] theorem State.addFld_attKey (a hi lo k : Nat) : (s.addFld a hi lo k).attKey = s.attKey := rfl
@[simp] theorem State.addFld_scanned (a hi lo k : Nat) : (s.addFld a hi lo k).scanned = s.scanned := rfl
@[simp] theorem State.addFld_fwVer (a hi lo k : Nat) : (s.addFld a hi lo k).fwVer = s.fwVer := rfl
@[simp] theorem State.addFld_dieImg (a hi lo k : Nat) : (s.addFld a hi lo k).dieImg = s.dieImg := rfl
@[simp] theorem State.addFld_dockImg (a hi lo k : Nat) : (s.addFld a hi lo k).dockImg = s.dockImg := rfl
@[simp] theorem State.addFld_cstore (a hi lo k : Nat) : (s.addFld a hi lo k).cstore = s.cstore := rfl
@[simp] theorem State.addFld_newRepairs (a hi lo k : Nat) : (s.addFld a hi lo k).newRepairs = s.newRepairs := rfl
@[simp] theorem State.addFld_repairs (a hi lo k : Nat) : (s.addFld a hi lo k).repairs = s.repairs := rfl
@[simp] theorem State.addFld_repairCopy (a hi lo k : Nat) : (s.addFld a hi lo k).repairCopy = s.repairCopy := rfl
@[simp] theorem State.addFld_repairSeq (a hi lo k : Nat) : (s.addFld a hi lo k).repairSeq = s.repairSeq := rfl
@[simp] theorem State.addFld_sessions (a hi lo k : Nat) : (s.addFld a hi lo k).sessions = s.sessions := rfl
@[simp] theorem State.addFld_chain (a hi lo k : Nat) : (s.addFld a hi lo k).chain = s.chain := rfl
@[simp] theorem State.addFld_wdogAt (a hi lo k : Nat) : (s.addFld a hi lo k).wdogAt = s.wdogAt := rfl
@[simp] theorem State.addFld_thermTrip (a hi lo k : Nat) : (s.addFld a hi lo k).thermTrip = s.thermTrip := rfl
@[simp] theorem State.addFld_toggles (a hi lo k : Nat) : (s.addFld a hi lo k).toggles = s.toggles := rfl
@[simp] theorem State.addFld_hmHalt (a hi lo k : Nat) : (s.addFld a hi lo k).hmHalt = s.hmHalt := rfl
@[simp] theorem State.addFld_wdogFired (a hi lo k : Nat) : (s.addFld a hi lo k).wdogFired = s.wdogFired := rfl
@[simp] theorem State.addFld_adcAt (a hi lo k : Nat) : (s.addFld a hi lo k).adcAt = s.adcAt := rfl
@[simp] theorem State.addFld_eids (a hi lo k : Nat) : (s.addFld a hi lo k).eids = s.eids := rfl
@[simp] theorem State.addFld_spdmSeq (a hi lo k : Nat) : (s.addFld a hi lo k).spdmSeq = s.spdmSeq := rfl
@[simp] theorem State.addFld_cyc (a hi lo k : Nat) : (s.addFld a hi lo k).cyc = s.cyc := rfl
@[simp] theorem State.addFld_corr (a hi lo k : Nat) : (s.addFld a hi lo k).corr = s.corr := rfl
@[simp] theorem State.addFld_ptpRun (a hi lo k : Nat) : (s.addFld a hi lo k).ptpRun = s.ptpRun := rfl
@[simp] theorem State.addFld_memRows (a hi lo k : Nat) : (s.addFld a hi lo k).memRows = s.memRows := rfl
@[simp] theorem State.addFld_bootAt (a hi lo k : Nat) : (s.addFld a hi lo k).bootAt = s.bootAt := rfl
@[simp] theorem State.addFld_outside (a hi lo k : Nat) : (s.addFld a hi lo k).outside = s.outside := rfl
@[simp] theorem State.addFld_switches (a hi lo k : Nat) : (s.addFld a hi lo k).switches = s.switches := rfl
@[simp] theorem State.addFld_now (a hi lo k : Nat) : (s.addFld a hi lo k).now = s.now := rfl
@[simp] theorem State.addFld_berth (a hi lo k : Nat) (i : Nat) : (s.addFld a hi lo k).berth i = s.berth i := rfl
@[simp] theorem State.addFld_slot (a hi lo k : Nat) (i j l : Nat) : (s.addFld a hi lo k).slot i j l = s.slot i j l := rfl
@[simp] theorem State.addFld_word (a hi lo k : Nat) (i : Nat) : (s.addFld a hi lo k).word i = s.word i := rfl
@[simp] theorem State.addFld_page (a hi lo k : Nat) (i j : Nat) : (s.addFld a hi lo k).page i j = s.page i j := rfl
@[simp] theorem State.addFld_ep (a hi lo k : Nat) (i : Nat) : (s.addFld a hi lo k).ep i = s.ep i := rfl
@[simp] theorem State.addFld_quay (a hi lo k : Nat) (i : Nat) : (s.addFld a hi lo k).quay i = s.quay i := rfl
@[simp] theorem State.addFld_domain (a hi lo k : Nat) (i kc : Nat) : (s.addFld a hi lo k).domain i kc = s.domain i kc := rfl
@[simp] theorem State.addFld_pipeOf (a hi lo k : Nat) (i j : Nat) : (s.addFld a hi lo k).pipeOf i j = s.pipeOf i j := rfl
@[simp] theorem State.addFld_hasDie (a hi lo k : Nat) (i : Nat) : (s.addFld a hi lo k).hasDie i = s.hasDie i := rfl
@[simp] theorem State.addFld_hasQuay (a hi lo k : Nat) (i : Nat) : (s.addFld a hi lo k).hasQuay i = s.hasQuay i := rfl

end Sys2Proof.Machine
end

