-- ==== Sys2Proof/Tests/Slice0.lean ====
section
/-! SUPPORT. Small states, the smoke test of WellFormed, and tests whose expected results are those the spec's text prints. -/

namespace Sys2Proof.Tests

set_option Elab.async false
open Sys2Proof Sys2Proof.Machine

/-- A ledger entry: page PRIVATE to berth 0, every right held. -/
def ownPage : Nat := pageEntry 0 0 true true true true true true true 1

/-- A running core at offset 0x100 with a stack pointer. -/
def core0 : Core := { st := .run, pc := 0x100, w := Vector.ofFn (fun n => w16 (0x200 + 0x11 * n.val)) }

/-- Berth 0 on slot 0 of dock 0 of die 0, its 16 descriptors on page 200, its watch page 201. -/
def berth0 (k : Core) : Berth where
  id := 0
  die := 0
  dock := 0
  slot := 0
  started := true
  side := {
    core := k, beam := { geo := storedGeo 0 }, au := { sacc := 5 }
    desc := Vector.replicate 16 { base := 200 * 32768, limit := 0x7FFF, r := true, w := true, x := true } }
  regs := tput (tput [] R.BM_WATCHPAGE 201 0) R.BM_WATCHCFG 16 0

/-- Reset with berth 0 in it. -/
def state0 (x : Berth) : State :=
  { State.reset with berths := [(0, x)], pages := [(200, w32 ownPage), (201, w32 ownPage)] }

/-- Berth 0 with one word of its page set. -/
def withWord (s : State) (off : Nat) (v : Word) : State := s.putWord (200 * 32768 + off) v

/-- The state an answer holds, reset for a fault or a refusal. -/
def after (a : Answer) : State :=
  match a with
  | .next t => t
  | _ => State.reset

/-- The words of an instruction placed in berth 0's page at offset 0x100. -/
def withCode (i : Instr) (s : State) : State :=
  (((encode i).getD []).zipIdx).foldl (fun (t : State) p => withWord t (0x100 + p.2) p.1) s

/-- The core of berth 0 after an instruction at its PC, from a core with some registers set. -/
def run (i : Instr) (set : List (Reg × Word)) : Core :=
  let k := set.foldl (fun (k : Core) p => { k with w := k.w.set p.1 p.2 }) core0
  match (after (exec i (withCode i (state0 (berth0 k))))).berth 0 with
  | some y => y.side.core
  | none => {}

/-- Words and the instructions the text of file 05 gives for them, and one word of every other row of its encoding table. -/
def words : List (List Word × Instr) := [
  ([0x1134], .add 0 3 4), ([0x1543], .cmp 0 4 3), ([0x237F], .movi 0 3 (.short 0x7F)), ([0x2280, 0x0140], .movi 0 2 (.long 0x0140)),
  ([0x3205], .addi 0 2 5), ([0x3440], .cmpi 0 0 0x40), ([0x39FF], .andi 0 1 0xFF), ([0x4334, 0x0020], .ld 0 3 (.disp 1 4 0x0020)),
  ([0x66FE], .st 0 6 (.preDec 2 15)), ([0x80FF], .bcc 0 .bra 0xFF), ([0xA501, 0x0BC0], .inPort 0 5 (.ext 0x0BC0)),
  ([0xB120], .out 0 (.reg 2) 1), ([0xB101, 0x00A0], .out 0 (.ext 0x00A0) 1), ([0xC443], .sar 0 4 3), ([0xD025], .mulu 0 1 5),
  ([0xDC69], .divs 0 3 9), ([0xE200, 0x0064], .waitl 0 (.ext 100)), ([0xE600, 0x0140], .waitc 0 (.ext 320)), ([0xE804], .rdbeam 0 2),
  ([0xEC21, 0x00A0], .stamp 0 0x00A0 1 2)]

def wordsOfTables : List (List Word × Instr) := [
  ([0x0000], .nop 0), ([0x0100], .wait 0), ([0x0200], .halt 0), ([0x0300], .ei 0), ([0x0400], .di 0), ([0x0500], .reti 0),
  ([0x060B], .trap 0 11), ([0x0739], .ldseg 0 3 (.imm 9)), ([0x086A], .ldseg 0 6 (.reg 10)), ([0x0907], .rdfl 0 7), ([0x0A0C], .wrfl 0 12),
  ([0x1012], .mov 0 1 2), ([0x1212], .adc 0 1 2), ([0x1312], .sub 0 1 2), ([0x1412], .sbc 0 1 2), ([0x1612], .and 0 1 2), ([0x1712], .or 0 1 2),
  ([0x1812], .xor 0 1 2), ([0x1912], .tst 0 1 2), ([0x1A12], .not 0 1 2), ([0x1B12], .neg 0 1 2), ([0x4BAC], .ld 0 11 (.base 5 12)),
  ([0x5B7D, 0xFFFE], .st 0 11 (.disp 3 13 0xFFFE)), ([0x6CD3], .ld 0 12 (.postInc 3 13)), ([0x700E], .push 0 14), ([0x710D], .pop 0 13)]

def wordsOfTables2 : List (List Word × Instr) := [
  ([0x8E80], .bcc 0 .ble 0x80), ([0x8105], .bcc 0 .beq 5), ([0x9000, 0x1234], .jmp 0 (.ext 0x1234)), ([0x910F], .jmp 0 (.reg 15)),
  ([0x9200, 0x1234, 0x00C3], .call 0 (.ext 0x1234) 0x00C3), ([0x9308, 0x8001], .call 0 (.reg 8) 0x8001), ([0x9400], .ret 0),
  ([0xA9F0], .inPort 0 9 (.reg 15)), ([0xC407], .shl 0 4 7), ([0xC427], .shr 0 4 7), ([0xC467], .rol 0 4 7), ([0xC487], .ror 0 4 7),
  ([0xC4A7], .rcl 0 4 7), ([0xC4C7], .rcr 0 4 7), ([0xD4E1], .muls 0 7 1), ([0xD801], .divu 0 0 1), ([0xE00A], .waitl 0 (.reg 10)),
  ([0xE40A], .waitc 0 (.reg 10))]

theorem test_text_words_decode : words.all (fun p => decide (decodeWords 0 p.1 = some (p.2, []))) = true := by decide +kernel

theorem test_text_words_encode : words.all (fun p => decide (encode p.2 = some p.1)) = true := by decide +kernel

theorem test_table_words_decode :
    (wordsOfTables ++ wordsOfTables2).all (fun p => decide (decodeWords 0 p.1 = some (p.2, []))) = true := by decide +kernel

/-- The encodings that file 05 calls illegal: a reserved op, a field of 0 that is not 0, an odd pair, condition 15. -/
theorem test_illegal_words :
    [(0x0B00 : Word), 0x0001, 0x0680, 0x1C00, 0x2D81, 0x3C00, 0x7200, 0x7010, 0x8F00, 0x9500, 0x9110, 0xA502, 0xA511, 0xC4E0, 0xC450,
     0xD110, 0xD010, 0xE100, 0xE210, 0xE805, 0xE810, 0xF000].all illegalWord = true := by decide +kernel

/-- One command that is not well formed for each check of WellFormed. -/
theorem test_wellFormed_refuses :
    ([.nop 2048, .composeLine 8 0 0, .composeLine 0 16 0, .quayLinkUp 144 ⟨0, true, 0⟩, .rowRepairStart 0 64 0, .pcieFlr 2 0, .voterRejoin 0 false 3 0,
      .keeperWake 4 false 0, .pfcPauseExpiry 0 8, .hicModerationRelease 0 32 0 false, .gpioEvent 48 false 0, .htGo .master (2 ^ 32) 0,
      .pairLowRead .master (2 ^ 26) 4 0, .quayReceiveFrame 0 (List.replicate 13 0) true none 0, .ledgerFence (.ep 2) 0 0 0,
      .ledgerFence (.deputy 8) 0 0 0, .illegalEncoding 0 0x0000] : List Instr).all (fun i => !wellFormed i) = true := by decide +kernel

/-- A host command from an endpoint's ring, of 64 bytes as Table 13-3 lays them out. -/
def host (op berth dptr dlen : Nat) (params data : List Byte) : Cmd where
  ep := 0
  ring := 0
  entry := leBytes 2 op ++ leBytes 2 9 ++ leBytes 4 berth ++ leBytes 8 dptr ++ leBytes 8 dlen ++ params ++ List.replicate (40 - params.length) 0
  data := data

/-- A host command of an endpoint or a ring that no part has, and entries that are not of 64 bytes. -/
theorem test_wellFormed_refuses_commands :
    let c := host 1 0 0 0 [] []
    (c.ok = true) ∧ ([{ c with ep := 2 }, { c with ring := 8 }, { c with entry := c.entry.drop 1 }, { c with entry := 0 :: c.entry }] :
      List Cmd).all (fun d => !wellFormed (.echo d 0)) = true := by decide +kernel

/-- File 05: with W3 = 0x7FF0 and W4 = 0x0020, ADD W3, W4 leaves W3 = 0x8010, Z = 0, N = 1, C = 0 and V = 1. -/
theorem test_add : let k := run (.add 0 3 4) [(3, 0x7FF0), (4, 0x0020)]
    k.w[3] = 0x8010 ∧ (k.fl.z, k.fl.n, k.fl.c, k.fl.v) = (false, true, false, true) := by decide +kernel

/-- File 05: CMP W4, W3 then has C = 1, V = 1, N = 1 and Z = 0, and writes no register. -/
theorem test_cmp : let k := run (.cmp 0 4 3) [(3, 0x8010), (4, 0x0020)]
    k.w[4] = 0x0020 ∧ (k.fl.z, k.fl.n, k.fl.c, k.fl.v) = (false, true, true, true) := by decide +kernel

/-- File 05: SAR W4, #3 with W4 = 0xFFF5 leaves W4 = 0xFFFE, C = 1, N = 1, Z = 0 and V = 0. -/
theorem test_sar : let k := run (.sar 0 4 3) [(4, 0xFFF5)]
    k.w[4] = 0xFFFE ∧ (k.fl.c, k.fl.n, k.fl.z, k.fl.v) = (true, true, false, false) := by decide +kernel

/-- File 05: MULU W2, W5 with W3 = 0x1234 and W5 = 0x0100 leaves W2 = 0x0012, W3 = 0x3400, C = 1 and V = 1. -/
theorem test_mulu : let k := run (.mulu 0 1 5) [(3, 0x1234), (5, 0x0100)]
    (k.w[2], k.w[3]) = (0x0012, 0x3400) ∧ (k.fl.c, k.fl.v) = (true, true) := by decide +kernel

/-- File 05: DIVS W6, W9 with W6:W7 = 0xFFFF_FFF5 and W9 = 4 leaves W7 = 0xFFFE, W6 = 0xFFFD, N = 1 and Z = 0. -/
theorem test_divs : let k := run (.divs 0 3 9) [(6, 0xFFFF), (7, 0xFFF5), (9, 4)]
    (k.w[7], k.w[6]) = (0xFFFE, 0xFFFD) ∧ (k.fl.n, k.fl.z) = (true, false) := by decide +kernel

/-- R138's frame: CALL with mask 0x00C3 at W15 = 0x8000 writes W0, W1, W6, W7, the return offset and the mask downward. -/
theorem test_call :
    let k := [(15, 0x8000), (0, 11), (1, 22), (6, 33), (7, 44)].foldl (fun (k : Core) (p : Reg × Word) => { k with w := k.w.set p.1 p.2 }) core0
    let t := after (exec (.call 0 (.ext 0x0040) 0x00C3) (withCode (.call 0 (.ext 0x0040) 0x00C3) (state0 (berth0 k))))
    ([0x7FFF, 0x7FFE, 0x7FFD, 0x7FFC, 0x7FFB, 0x7FFA].map (fun o => (t.word (200 * 32768 + o)).toNat)) = [11, 22, 33, 44, 0x103, 0x00C3] ∧
      (t.berth 0).map (fun y => (y.side.core.w[15], y.side.core.pc)) = some (0x7FFA, 0x0040) := by decide +kernel

/-- R183: PUSH with W15 = 0x8000 stores W1 at offset 0x7FFF of S2 and leaves W15 = 0x7FFF. -/
theorem test_push :
    let k := [(15, 0x8000), (1, 77)].foldl (fun (k : Core) (p : Reg × Word) => { k with w := k.w.set p.1 p.2 }) core0
    let t := after (exec (.push 0 1) (withCode (.push 0 1) (state0 (berth0 k))))
    (t.word (200 * 32768 + 0x7FFF)).toNat = 77 ∧ (t.berth 0).map (fun y => y.side.core.w[15]) = some 0x7FFF := by decide +kernel

/-- File 01: slot 16 of dock 11 of die 5 starts at 0x029B_C000, and quay 97's block at 0x02C7_0000. -/
theorem test_addresses : dockAddr 5 11 (0x8000 + 16 * 0x400) = 0x029BC000 ∧ quayAddr 97 0 = 0x02C70000 := by decide +kernel

/-- File 08: (200, 970, 528) at column 320 of line 100 is stored as 0x37B1 without dither and 0x3790 with it. -/
theorem test_frame_pixel : let v := 200 * 2 ^ 20 + 970 * 2 ^ 10 + 528
    pix16 false 100 320 v = 0x37B1 ∧ pix16 true 100 320 v = 0x3790 := by decide +kernel

/-- File 07: the buoy's sums, differences, averages and weighted sums with EA 10 and EB 6. -/
theorem test_blend :
    [1, 2, 3, 4].map (fun md => [(800, 200), (400, 970), (100, 528)].map (fun p => blendChan md 10 6 p.1 p.2)) =
      [[1000, 1023, 628], [600, 0, 0], [500, 685, 314], [575, 614, 261]] := by decide +kernel

end Sys2Proof.Tests
end

