-- ==== Sys2Proof/Tests/Witness.lean ====
section
/-! SUPPORT. For every statement that has hypotheses, concrete values that meet them together, clause by clause. A conjunct gives the
values of one clause and its hypotheses over them; a match gives the values that an equation among the hypotheses determines. -/

namespace Sys2Proof.Tests

set_option Elab.async false
set_option linter.unusedVariables false
set_option cleanup.letToHave false
open Sys2Proof Sys2Proof.Machine

def wc (i : Instr) (s : State) : State := withCode i s
def s0 : State := state0 (berth0 core0)
def ks (f : Core → Core) : State := state0 (berth0 (f core0))
def setW (n : Fin 16) (v : Word) (k : Core) : Core := { k with w := k.w.set n v }
def regs2 (a b : Word) : State := ks (fun k => (setW 1 b) ((setW 3 b) ((setW 2 a) k)))
def bs (f : BSide → BSide) : State := state0 { berth0 core0 with side := f (berth0 core0).side }
def desc1 (n : Fin 16) (d : Desc) : State := bs (fun x => { x with desc := x.desc.set n d })
def retS : State := (((withWord s0 0x2FF 0x0006).putWord (200 * 32768 + 0x300) 0x40).putWord (200 * 32768 + 0x301) 0x11).putWord (200 * 32768 + 0x302) 0x22
def ret2 : State := (state0 (berth0 (setW 15 0x7FFF core0))).putWord (200 * 32768 + 0x7FFF) 0x0006
def irq (st : CoreState) : State := bs (fun x => { x with core := { x.core with st := st, fl := { ie := true } }, bi := { x.bi with pend := 0x100, en := 0x100, mod := { released := true } } })
def frz (s : State) : State := { s with berths := s.berths.map (fun p => (p.1, { p.2 with freezes := [.pause] })) }
def pe (e : Exc) (k : Core) : State := state0 (berth0 { k with pend := some e })
def e16 : Exc := { vec := 16, savedPc := 0x101, xpc := 0x100, xsel := 0 }
def nestE : Exc := { vec := 2, savedPc := 0x20, seg := 0, kind := 2, off := 0x20, xpc := 0x20, xsel := 0 }
def zseg (k : Core) : Core := { k with seg := k.seg.set 0 0 }
def nost : State := bs (fun x => { x with core := { x.core with pend := some e16 }, desc := x.desc.set 2 {} })
def wt (st : CoreState) (p e : Word32) (ie : Bool) : State := bs (fun x => { x with core := { x.core with st := st, fl := { ie := ie } }, bi := { x.bi with pend := p, en := e } })
def full : Berth := { berth0 core0 with cur := { (berth0 core0).cur with stamps := List.replicate 512 ⟨0, 0, 0, 0, 0⟩ } }
def fcs (n : Nat) : Berth := { berth0 core0 with side := { (berth0 core0).side with fc := (berth0 core0).side.fc.set 0 { state := n } } }
def ported (l : List (Nat × Nat)) : Berth := { berth0 core0 with side := l.foldl (fun x p => x.setPort p.1 p.2) (berth0 core0).side }
def badMan : Berth := ported [(0xA80, 3)]
def full8 : Berth := { berth0 core0 with side := { (berth0 core0).side with lj := { outst := List.range 8 } } }
def srv (s : State) : State := s.setFld R.HB_BOOTSTAT 7 0 3
def st (x : Berth) : State := srv { state0 x with htime := 100000, slots := [(0,1),(5,3)] }
def wd (x : Berth) : Berth := { x with side := { x.side with bt := 16 * 480 } }
def b0 : Berth := berth0 core0
def stm : Stamp := ⟨0,0,0,0x300,7⟩
def rec1 (n : Nat) : WatchRec := { acc := { seq := 4, stamps := List.replicate n stm, lines := [{ frame := 0, line := 3, geo := b0.side.beam.geo, desc := b0.side.desc, btime := 3, commit := none, skip := false }], deadt := some 9, padRp := some 3 }, side := b0.side, desc := b0.side.desc, segs := [], cause := 0, at_ := 90000 }
def wt_2 (p n : Nat) : Berth := { b0 with ended := [{ rec1 2 with headerDone := true, waiting := some p }], freezes := [.storeFull], pipe := { store := List.replicate n stm } }
def ck : Ckpt := { side := { b0.side with bt := 55 }, seq := 3, buffer := 0, cause := 0, at_ := 0 }
def up (s : State) : State := { s with eps := s.eps.map (fun e => { e with link := true, training := false }) }
def base : State := up (srv { State.reset with htime := 5 })
def wb : State := { base with berths := [(0, b0)], slots := [(0,1)] }
def own : State := (wb |> fun s => { s with pages := [(200, w32 ownPage), (201, w32 ownPage)], profTable := s.profTable })
def cutoff : State := (List.range 8).foldl (fun (t : State) d => (List.range 4).foldl (fun (v : State) p => v.setFlag (dieAddr d R.HB_FABSTAT) p false) t) own
def pt : State := base.setReg R.ST_ECCCFG 0x100
def ptl : State := { ({ pt with ecc := [(pkgWord 0 (lineAddr 1 0 0)/4, .single 4), (pkgWord 0 (lineAddr 1 0 4)/4, .double),(pkgWord 0 (lineAddr 1 0 28)/4, .poison)] }) with repairQ := [(0,1,8),(0,1,7)] }
def ptr : State := { ptl with repairing := [(0,1,rowOf (lineAddr 1 0 0))], patrol := [(1, 262143)] }
def fullb : State := { (ptl.setFld (dieAddr 0 (R.ST_REPAIR + 4)) 5 0 32) with repairing := [] }
def wr (s : State) (e a v : Nat) : State := s.setReg (ringBase e + a) v
def rg (s : State) : State := [(0x100,0x1000),(0x108,4),(0x110,0x2000),(0x118,16),(0x18,16),(0x10,0x4000)].foldl (fun (t : State) p => wr t 0 p.1 p.2) s
def en (s : State) : State := (rg s).setFlag (ringBase 0) 0 true
def fl2 : List Flying := [{ op := 0x18, cmd := host 0x18 0 0 0 [] [], why := .time }, { op := 0x13, cmd := { host 0x13 0 0 0 [] [] with ep := 1 }, why := .time }]
def ua : State := wb.setBerth { b0 with uLines := 5, lateLines := 3, sumU := 2, sumL := 3, lossAt := 44 }
def le_ (n : Nat) (s : State) : State := s.setReg R.LG_VLCOUNT n
def go (s : State) : State := (rg s).setFlag (ringBase 0) 0 true |>.modEp 0 (fun x => { x with rings := x.rings.set 0 { tail := 2 } })
def opc (n : Nat) (c : Cmd) : Cmd := { c with entry := BitVec.ofNat 8 n :: c.entry.drop 1 }
def cm (d : Nat) (p : List Byte) : Cmd := host 0 0 0x1000 d p ((List.range d).map (fun i => BitVec.ofNat 8 i))
def raw (c : Cmd) (i n : Nat) : Cmd := { c with entry := c.entry.set i (BitVec.ofNat 8 n) }
def halted (s : State) : State := s.setFlag R.ST_VOTE 4 true
def ptab (s : State) : State := { s with profTable := [List.replicate 128 7, [], List.replicate 128 9] }
def bl (l : List (Nat × Nat)) : List Byte := l.flatMap (fun p => leBytes p.2 p.1)
def cb (l : List (Nat × Nat)) : Cmd := cm 0 (bl l)
def cr (d dk sh fl own g : Nat) : Cmd := cb [(d,1),(dk,1),(sh,1),(fl,1),(own,2),(g,2),(g+1,2),(0,2),(0,2),(0,2),(7,2),(0,2),(0,4)]
def bst (x : Berth) : State := go { wb with berths := [(0, x)], pages := [(200, w32 ownPage), (201, w32 ownPage)] }
def zg (x : Berth) : Berth := (x.setGov 1 20000000 1 0)
def z1 : Berth := { b0 with side := { b0.side with bt := 77 } }
def bst0 (x : Berth) : State := go { wb with berths := [(0, x)], slots := [], pages := [(200, w32 ownPage), (201, w32 ownPage)] }
def sg (n fl lim base : Nat) : Cmd := cb [(n,1),(fl,1),(lim,2),(base,4)]
def z2 : Berth := { z1 with started := false, side := { z1.side with desc := Vector.replicate 16 {} } }
def cwr (wa n : Nat) : Cmd := { cm n (bl [(wa,4)]) with data := (List.range n).map (fun i => BitVec.ofNat 8 (i+17)) }
def z3 : Berth := { z1 with side := { z1.side with desc := Vector.replicate 16 {}, core := { z1.side.core with st := .halt } }, ckpt := some { side := z1.side, seq := 0, buffer := 0, cause := 0, at_ := 0 } }
def psh (p n g : Nat) : Cmd := cb [(p,2),(n,2),(g,2)]
def quo (s : State) (q : Nat) : State := (s.setFlag (quayAddr q R.QY_CFG) 0 true).setFlag (quayAddr q R.QY_STAT) 1 true
def bd (q sb m f seg : Nat) : Cmd := let d := bl [(q,1),(sb,1),(m,1),(f,1),(0x123,2),(seg,2),(3,1),(4,1),(5,1),(9,1),(77,2),(1,2),(2,2),(0xABCDEF,6),(0x0A000001,4),(0,4),(0,4),(0,4),(0x1234,4),(0x56,4),(8,2),(768,2),(5,2),(576,2),(20000000,4),(1,2),(0,2),(0,4)]
  { cm 96 [] with data := d ++ List.replicate (96 - d.length) 0 }
def ib (q f port rb k sel off : Nat) : Cmd := cb [(q,1),(f,1),(port,2),(rb,4),(k,1),(sel,1),(off,2)]
def qtb (s : State) (t : List (Nat × List Nat)) (sas : List Sa) : State := { s with quays := [(3, { (s.quay 3) with table := t, sas := sas })] }
def ent1 (b : Nat) : List Nat := [b + 2^11 + 2^12, 0,0,0,0,0,0,0,0,0,0,0]
def ent2 (b t port : Nat) : List Nat := [b + 2^11 + t*2^12, port,0,0,0,0,0,0,0,0,0,0]
def qc (q f pf : Nat) : Cmd := cb [(q,1),(f,1),(pf,1),(0,1),(0x112233445566,6),(0,2),(0x0A000001,4),(3,4),(4,4)]
def sa (tx : Bool) (sc an : Nat) (a : Bool) : Sa := ⟨tx,sc,an,[],[],0,[],0,a,0⟩
def sasl : List Sa := [sa true 0 1 true, sa true 0 2 false, sa false 2 1 true, sa false 0 1 true, sa false 2 3 true]
def mk_ (q sc an act n : Nat) : Cmd := { cm n (bl [(q,1),(sc,1),(an,1),(act,1)]) with data := (List.range n).map (fun i => BitVec.ofNat 8 (i+1)) }
def thp (lo hi lad f k pr : Nat) : Cmd := cb [(lo,1),(hi,1),(lad,1),(f,1),(k,1),(pr,1)]
def pset (d code st : Nat) : Cmd := cb [(d,1),(code,1),(st,1),(0,1),(0,4)]
def two (x y : Berth) : State := { wb with berths := [(0,x),(1,y)], slots := [(0,1),(1,1)], pages := [(200, w32 ownPage), (201, w32 ownPage)] }
def pb (id slot : Nat) (ls : List LineRec) (st : List Stamp) : Berth := { b0 with id := id, slot := slot, pipe := { b0.pipe with lines := ls, store := st } }
def sgeo : Geometry := { htotal := 12, hvis := 8, hsyncs := 9, hsyncw := 1, vtotal := 6, vvis := 4, vsyncs := 4, vsyncw := 1, inc := 67108864 }
def lr (f l : Nat) (sk : Bool) : LineRec := { frame := f, line := l, geo := sgeo, desc := Vector.replicate 16 {}, btime := 7, skip := sk }
def stamp0 : Stamp := ⟨0,0,0,0,0⟩
def sp (f l : Nat) : Stamp := { stamp0 with frame := f, line := l }
def p2 : State := two (pb 0 0 [lr 3 1 false, lr 3 2 false] [sp 3 1, sp 3 2]) (pb 1 1 [lr 2 0 false] [])
def kd (s : State) (f : DockPipe → DockPipe) : State := s.setPipe 0 0 (f (s.pipeOf 0 0))
def onSp (s : State) : State := (s.setFlag (dockAddr 0 0 R.DK_PIPE) 0 true)
def cmp (b : Nat) (r : LineRec) : Composed := { berth := b, line := r, pixels := [1,2,3,4,5,6,7,8], dropped := 1, cost := 3, fetched := 2, skipped := 1, startAt := 5 }
def mkS (x : Berth) : State := { (two x { b0 with id := 1, slot := 1 }) with mem := [(200*65536+2, 7), (200*65536+40, 9), (201*65536+3, 5)] }
def fb (x : Berth) : Berth := (x.setReg R.DP_FB0BASE (200*512)).setReg R.DP_FB1BASE (201*512)
def gb (g : Gen) : Berth := { b0 with gen := g, side := { b0.side with beam := { b0.side.beam with geo := sgeo } } }
def gg : Gen := { started := true, geo := some sgeo, frame := some 3, vmode := 2, nextF := 4, segBytes := 8, tags0 := [(0,3),(1,3),(2,2)], tags1 := [(0,3)] }
def r1 : Option (Nat × List Nat × Bool) := some (0, [1,2,3,4,5,6,7,8], false)
def lk (s : State) : State := ((s.setFlag (quayAddr 3 R.QY_CFG) 0 true).setFlag (quayAddr 3 R.QY_STAT) 1 true).setFlag (quayAddr 3 R.QY_STAT) 0 true
def t2 (x y : Berth) : State := { lk wb with berths := [(0,x),(1,y)], slots := [(0,1),(1,1)], pages := [(200, w32 ownPage), (201, w32 ownPage)] }
def sb (id : Nat) (e : Nat) (held : Bool) (q : List Packet) : Berth := { b0 with id := id, slot := id, stream := { bound := true, held := held, quay := 3, entry := e, seq := 4294967295, queue := q } }
def qmod (s : State) (f : Quay → Quay) : State := s.modQuay 3 f
def entc (b c w10 : Nat) : List Nat := [b + 2^11 + 2^12 + c * 2^13, 0,0,0,0,0,0,0,0,0,w10,0]
def tt : List (Nat × List Nat) := [(0, entc 0 2 0xff), (1, entc 1 2 0x105), (2, entc 1 5 0x205)]
def tq (x y : Berth) (f : Quay → Quay) : State := qmod (t2 x y) (fun k => f { k with table := tt })
def pk (t : Nat) : Packet := ⟨t,2,3,7,1,9,1234,[1,2,3,4],none,true,false,(0,0,0)⟩
def mac3 : List Byte := beBytes 6 0
def ent2_2 (b t port base k : Nat) : List Nat := [b + 2^11 + t*2^12, port,base,k,0,0,0,0,0,0,0,0]
def rs : State := { (qmod (t2 (sb 0 0 false []) (sb 1 1 false [])) (fun k => { k with table := [(512, ent2_2 0 1 55 (200*32768) 5), (513, [0 + 2^11 + 2*2^12 + 2^15, 55, 0,0,0,0,0,0,0,0,0,0])] })) with berths := [(0, { (sb 0 0 false []) with rx := [some ⟨200*32768, 5, 30, 7⟩, some ⟨201*32768, 6, 0, 0⟩, none, none] })] }
def ipf (s : State) (w : Nat → Nat) (data : List Byte) : List Byte := s.buildFrame 3 w none data
def wv (l : List Nat) : Nat → Nat := fun i => l.getD i 0
def en6 (six : Bool) : List Nat := [0 + b2n six * 2^17, 0, 0, 0, 55, 0,0,0,0,0,0,0]
def qlh (b n : Nat) (l : List Byte) : List Byte := [0x13, 0] ++ beBytes 2 b ++ List.replicate 12 0 ++ l
def fst_ (x : Berth) : State := { two x { b0 with id := 1, slot := 1 } with mem := [(200*65536+10,5),(200*65536+12,6),(200*65536+14,3),(200*65536+200, 5),(200*65536+202,6), (201*65536+80,9),(201*65536+82,8)] }
def mw (l : List Nat) : List Word := l.map w16
def man (m0 s d len m6 : Nat) : List Word := mw [m0, s, 0, d, 0, len - 1, m6, 0]
def dsc : Vector Desc 16 := Vector.replicate 16 { base := 200*32768, limit := 0x7FFF, r := true, w := true, x := true }
def fi (m : List Word) (st ab dl : Bool) (mv : Nat) : FItem := { ch := 1, man := m, desc := dsc, started := st, aborted := ab, deadline := dl, moved := mv }
def fi2 : FItem := { fi (man 1 0 5 3 0) false false false 0 with ch := 2 }
def fbh (f : FItem) (r : List (Option RxRing)) : Berth := { b0 with fq := [f, fi2], rx := r, side := { b0.side with desc := Vector.replicate 16 {} } }
def rxs : List (Option RxRing) := [some ⟨201*32768, 6, 90, 40⟩, none, none, none]
def dro : Vector Desc 16 := Vector.replicate 16 { base := 200*32768, limit := 0x7FFF, r := true, w := false, x := true }
def rxl : List (Option RxRing) := [some ⟨201*32768, 6, 70, 40⟩, none, none, none]
def lbs (l : List LItem) : Berth := { b0 with lq := l, side := { b0.side with desc := Vector.replicate 16 {} } }
def ji (tag : Nat) (w : List Word) (st : Bool) (rows : Nat) (r : Option Nat) : LItem := { seq := tag, tag := tag, words := w, desc := dsc, started := st, rows := rows, result := r }
def jb (w0 : Nat) (s d w h mk : Nat) : List Word := mw [w0, s, 0, d, 0, 10, 12, w-1, h-1, 0xBEEF, 0, 0, mk]
def base_2 : State := { State.reset with htime := 5 }
def z0 : Slice := { die := 0, kind := 0, unit := 3, left := 480000, running := true, turnAt := 0, queuedAt := 0 }
def rot : State := (({ base_2 with slices := [{ z0 with unit := 0, running := false }], berths := [(0, berth0 core0)] }).setSlot 0 0 0 1)
def z1_2 : Slice := { die := 0, kind := 5, unit := 3, left := 640000, queuedAt := 0 }
def go_2 (s0 : State) : State := let s := s0.modEp 0 (fun x => { x with link := true }); (([(0x100,0x1000),(0x108,4),(0x110,0x2000),(0x118,16),(0x18,16),(0x10,0x4000)] : List (Nat × Nat)).foldl (fun (t : State) p => t.setReg (ringBase 0 + p.1) p.2) s).setFlag (ringBase 0) 0 true |>.modEp 0 (fun x => { x with rings := x.rings.set 0 { tail := 2 } })
def base_3 : State := srv { State.reset with htime := 5 }
def pset_2 (d code st m : Nat) : Cmd := cm 0 (leBytes 1 d ++ leBytes 1 code ++ leBytes 1 st ++ [0] ++ leBytes 4 m)
def arm (c st : Nat) (auto : Bool) : State := { base_3 with entries := [(0, { code := c, st := st, auto := auto })] }
def withDom (c v : Nat) : State := { base_3 with domains := if v = 1 ∨ v = 2 then [(c, v)] else [(c, v)] }
def wk (s : State) : State := (s.setReg R.HIC_PEND 6).setReg R.HIC_EN 6
def comm_ (c st : Nat) : State := wk { (arm c st true) with domains := [(c,st)], entries := [(0, { code := c, st := st, auto := true, startAt := some 0, committed := true, sets := [] })] }
def started (c st : Nat) (auto : Bool) (t : Nat) : State := ({ (arm c st auto) with htime := t, domains := [(c,3)], entries := [(0, { code := c, st := st, auto := auto, startAt := some 0, ap1 := 100, sets := [] })] }.setReg R.HIC_PEND 6).setReg R.HIC_EN 6
def sv (t : Nat) (l : List (Nat × Nat)) : State := { started 4 1 true t with entries := [(0, { code := 4, st := 1, auto := true, startAt := some 0, ap1 := 100, sets := l })] }
def pw0 : PowerSt := {}
def av (a : Avs) (t : Nat) (q : List (Nat × Nat)) (u : List Nat) : State := { base_3 with htime := t, pw := { pw0 with avs := some a, queue := q, ups := u } }.setReg R.PW_AVSTGT 0x03520300
def dirBytes (es : List (List Byte)) : List Byte := let h : List Byte := [0x4F, 0x56, 0x42, 0x44] ++ leBytes 2 1 ++ leBytes 2 es.length ++ es.flatten; h ++ le32 (crc32 h)
def fl (l : List (List Byte)) : State := { State.reset with flash := [(0, dirBytes l)] }
def ent (typ idx copy off len : Nat) : List Byte := leBytes 1 typ ++ leBytes 1 idx ++ leBytes 1 copy ++ [0] ++ le32 off ++ le32 len ++ List.replicate 20 0
def rr : State := { base_3 with flash := [(0, dirBytes [ent 4 0 0 0x20000 0x42000])], newRepairs := [(0,1,2,3,1)] }
def ph (p : KPhase) (s : State) : State := { s with keeper := { s.keeper with phase := p } }
def wk_2 (cfg st : Nat) (s : State) : State := (s.setReg R.KP_WAKECFG cfg).setReg R.KP_WAKESTAT st
def pin (n cfg : Nat) (lv : Bool) (s : State) : State := { s.setReg (R.GP_CFG + 4 * n) cfg with pads := setBit s.pads n lv, sync := setBit s.sync n lv }
def sw (n first last : Nat) (kept : Bool) : State := { base_3.setReg (R.GP_CFG + 4 * n) 0x18 with switches := [{ pin := n, old := 0x19, first := first, last := last, kept := kept }], htime := 1000 }
def drv (n : Nat) : State := ((base_3.setFlag (R.GP_OELO + 4 * (n / 32)) (n % 32) true).setFlag (R.GP_OUTLO + 4 * (n / 32)) (n % 32) true).setReg (R.GP_CFG + 4 * n) 0x18
def swd (n first last : Nat) (kept : Bool) : State := { drv n with switches := [{ pin := n, old := 0x19, first := first, last := last, kept := kept }], htime := 1000 }

/-- The hypotheses of Obligations.PassingTimeLeavesTheRest can be met. -/
theorem witness_PassingTimeLeavesTheRest :
    (let s : State := wc (.add 0 3 4) (s0)
     s.ecc = [] ∧
     (let n : Nat := 2
      let ws : List Word := [0x1134]
      ws ≠ [] ∧ ws.length ≤ n ∧
      (let b : Nat := 0
       ((match s.berth b with
         | some x => decide (
             x.id = b ∧ x.issueReady = true ∧ x.side.core.fl.tf = false ∧ x.parkReq = none ∧ 0 < x.side.au.sacc ∧ x.side.au.sacc + n ≤ 10000 ∧
             (∀ j ∈ List.range ws.length, (x.segDesc 0).check (x.side.core.pc + w16 j) .exec = none) ∧
             (∀ j ∈ List.range ws.length, s.ledgerCheck x.die x.die (x.segAddr 0 (x.side.core.pc + w16 j)) (coreMaster x) .exec = none) ∧
             (∀ j ∈ List.range ws.length, s.word (pkgWord x.die (x.segAddr 0 (x.side.core.pc + w16 j))) = ws.getD j 0))
         | _ => false) = true)))) := by
  decide +kernel

/-- The hypotheses of Obligations.SystemGroupResults can be met. -/
theorem witness_SystemGroupResults :
    (let s : State := wc (.movi 0 1 (.long 0x1234)) (s0)
     let b : Nat := 0
     let d : Reg := 1
     let v : Word := 0x1234
     ((match s.spend b ((encode (.movi b d (.long v))).getD []) 3 with
       | some (u, y) => decide (True)
       | _ => false) = true)) := by
  decide +kernel

/-- The hypotheses of Obligations.ProductFillsThePair can be met. -/
theorem witness_ProductFillsThePair :
    (let s : State := wc (.mulu 0 1 3) (regs2 0 7)
     let b : Nat := 0
     let p : Fin 8 := 1
     let r : Reg := 3
     ((match s.spend b ((encode (.mulu b p r)).getD []) 9 with
       | some (u, y) => decide (True)
       | _ => false) = true)) ∧
    (let s : State := wc (.muls 0 1 3) (regs2 0 7)
     let b : Nat := 0
     let p : Fin 8 := 1
     let r : Reg := 3
     ((match s.spend b ((encode (.muls b p r)).getD []) 9 with
       | some (u, y) => decide (True)
       | _ => false) = true)) := by
  refine ⟨?_, ?_⟩ <;> decide +kernel

/-- The hypotheses of Obligations.DivisionOrVectorFive can be met. -/
theorem witness_DivisionOrVectorFive :
    (let s : State := wc (.divu 0 1 3) (regs2 0 7)
     let b : Nat := 0
     let p : Fin 8 := 1
     let r : Reg := 3
     ((match s.spend b ((encode (.divu b p r)).getD []) 20 with
       | some (u, y) => decide (
           let k := y.side.core
           let pair : BitVec 32 := k.w[pairHi p] ++ k.w[pairLo p]
           let q : Nat := 1
           q < 65536 ∧
           (let m : Nat := 0
            pair.toNat = q * k.w[r].toNat + m ∧ m < k.w[r].toNat))
       | _ => false) = true)) ∧
    (let s : State := wc (.divu 0 1 3) (regs2 3 0)
     let b : Nat := 0
     let p : Fin 8 := 1
     let r : Reg := 3
     ((match s.spend b ((encode (.divu b p r)).getD []) 20 with
       | some (u, y) => decide (
           let k := y.side.core
           let pair : BitVec 32 := k.w[pairHi p] ++ k.w[pairLo p]
           (k.w[r] = 0 ∨ 65536 * k.w[r].toNat ≤ pair.toNat))
       | _ => false) = true)) ∧
    (let s : State := wc (.divs 0 1 3) (regs2 0 7)
     let b : Nat := 0
     let p : Fin 8 := 1
     let r : Reg := 3
     ((match s.spend b ((encode (.divs b p r)).getD []) 20 with
       | some (u, y) => decide (
           let k := y.side.core
           let pair : BitVec 32 := k.w[pairHi p] ++ k.w[pairLo p]
           let q : Int := 1
           let m : Int := 0
           pair.toInt = q * k.w[r].toInt + m ∧ m.natAbs < k.w[r].toInt.natAbs ∧ (m = 0 ∨ (m < 0 ↔ pair.toInt < 0)))
       | _ => false) = true)) ∧
    (let s : State := wc (.divs 0 1 3) (regs2 3 0)
     let b : Nat := 0
     let p : Fin 8 := 1
     let r : Reg := 3
     ((match s.spend b ((encode (.divs b p r)).getD []) 20 with
       | some (u, y) => decide (
           let k := y.side.core
           k.w[r] = 0)
       | _ => false) = true)) := by
  refine ⟨?_, ?_, ?_, ?_⟩ <;> decide +kernel

/-- The hypotheses of Obligations.LoadsThroughASegment can be met. -/
theorem witness_LoadsThroughASegment :
    (let s : State := wc (.ld 0 5 (.base 1 4)) (s0)
     let b : Nat := 0
     let d : Reg := 5
     let m : MemForm := .base 1 4
     ((match s.spend b ((encode (.ld b d m)).getD []) (m.words + 2) with
       | some (u, y) => decide ((u.ecc = []))
       | _ => false) = true)) ∧
    (let s : State := wc (.ld 0 5 (.base 1 4)) (desc1 1 {})
     let b : Nat := 0
     let d : Reg := 5
     let m : MemForm := .base 1 4
     ((match s.spend b ((encode (.ld b d m)).getD []) (m.words + 2) with
       | some (u, y) => decide (
           u.ecc = [] ∧
           (let k := y.side.core
            let off := operandOffset m k
            let vec := u.checked y m.segReg off .read
            vec ≠ 0))
       | _ => false) = true)) := by
  refine ⟨?_, ?_⟩ <;> decide +kernel

/-- The hypotheses of Obligations.StoresThroughASegment can be met. -/
theorem witness_StoresThroughASegment :
    (let s : State := wc (.st 0 5 (.base 1 4)) (s0)
     let b : Nat := 0
     let r : Reg := 5
     let m : MemForm := .base 1 4
     ((match s.spend b ((encode (.st b r m)).getD []) (m.words + 2) with
       | some (u, y) => decide (
           u.ecc = [] ∧ Memory.wf u.mem = true ∧
           (let k := y.side.core
            let off := operandOffset m k
            let a := y.place m.segReg off
            ((match u.undoEntry y (a % 2 ^ 29) with
              | (true, v, z) => decide (True)
              | _ => false) = true)))
       | _ => false) = true)) ∧
    (let s : State := wc (.st 0 5 (.base 1 4)) (desc1 1 {})
     let b : Nat := 0
     let r : Reg := 5
     let m : MemForm := .base 1 4
     ((match s.spend b ((encode (.st b r m)).getD []) (m.words + 2) with
       | some (u, y) => decide (
           u.ecc = [] ∧ Memory.wf u.mem = true ∧
           (let k := y.side.core
            let off := operandOffset m k
            let vec := u.checked y m.segReg off .write
            vec ≠ 0))
       | _ => false) = true)) := by
  refine ⟨?_, ?_⟩ <;> decide +kernel

/-- The hypotheses of Obligations.FirstWriteInAWatchIsLogged can be met. -/
theorem witness_FirstWriteInAWatchIsLogged :
    (let s : State := s0
     s.ecc = [] ∧ Memory.wf s.mem = true ∧
     (let x : Berth := { berth0 core0 with cur := { (berth0 core0).cur with undo := [100] } }
      let wa : Nat := 100
      wa < 2 ^ 29 ∧ wa ∈ x.cur.undo)) ∧
    (let s : State := s0
     s.ecc = [] ∧ Memory.wf s.mem = true ∧
     (let x : Berth := berth0 core0
      let m := watchMaster x
      let e := x.watchPage * 32768 + 6144 + (x.cur.seq % 2) * 12288 + 3 * x.cur.undo.length
      (∀ i ∈ List.range 3, s.ledgerCheck x.die x.die (e + i) m .write = none) ∧
      (let wa : Nat := 100
       wa < 2 ^ 29 ∧ wa ∉ x.cur.undo ∧ s.ledgerCheck x.die x.die wa m .read = none ∧ (∀ i ∈ List.range 3, (e + i) % 2 ^ 29 ≠ wa)))) := by
  refine ⟨?_, ?_⟩ <;> decide +kernel

/-- The hypotheses of Obligations.PushAndPop can be met. -/
theorem witness_PushAndPop :
    (let s : State := wc (.push 0 5) (s0)
     let b : Nat := 0
     let r : Reg := 5
     ((match s.spend b ((encode (.push b r)).getD []) 3 with
       | some (u, y) => decide (
           u.ecc = [] ∧ Memory.wf u.mem = true ∧
           (let k := y.side.core
            let low := k.w[15] - 1
            let a := y.place 2 low
            ((match u.undoEntry y (a % 2 ^ 29) with
              | (true, v, z) => decide (True)
              | _ => false) = true)))
       | _ => false) = true)) ∧
    (let s : State := wc (.push 0 5) (desc1 2 {})
     let b : Nat := 0
     let r : Reg := 5
     ((match s.spend b ((encode (.push b r)).getD []) 3 with
       | some (u, y) => decide (
           u.ecc = [] ∧ Memory.wf u.mem = true ∧
           (let k := y.side.core
            let low := k.w[15] - 1
            let pushVec := if k.w[15] = 0 then 2 else u.checked y 2 low .write
            pushVec ≠ 0))
       | _ => false) = true)) ∧
    (let s : State := wc (.pop 0 5) (s0)
     let b : Nat := 0
     let r : Reg := 5
     ((match s.spend b ((encode (.pop b r)).getD []) 3 with
       | some (u, y) => decide ((u.ecc = []) ∧ (Memory.wf u.mem = true))
       | _ => false) = true)) ∧
    (let s : State := wc (.pop 0 5) (desc1 2 {})
     let b : Nat := 0
     let r : Reg := 5
     ((match s.spend b ((encode (.pop b r)).getD []) 3 with
       | some (u, y) => decide (
           u.ecc = [] ∧ Memory.wf u.mem = true ∧
           (let k := y.side.core
            let popVec := u.checked y 2 k.w[15] .read
            popVec ≠ 0))
       | _ => false) = true)) := by
  refine ⟨?_, ?_, ?_, ?_⟩ <;> decide +kernel

/-- The hypotheses of Obligations.CallPushesAndRetRestores can be met. -/
theorem witness_CallPushesAndRetRestores :
    (let s : State := wc (.call 0 (.ext 0x40) 6) (s0)
     let b : Nat := 0
     let t : Target := .ext 0x40
     let mask : Word := 6
     let names := (List.finRange 16).filter (fun n => decide (n.val < 15) && mask.getLsbD n.val)
     ((match s.spend b ((encode (.call b t mask)).getD []) (2 + t.words) with
       | some (u, y) => decide (
           let k := y.side.core
           let ws : List Word := names.map (fun n => k.w.get n) ++ [k.pc + w16 (2 + t.words), mask &&& 0x7FFF]
           ((match u.frameCheck y (((k.w.get 15).toNat : Int) - ws.length) ws.length .write with
             | (none, v) => decide (
                 ((match v.pushWords b (k.w.get 15 - 1) ws with
                   | (true, w) => decide (
                       ((match w.berth b with
                         | some z => decide ((z.parkReq = none))
                         | _ => false) = true))
                   | _ => false) = true))
             | _ => false) = true))
       | _ => false) = true)) ∧
    (let s : State := wc (.call 0 (.ext 0x40) 6) (desc1 2 {})
     let b : Nat := 0
     let t : Target := .ext 0x40
     let mask : Word := 6
     let names := (List.finRange 16).filter (fun n => decide (n.val < 15) && mask.getLsbD n.val)
     ((match s.spend b ((encode (.call b t mask)).getD []) (2 + t.words) with
       | some (u, y) => decide (
           let k := y.side.core
           let ws : List Word := names.map (fun n => k.w.get n) ++ [k.pc + w16 (2 + t.words), mask &&& 0x7FFF]
           ((match u.frameCheck y (((k.w.get 15).toNat : Int) - ws.length) ws.length .write with
             | (some c, v) => decide (True)
             | _ => false) = true))
       | _ => false) = true)) ∧
    (let s : State := wc (.ret 0) (retS)
     let b : Nat := 0
     ((match s.spend b ((encode (.ret b)).getD []) 3 with
       | some (u, y) => decide (
           let k := y.side.core
           ((match u.frameCheck y ((k.w.get 15).toNat : Int) 1 .read with
             | (none, v) => decide (
                 ((match v.popWords b (k.w.get 15) 1 with
                   | (some [mask], v1) => decide (
                       let names := ((List.finRange 16).filter (fun n => decide (n.val < 15) && mask.getLsbD n.val)).reverse
                       ((match v1.frameCheck y ((k.w.get 15).toNat : Int) (names.length + 2) .read with
                         | (none, v2) => decide (
                             ((match v2.popWords b (k.w.get 15 + 1) (names.length + 1) with
                               | (some (ret :: vs), w) => decide (
                                   ((match w.berth b with
                                     | some z => decide ((z.parkReq = none))
                                     | _ => false) = true))
                               | _ => false) = true))
                         | _ => false) = true))
                   | _ => false) = true))
             | _ => false) = true))
       | _ => false) = true)) ∧
    (let s : State := wc (.ret 0) (desc1 2 {})
     let b : Nat := 0
     ((match s.spend b ((encode (.ret b)).getD []) 3 with
       | some (u, y) => decide (
           let k := y.side.core
           ((match u.frameCheck y ((k.w.get 15).toNat : Int) 1 .read with
             | (some c, v) => decide (True)
             | _ => false) = true))
       | _ => false) = true)) ∧
    (let s : State := wc (.ret 0) (ret2)
     let b : Nat := 0
     ((match s.spend b ((encode (.ret b)).getD []) 3 with
       | some (u, y) => decide (
           let k := y.side.core
           ((match u.frameCheck y ((k.w.get 15).toNat : Int) 1 .read with
             | (none, v) => decide (
                 ((match v.popWords b (k.w.get 15) 1 with
                   | (some [mask], v1) => decide (
                       let names := ((List.finRange 16).filter (fun n => decide (n.val < 15) && mask.getLsbD n.val)).reverse
                       ((match v1.frameCheck y ((k.w.get 15).toNat : Int) (names.length + 2) .read with
                         | (some c, v2) => decide (True)
                         | _ => false) = true))
                   | _ => false) = true))
             | _ => false) = true))
       | _ => false) = true)) := by
  refine ⟨?_, ?_, ?_, ?_, ?_⟩ <;> decide +kernel

/-- The hypotheses of Obligations.TrapsIllegalWordsAndInterruptsAreRaised can be met. -/
theorem witness_TrapsIllegalWordsAndInterruptsAreRaised :
    (let s : State := wc (.trap 0 3) s0
     let b : Nat := 0
     let n : BitVec 4 := 3
     ((match s.spend b ((encode (.trap b n)).getD []) 2 with
       | some (u, y) => decide (True)
       | _ => false) = true)) ∧
    (let s : State := wc (.illegalEncoding 0 0xF000) s0
     let b : Nat := 0
     let w : Word := 0xF000
     illegalWord w = true ∧
     ((match s.spend b ((encode (.illegalEncoding b w)).getD []) 2 with
       | some (u, y) => decide (True)
       | _ => false) = true)) ∧
    (let w : Word := 0x1134
     illegalWord w = false) ∧
    (let s : State := irq .run
     let b : Nat := 0
     ((match s.berth b with
       | some x => decide (
           x.id = b ∧ x.mayBegin = true ∧
           (let k := x.side.core
            k.pend = none ∧ k.fl.ie = true ∧ k.hold = false ∧ x.side.bi.request = true ∧ k.st = .run))
       | _ => false) = true)) ∧
    (let s : State := irq (.waitL 7)
     let b : Nat := 0
     ((match s.berth b with
       | some x => decide (
           x.id = b ∧ x.mayBegin = true ∧
           (let k := x.side.core
            k.pend = none ∧ k.fl.ie = true ∧ k.hold = false ∧ x.side.bi.request = true ∧
            ((match k.st with
              | .waitL l => decide (True)
              | _ => false) = true)))
       | _ => false) = true)) ∧
    (let s : State := irq (.waitC 3 4 0)
     let b : Nat := 0
     ((match s.berth b with
       | some x => decide (
           x.id = b ∧ x.mayBegin = true ∧
           (let k := x.side.core
            k.pend = none ∧ k.fl.ie = true ∧ k.hold = false ∧ x.side.bi.request = true ∧
            ((match k.st with
              | .waitC c l h => decide (True)
              | _ => false) = true)))
       | _ => false) = true)) := by
  refine ⟨?_, ?_, ?_, ?_, ?_, ?_⟩ <;> decide +kernel

/-- The hypotheses of Obligations.ExceptionEntrySavesAndVectors can be met. -/
theorem witness_ExceptionEntrySavesAndVectors :
    (let s : State := frz (pe e16 core0)
     let b : Nat := 0
     ((match s.berth b with
       | some x => decide (
           x.id = b ∧ x.parkReq = none ∧ x.mayBegin = false ∧
           ((match x.side.core.pend with
             | some e => decide (True)
             | _ => false) = true))
       | _ => false) = true)) ∧
    (let s : State := pe e16 core0
     let b : Nat := 0
     ((match s.berth b with
       | some x => decide (
           x.id = b ∧ x.parkReq = none ∧
           (let k := x.side.core
            let frame := (((k.w.get 15).toNat : Int) - 3)
            x.mayBegin = true ∧
            ((match x.side.core.pend with
              | some e => decide (
                  let nested := e.kind = 2 ∧ e.off < 64 ∧ k.seg[0] = 0
                  (¬ nested) ∧
                  ((match s.frameCheck x frame 3 .write with
                    | (none, t) => decide (
                        ((match (t.micros b true 5).pushWords b (k.w[15] - 1) [k.fl.word, w16 k.seg[0].toNat, e.savedPc] with
                          | (true, u) => decide (
                              ((match u.berth b with
                                | some y => decide ((y.parkReq = none))
                                | _ => false) = true))
                          | _ => false) = true))
                    | _ => false) = true))
              | _ => false) = true)))
       | _ => false) = true)) ∧
    (∀ n1 : Fin 9,
     let s : State := pe nestE (zseg core0)
     let b : Nat := 0
     ((match s.berth b with
       | some x => decide (
           x.id = b ∧ x.parkReq = none ∧
           (let k := x.side.core
            x.mayBegin = true ∧
            ((match x.side.core.pend with
              | some e => decide (
                  let nested := e.kind = 2 ∧ e.off < 64 ∧ k.seg[0] = 0
                  nested ∧
                  ((match (s.micros b true n1).berth b with
                    | some y => decide ((y.parkReq = none))
                    | _ => false) = true))
              | _ => false) = true)))
       | _ => false) = true)) ∧
    (∀ n2 : Fin 9,
     let s : State := nost
     let b : Nat := 0
     ((match s.berth b with
       | some x => decide (
           x.id = b ∧ x.parkReq = none ∧
           (let k := x.side.core
            let frame := (((k.w.get 15).toNat : Int) - 3)
            x.mayBegin = true ∧
            ((match x.side.core.pend with
              | some e => decide (
                  let nested := e.kind = 2 ∧ e.off < 64 ∧ k.seg[0] = 0
                  (¬ nested) ∧
                  ((match s.frameCheck x frame 3 .write with
                    | (some c, t) => decide (
                        ((match (t.micros b true n2).berth b with
                          | some y => decide ((y.parkReq = none))
                          | _ => false) = true))
                    | _ => false) = true))
              | _ => false) = true)))
       | _ => false) = true)) := by
  refine ⟨?_, ?_, ?_, ?_⟩ <;> decide +kernel

/-- The hypotheses of Obligations.RetiRestoresItsFrame can be met. -/
theorem witness_RetiRestoresItsFrame :
    (let s : State := wc (.reti 0) (s0)
     let b : Nat := 0
     ((match s.spend b ((encode (.reti b)).getD []) 3 with
       | some (u, y) => decide (
           let k := y.side.core
           ((match u.frameCheck y ((k.w.get 15).toNat : Int) 3 .read with
             | (none, v) => decide (
                 ((match v.popWords b k.w[15] 3 with
                   | (some [p, g, f], w) => decide (
                       ((match w.berth b with
                         | some z => decide ((z.parkReq = none))
                         | _ => false) = true))
                   | _ => false) = true))
             | _ => false) = true))
       | _ => false) = true)) ∧
    (let s : State := wc (.reti 0) (desc1 2 {})
     let b : Nat := 0
     ((match s.spend b ((encode (.reti b)).getD []) 3 with
       | some (u, y) => decide (
           let k := y.side.core
           ((match u.frameCheck y ((k.w.get 15).toNat : Int) 3 .read with
             | (some c, v) => decide (True)
             | _ => false) = true))
       | _ => false) = true)) := by
  refine ⟨?_, ?_⟩ <;> decide +kernel

/-- The hypotheses of Obligations.WaitsBeginOrPassAtOnce can be met. -/
theorem witness_WaitsBeginOrPassAtOnce :
    (let s : State := wc (.wait 0) (s0)
     let b : Nat := 0
     ((match s.spend b ((encode (.wait b)).getD []) 2 with
       | some (u, y) => decide (True)
       | _ => false) = true)) ∧
    (let s : State := wc (.waitl 0 (.ext 7)) (s0)
     let b : Nat := 0
     let o : WaitOp := .ext 7
     let legal : Nat → Bool := fun width : Nat => match o with | .reg _ => True | .ext e => e.toNat < 2 ^ width
     legal 12 ∧
     ((match s.spend b ((encode (.waitl b o)).getD []) (o.words + 1) with
       | some (u, y) => decide (True)
       | _ => false) = true)) ∧
    (let s : State := wc (.waitl 0 (.ext 0xFFFF)) (s0)
     let b : Nat := 0
     let o : WaitOp := .ext 0xFFFF
     let legal : Nat → Bool := fun width : Nat => match o with | .reg _ => True | .ext e => e.toNat < 2 ^ width
     (¬ legal 12) ∧
     ((match s.spend b ((encode (.waitl b o)).getD []) (o.words + 1) with
       | some (u, y) => decide (True)
       | _ => false) = true)) ∧
    (let s : State := wc (.waitc 0 (.ext 7)) (s0)
     let b : Nat := 0
     let o : WaitOp := .ext 7
     let legal : Nat → Bool := fun width : Nat => match o with | .reg _ => True | .ext e => e.toNat < 2 ^ width
     legal 13 ∧
     ((match s.spend b ((encode (.waitc b o)).getD []) (o.words + 1) with
       | some (u, y) => decide (True)
       | _ => false) = true)) ∧
    (let s : State := wc (.waitc 0 (.ext 0xFFFF)) (s0)
     let b : Nat := 0
     let o : WaitOp := .ext 0xFFFF
     let legal : Nat → Bool := fun width : Nat => match o with | .reg _ => True | .ext e => e.toNat < 2 ^ width
     (¬ legal 13) ∧
     ((match s.spend b ((encode (.waitc b o)).getD []) (o.words + 1) with
       | some (u, y) => decide (True)
       | _ => false) = true)) := by
  refine ⟨?_, ?_, ?_, ?_, ?_⟩ <;> decide +kernel

/-- The hypotheses of Obligations.WaitsEndInTheFirstMicrocycleThatMeetsThem can be met. -/
theorem witness_WaitsEndInTheFirstMicrocycleThatMeetsThem :
    (let source : Berth → Bool := fun z => z.side.bi.pend &&& z.side.bi.en ≠ 0
     let s : State := wt .waitBI 1 1 false
     let b : Nat := 0
     ((match s.berth b with
       | some x => decide (
           x.side.core.pend = none ∧ x.side.core.tf0 = false ∧ x.side.core.st = .waitBI ∧
           (let n : Nat := 1
            0 < n ∧
            ((match (s.micros b false n).berth b with
              | some y => decide (
                  let run := { y with side := { y.side with core := { y.side.core with st := .run } } }
                  (List.range n).all (fun i => match (s.micros b false i).berth b, (s.micros b false (i + 1)).berth b with | some x, some y => decide (x.id = b ∧ x.mayIdle = true ∧ y.parkReq = none ∧ (i + 1 < n → ¬ source y)) | _, _ => false) = true ∧
                  source y ∧ (run.interruptDue && run.paceNext) = false ∧
                  (let k : Nat := 2
                   n ≤ k))
              | _ => false) = true)))
       | _ => false) = true)) ∧
    (let source : Berth → Bool := fun z => z.side.bi.pend &&& z.side.bi.en ≠ 0
     let s : State := wt .waitBI 0x100 0x100 true
     let b : Nat := 0
     ((match s.berth b with
       | some x => decide (
           x.side.core.pend = none ∧ x.side.core.tf0 = false ∧ x.side.core.st = .waitBI ∧
           (let n : Nat := 1
            0 < n ∧
            ((match (s.micros b false n).berth b with
              | some y => decide (
                  let run := { y with side := { y.side with core := { y.side.core with st := .run } } }
                  (List.range n).all (fun i => match (s.micros b false i).berth b, (s.micros b false (i + 1)).berth b with | some x, some y => decide (x.id = b ∧ x.mayIdle = true ∧ y.parkReq = none ∧ (i + 1 < n → ¬ source y)) | _, _ => false) = true ∧
                  source y ∧ (run.interruptDue && run.paceNext) = true ∧
                  (let k : Nat := 2
                   n ≤ k))
              | _ => false) = true)))
       | _ => false) = true)) ∧
    (let source : Berth → Bool := fun z => z.side.bi.pend &&& z.side.bi.en ≠ 0
     let s : State := wt .waitBI 0 0 false
     let b : Nat := 0
     ((match s.berth b with
       | some x => decide (
           x.side.core.pend = none ∧ x.side.core.tf0 = false ∧ x.side.core.st = .waitBI ∧
           (let n : Nat := 1
            0 < n ∧
            ((match (s.micros b false n).berth b with
              | some y => decide (
                  (List.range n).all (fun i => match (s.micros b false i).berth b, (s.micros b false (i + 1)).berth b with | some x, some y => decide (x.id = b ∧ x.mayIdle = true ∧ y.parkReq = none ∧ (i + 1 < n → ¬ source y)) | _, _ => false) = true ∧
                  (¬ source y) ∧
                  (let k : Nat := 2
                   n ≤ k))
              | _ => false) = true)))
       | _ => false) = true)) ∧
    (let s : State := wt (.waitL 0) 0 0 false
     let b : Nat := 0
     ((match s.berth b with
       | some x => decide (
           x.side.core.pend = none ∧ x.side.core.tf0 = false ∧
           ((match x.side.core.st with
             | .waitL l => decide (
                 let line : Nat → Berth → Bool := fun l z => z.side.beam.geo.vtotal ≤ l ∨ z.side.beam.l = l
                 let n : Nat := 1
                 0 < n ∧
                 ((match (s.micros b false n).berth b with
                   | some y => decide (
                       (List.range n).all (fun i => match (s.micros b false i).berth b, (s.micros b false (i + 1)).berth b with | some x, some y => decide (x.id = b ∧ x.mayIdle = true ∧ y.parkReq = none ∧ (i + 1 < n → ¬ (line l) y)) | _, _ => false) = true ∧
                       line l y ∧
                       (let k : Nat := 2
                        n ≤ k))
                   | _ => false) = true))
             | _ => false) = true))
       | _ => false) = true)) ∧
    (let s : State := wt (.waitL 7) 0 0 false
     let b : Nat := 0
     ((match s.berth b with
       | some x => decide (
           x.side.core.pend = none ∧ x.side.core.tf0 = false ∧
           ((match x.side.core.st with
             | .waitL l => decide (
                 let line : Nat → Berth → Bool := fun l z => z.side.beam.geo.vtotal ≤ l ∨ z.side.beam.l = l
                 let n : Nat := 1
                 0 < n ∧
                 ((match (s.micros b false n).berth b with
                   | some y => decide (
                       (List.range n).all (fun i => match (s.micros b false i).berth b, (s.micros b false (i + 1)).berth b with | some x, some y => decide (x.id = b ∧ x.mayIdle = true ∧ y.parkReq = none ∧ (i + 1 < n → ¬ (line l) y)) | _, _ => false) = true ∧
                       (¬ line l y) ∧
                       (let k : Nat := 2
                        n ≤ k))
                   | _ => false) = true))
             | _ => false) = true))
       | _ => false) = true)) ∧
    (let s : State := wt (.waitC 0 0 0) 0 0 false
     let b : Nat := 0
     ((match s.berth b with
       | some x => decide (
           x.side.core.pend = none ∧ x.side.core.tf0 = false ∧
           ((match x.side.core.st with
             | .waitC c l h => decide (
                 let column : Nat → Nat → Nat → Berth → Bool := fun c l h z => if z.side.beam.geo.htotal ≤ c then z.side.beam.l ≠ l else c ≤ z.side.beam.c ∨ (z.side.beam.l ≠ l ∧ (c < h ∨ z.side.beam.l ≠ 0))
                 let n : Nat := 1
                 0 < n ∧
                 ((match (s.micros b false n).berth b with
                   | some y => decide (
                       (List.range n).all (fun i => match (s.micros b false i).berth b, (s.micros b false (i + 1)).berth b with | some x, some y => decide (x.id = b ∧ x.mayIdle = true ∧ y.parkReq = none ∧ (i + 1 < n → ¬ (column c l h) y)) | _, _ => false) = true ∧
                       column c l h y ∧
                       (let k : Nat := 2
                        n ≤ k))
                   | _ => false) = true))
             | _ => false) = true))
       | _ => false) = true)) ∧
    (let s : State := wt (.waitC 300 0 0) 0 0 false
     let b : Nat := 0
     ((match s.berth b with
       | some x => decide (
           x.side.core.pend = none ∧ x.side.core.tf0 = false ∧
           ((match x.side.core.st with
             | .waitC c l h => decide (
                 let column : Nat → Nat → Nat → Berth → Bool := fun c l h z => if z.side.beam.geo.htotal ≤ c then z.side.beam.l ≠ l else c ≤ z.side.beam.c ∨ (z.side.beam.l ≠ l ∧ (c < h ∨ z.side.beam.l ≠ 0))
                 let n : Nat := 1
                 0 < n ∧
                 ((match (s.micros b false n).berth b with
                   | some y => decide (
                       (List.range n).all (fun i => match (s.micros b false i).berth b, (s.micros b false (i + 1)).berth b with | some x, some y => decide (x.id = b ∧ x.mayIdle = true ∧ y.parkReq = none ∧ (i + 1 < n → ¬ (column c l h) y)) | _, _ => false) = true ∧
                       (¬ column c l h y) ∧
                       (let k : Nat := 2
                        n ≤ k))
                   | _ => false) = true))
             | _ => false) = true))
       | _ => false) = true)) := by
  refine ⟨?_, ?_, ?_, ?_, ?_, ?_, ?_⟩ <;> decide +kernel

set_option maxRecDepth 20000 in
/-- The hypotheses of Obligations.InAndBeamInstructions can be met. -/
theorem witness_InAndBeamInstructions :
    (let s : State := wc (.inPort 0 5 (.ext 0x1000)) (s0)
     let b : Nat := 0
     let d : Reg := 5
     let o : PortOp := .ext 0x1000
     ((match s.spend b ((encode (.inPort b d o)).getD []) (o.words + 2) with
       | some (u, y) => decide (
           let k := y.side.core
           let p := match o with | .reg r => k.w[r].toNat % 4096 | .ext e => e.toNat
           4096 ≤ p)
       | _ => false) = true)) ∧
    (let s : State := wc (.inPort 0 5 (.ext 0x1000)) (s0)
     let b : Nat := 0
     let d : Reg := 5
     let o : PortOp := .ext 0x1000
     ((match s.spend b ((encode (.inPort b d o)).getD []) (o.words + 2) with
       | some (u, y) => decide (True)
       | _ => false) = true)) ∧
    (let s : State := wc (.inPort 0 5 (.ext 0x1000)) (s0)
     let b : Nat := 0
     let d : Reg := 5
     let o : PortOp := .ext 0x1000
     ((match s.spend b ((encode (.inPort b d o)).getD []) (o.words + 2) with
       | some (u, y) => decide (True)
       | _ => false) = true)) ∧
    (let s : State := wc (.inPort 0 5 (.ext 0x1000)) (s0)
     let b : Nat := 0
     let d : Reg := 5
     let o : PortOp := .ext 0x1000
     ((match s.spend b ((encode (.inPort b d o)).getD []) (o.words + 2) with
       | some (u, y) => decide (True)
       | _ => false) = true)) ∧
    (let s : State := wc (.inPort 0 5 (.ext 0x1000)) (s0)
     let b : Nat := 0
     let d : Reg := 5
     let o : PortOp := .ext 0x1000
     ((match s.spend b ((encode (.inPort b d o)).getD []) (o.words + 2) with
       | some (u, y) => decide (True)
       | _ => false) = true)) ∧
    (let s : State := wc (.inPort 0 5 (.ext 0x1000)) (s0)
     let b : Nat := 0
     let d : Reg := 5
     let o : PortOp := .ext 0x1000
     ((match s.spend b ((encode (.inPort b d o)).getD []) (o.words + 2) with
       | some (u, y) => decide (True)
       | _ => false) = true)) ∧
    (let s : State := wc (.inPort 0 5 (.ext 0x1000)) (s0)
     let b : Nat := 0
     let d : Reg := 5
     let o : PortOp := .ext 0x1000
     ((match s.spend b ((encode (.inPort b d o)).getD []) (o.words + 2) with
       | some (u, y) => decide (True)
       | _ => false) = true)) ∧
    (let s : State := wc (.inPort 0 5 (.ext 0x1000)) (s0)
     let b : Nat := 0
     let d : Reg := 5
     let o : PortOp := .ext 0x1000
     ((match s.spend b ((encode (.inPort b d o)).getD []) (o.words + 2) with
       | some (u, y) => decide (True)
       | _ => false) = true)) ∧
    (let s : State := wc (.inPort 0 5 (.ext 0x1000)) (s0)
     let b : Nat := 0
     let d : Reg := 5
     let o : PortOp := .ext 0x1000
     ((match s.spend b ((encode (.inPort b d o)).getD []) (o.words + 2) with
       | some (u, y) => decide (True)
       | _ => false) = true)) ∧
    (let s : State := wc (.inPort 0 5 (.ext 0x1000)) (s0)
     let b : Nat := 0
     let d : Reg := 5
     let o : PortOp := .ext 0x1000
     ((match s.spend b ((encode (.inPort b d o)).getD []) (o.words + 2) with
       | some (u, y) => decide (True)
       | _ => false) = true)) ∧
    (let s : State := wc (.inPort 0 5 (.ext 0xC80)) (s0)
     let b : Nat := 0
     let d : Reg := 5
     let o : PortOp := .ext 0xC80
     ((match s.spend b ((encode (.inPort b d o)).getD []) (o.words + 2) with
       | some (u, y) => decide (
           let k := y.side.core
           let p := match o with | .reg r => k.w[r].toNat % 4096 | .ext e => e.toNat
           0xC80 ≤ p ∧ p < 4096)
       | _ => false) = true)) ∧
    (let s : State := wc (.inPort 0 5 (.ext 0x400)) (s0)
     let b : Nat := 0
     let d : Reg := 5
     let o : PortOp := .ext 0x400
     ((match s.spend b ((encode (.inPort b d o)).getD []) (o.words + 2) with
       | some (u, y) => decide (
           let k := y.side.core
           let p := match o with | .reg r => k.w[r].toNat % 4096 | .ext e => e.toNat
           0x400 ≤ p ∧ p < 0x800 ∧
           ((match portRow (p - 0x400) with
             | some row => decide (True)
             | _ => false) = true))
       | _ => false) = true)) ∧
    (let s : State := wc (.inPort 0 5 (.ext 0xA01)) (s0)
     let b : Nat := 0
     let d : Reg := 5
     let o : PortOp := .ext 0xA01
     ((match s.spend b ((encode (.inPort b d o)).getD []) (o.words + 2) with
       | some (u, y) => decide (
           let k := y.side.core
           let p := match o with | .reg r => k.w[r].toNat % 4096 | .ext e => e.toNat
           let n : Fin 4 := 0
           p = 0xA01 + 16 * n.val)
       | _ => false) = true)) ∧
    (let s : State := wc (.inPort 0 5 (.ext 0xA02)) (s0)
     let b : Nat := 0
     let d : Reg := 5
     let o : PortOp := .ext 0xA02
     ((match s.spend b ((encode (.inPort b d o)).getD []) (o.words + 2) with
       | some (u, y) => decide (
           let k := y.side.core
           let p := match o with | .reg r => k.w[r].toNat % 4096 | .ext e => e.toNat
           let n : Fin 4 := 0
           p = 0xA02 + 16 * n.val)
       | _ => false) = true)) ∧
    (let s : State := wc (.inPort 0 5 (.ext 0xC40)) (s0)
     let b : Nat := 0
     let d : Reg := 5
     let o : PortOp := .ext 0xC40
     ((match s.spend b ((encode (.inPort b d o)).getD []) (o.words + 2) with
       | some (u, y) => decide (
           let k := y.side.core
           let p := match o with | .reg r => k.w[r].toNat % 4096 | .ext e => e.toNat
           0xC40 ≤ p ∧ p < 0xC70 ∧ u.pinLent y p = false)
       | _ => false) = true)) ∧
    (let s : State := wc (.rdbeam 0 1) (s0)
     let b : Nat := 0
     let p : Fin 8 := 1
     ((match s.spend b ((encode (.rdbeam b p)).getD []) 2 with
       | some (u, y) => decide (True)
       | _ => false) = true)) ∧
    (let s : State := wc (.stamp 0 0x400 5 6) (s0)
     let b : Nat := 0
     let port : Word := 0x400
     1024 ≤ port.toNat ∧
     (let r : Reg := 5
      let c : Reg := 6
      ((match s.spend b ((encode (.stamp b port r c)).getD []) 4 with
        | some (u, y) => decide (True)
        | _ => false) = true))) ∧
    (let s : State := wc (.stamp 0 0x3FF 5 6) (s0)
     let b : Nat := 0
     let port : Word := 0x3FF
     port.toNat < 1024 ∧ portRow port.toNat = none ∧
     (let r : Reg := 5
      let c : Reg := 6
      ((match s.spend b ((encode (.stamp b port r c)).getD []) 4 with
        | some (u, y) => decide (True)
        | _ => false) = true))) ∧
    (let s : State := wc (.stamp 0 0 5 6) (s0)
     let b : Nat := 0
     let port : Word := 0
     port.toNat < 1024 ∧
     ((match portRow port.toNat with
       | some row => decide (
           let r : Reg := 5
           let c : Reg := 6
           ((match s.spend b ((encode (.stamp b port r c)).getD []) 4 with
             | some (u, y) => decide ((y.cur.stamps.length < 512))
             | _ => false) = true))
       | _ => false) = true)) := by
  refine ⟨?_, ?_, ?_, ?_, ?_, ?_, ?_, ?_, ?_, ?_, ?_, ?_, ?_, ?_, ?_, ?_, ?_, ?_, ?_⟩ <;> decide +kernel

set_option maxRecDepth 20000 in
/-- The hypotheses of Obligations.OutWritesItsPortAndNothingElse can be met. -/
theorem witness_OutWritesItsPortAndNothingElse :
    (let s : State := wc (.out 0 (.ext 0x123) 5) (s0)
     let b : Nat := 0
     ((match s.berth b with
       | some x => decide (
           let o : PortOp := .ext 0x123
           let r : Reg := 5
           let v := x.side.core.w[r]
           let tw : Option (Fin 4 × TimerWrite) := none
           ((match s.spend b ((encode (.out b o r)).getD []) (o.words + 2) tw with
             | some (u, y) => decide (
                 let k := y.side.core
                 let port := fun (k : Core) => o.port k
                 let p := port x.side.core
                 let barred := 0xC40 ≤ p ∧ p < 0xC70 ∧ u.pinLent y p = false
                 p < 4096 ∧ tw = x.timerWrite p v.toNat ∧ (¬ barred))
             | _ => false) = true))
       | _ => false) = true)) ∧
    (let tw := none
     let s : State := wc (.out 0 (.ext 0x1000) 5) (s0)
     let b : Nat := 0
     ((match s.berth b with
       | some x => decide (
           let o : PortOp := .ext 0x1000
           let r : Reg := 5
           ((match s.spend b ((encode (.out b o r)).getD []) (o.words + 2) tw with
             | some (u, y) => decide (
                 let k := y.side.core
                 let port := fun (k : Core) => o.port k
                 let p := port x.side.core
                 4096 ≤ p)
             | _ => false) = true))
       | _ => false) = true)) ∧
    (let tw := none
     let s : State := wc (.out 0 (.ext 0xC40) 5) (s0)
     let b : Nat := 0
     ((match s.berth b with
       | some x => decide (
           let o : PortOp := .ext 0xC40
           let r : Reg := 5
           ((match s.spend b ((encode (.out b o r)).getD []) (o.words + 2) tw with
             | some (u, y) => decide (
                 let k := y.side.core
                 let port := fun (k : Core) => o.port k
                 let p := port x.side.core
                 let barred := 0xC40 ≤ p ∧ p < 0xC70 ∧ u.pinLent y p = false
                 barred)
             | _ => false) = true))
       | _ => false) = true)) := by
  refine ⟨?_, ?_, ?_⟩ <;> decide +kernel

/-- The hypotheses of Obligations.PortWritesOfTheRaster can be met. -/
theorem witness_PortWritesOfTheRaster :
    (let p : Nat := 0x3FF
     p < 0x400 ∧ portRow p = none) ∧
    (let y : Berth := berth0 core0
     y.cur.stamps.length < 512 ∧
     (let p : Nat := 0
      p < 0x400 ∧
      ((match portRow p with
        | some row => decide (True)
        | _ => false) = true))) ∧
    (let y : Berth := full
     512 ≤ y.cur.stamps.length ∧
     (let p : Nat := 0
      p < 0x400 ∧
      ((match portRow p with
        | some row => decide (True)
        | _ => false) = true))) ∧
    (let p : Nat := 0x400
     0x400 ≤ p ∧ p < 0x800 ∧
     ((match portRow (p - 0x400) with
       | some row => decide (True)
       | _ => false) = true)) ∧
    (let p : Nat := 0xBC8
     0xBC8 ≤ p ∧ p ≤ 0xBD1 ∧
     ((match portRow p with
       | some row => decide (True)
       | _ => false) = true)) ∧
    (let v : Word := 1
     v.getLsbD 0 = true) ∧
    (let v : Word := 0
     v.getLsbD 0 = false) := by
  refine ⟨?_, ?_, ?_, ?_, ?_, ?_, ?_⟩ <;> decide +kernel

/-- The hypotheses of Obligations.PortWritesOfTimersAndInterrupts can be met. -/
theorem witness_PortWritesOfTimersAndInterrupts :
    (let t : BTimer := {}
     t.follow = false ∧ t.en = false) ∧
    (let t : BTimer := {}
     t.follow = false ∧
     (let adv : Nat := 1
      let v : Word32 := 0
      let r1 := t.step adv (some ⟨1, v⟩)
      r1.2 = false)) ∧
    (let t : BTimer := { en := true }
     t.follow = false ∧ t.auto = false ∧
     (let adv : Nat := 1
      let v : Word32 := 0
      let r1 := t.step adv (some ⟨1, v⟩)
      r1.2 = true)) ∧
    (let t : BTimer := { en := true, cnt := 6, auto := true, int := 1 }
     t.follow = false ∧ t.auto = true ∧
     (let adv : Nat := 1
      let v : Word32 := 0
      let r1 := t.step adv (some ⟨1, v⟩)
      r1.2 = true)) ∧
    (let t : BTimer := {}
     t.follow = false ∧
     (let adv : Nat := 1
      let v : Word32 := 0
      let r2 := t.step adv (some ⟨2, v⟩)
      r2.2 = false)) ∧
    (let n : Nat := 0
     n < 32) ∧
    (let y : Berth := { berth0 core0 with side := { (berth0 core0).side with pad := { wp := 3 } } }
     y.side.pad.wp ≠ y.side.pad.rp ∧
     (let v : Word := 12
      v.toNat % 32 = 12)) ∧
    (let y : Berth := berth0 core0
     y.side.pad.wp = y.side.pad.rp ∧
     (let v : Word := 12
      v.toNat % 32 = 12)) ∧
    (let v : Word := 0
     v.toNat % 32 ≠ 11 ∧ v.toNat % 32 ≠ 12) := by
  refine ⟨?_, ?_, ?_, ?_, ?_, ?_, ?_, ?_, ?_⟩ <;> decide +kernel

/-- The hypotheses of Obligations.PortWritesOfEnginesAudioAndPins can be met. -/
theorem witness_PortWritesOfEnginesAudioAndPins :
    (let y : Berth := fcs 1
     let n : Fin 4 := 0
     let c := y.side.fc[n]
     c.state = 1 ∧
     (let v : Word := 2
      v.getLsbD 1 = true)) ∧
    (let y : Berth := fcs 2
     let n : Fin 4 := 0
     let c := y.side.fc[n]
     c.state = 2 ∧
     (let v : Word := 2
      v.getLsbD 1 = true)) ∧
    (let y : Berth := berth0 core0
     let n : Fin 4 := 0
     let c := y.side.fc[n]
     c.state ≠ 1 ∧ c.state ≠ 2 ∧
     (let v : Word := 2
      v.getLsbD 1 = true)) ∧
    (let y : Berth := fcs 1
     let n : Fin 4 := 0
     let c := y.side.fc[n]
     (c.state = 1 ∨ c.state = 2) ∧
     (let v : Word := 1
      v.getLsbD 1 = false ∧ v.getLsbD 0 = true)) ∧
    (let y : Berth := badMan
     let n : Fin 4 := 0
     let c := y.side.fc[n]
     let m := (List.range 8).map (fun i => w16 (y.side.port (0xA80 + 16 * n.val + i)))
     c.state ≠ 1 ∧ c.state ≠ 2 ∧ manValid m = false ∧
     (let v : Word := 1
      v.getLsbD 1 = false ∧ v.getLsbD 0 = true)) ∧
    (let y : Berth := berth0 core0
     let n : Fin 4 := 0
     let c := y.side.fc[n]
     let m := (List.range 8).map (fun i => w16 (y.side.port (0xA80 + 16 * n.val + i)))
     c.state ≠ 1 ∧ c.state ≠ 2 ∧ manValid m = true ∧ manTrig m = 0 ∧
     (let v : Word := 1
      v.getLsbD 1 = false ∧ v.getLsbD 0 = true)) ∧
    (let v : Word := 0
     v.getLsbD 1 = false ∧ v.getLsbD 0 = false) ∧
    (let v : Word := 0
     v.getLsbD 0 = false) ∧
    (let y : Berth := full8
     let q := y.side.lj
     let m := (List.range 13).map (fun i => w16 (y.side.port (0xB00 + i)))
     (8 ≤ q.outst.length ∨ jobValid m = false) ∧
     (let v : Word := 1
      v.getLsbD 0 = true)) ∧
    (let y : Berth := berth0 core0
     let q := y.side.lj
     let m := (List.range 13).map (fun i => w16 (y.side.port (0xB00 + i)))
     q.outst.length < 8 ∧ jobValid m = true ∧
     (let v : Word := 1
      v.getLsbD 0 = true)) ∧
    (let n : Nat := 0
     n < 32) ∧
    (let y : Berth := berth0 core0
     y.side.au.sv.length = 16 ∧
     (let n : Nat := 0
      n < 16 ∧
      (let i : Nat := 1
       i ≠ n))) ∧
    (let y : Berth := berth0 core0
     tsorted y.side.pins = true ∧
     (let n : Nat := 0
      n < 48)) := by
  refine ⟨?_, ?_, ?_, ?_, ?_, ?_, ?_, ?_, ?_, ?_, ?_, ?_, ?_⟩ <;> decide +kernel

/-- The hypotheses of Obligations.BeamPositionAdvancesByInc can be met. -/
theorem witness_BeamPositionAdvancesByInc :
    (let m : Beam := (berth0 core0).side.beam
     2 ≤ m.geo.htotal ∧ m.c < m.geo.htotal ∧ m.l < m.geo.vtotal ∧ m.geo.inc ≤ 0x50000000) := by
  decide +kernel

/-- The hypotheses of Obligations.MicrocycleOfABerth can be met. -/
theorem witness_MicrocycleOfABerth :
    (let s : State := s0
     let b : Nat := 0
     ((match s.berth b with
       | some x => decide ((x.id = b))
       | _ => false) = true)) := by
  decide +kernel

/-- The hypotheses of Obligations.BerthTimeEventsOfAHaltedCore can be met. -/
theorem witness_BerthTimeEventsOfAHaltedCore :
    (let s : State := ks (fun k => { k with st := .halt })
     let b : Nat := 0
     ((match s.berth b with
       | some x => decide (
           x.id = b ∧ x.mayIdle = true ∧ x.side.core.st = .halt ∧ x.side.core.pend = none ∧
           ((match (s.micro b false).berth b with
             | some y => decide ((y.parkReq = none))
             | _ => false) = true))
       | _ => false) = true)) := by
  decide +kernel

set_option maxRecDepth 20000 in
/-- The hypotheses of Obligations.WatchesEndCommitAndRelease can be met. -/
theorem witness_WatchesEndCommitAndRelease :
    (let s : State := st (wd b0)
     let b : Nat := 0
     ((match s.berth b with
       | some x => decide (
           x.id = b ∧ x.mayEnd = true ∧ x.side.core.pend = none ∧ x.parkReq = none)
       | _ => false) = true)) ∧
    (let s : State := st ({ b0 with ended := [rec1 2] })
     s.flying = [] ∧
     (let at_ : Nat := 0
      let b : Nat := 0
      ((match s.berth b with
        | some x => decide (
            x.id = b ∧ x.parked = false ∧ .closed ∉ x.freezes ∧ x.parkReq = none ∧ x.side.core.pend = none ∧ x.hasTime = true ∧
            ((match x.ended with
              | r :: rest => decide (
                  r.headerDone = false ∧ r.acc.mismatch = false ∧ r.acc.starts = [] ∧
                  (let u := s.at (max at_ (r.at_ + 2000))
                   u.berth b = some x ∧
                   (let n := (r.acc.seq + 1) % 2
                    let w := u.writeHeader x n r.acc.seq r.side.bt (r.at_ % 2 ^ 64) r.cause
                    w.1 = true)))
              | _ => false) = true))
        | _ => false) = true))) ∧
    (let s : State := st (wt_2 1 4)
     s.flying = [] ∧
     (let d : Nat := 0
      s.hasDie d = true ∧
      (let k : Nat := 0
       k < 16 ∧
       (let at_ : Nat := 0
        let u := s.at at_
        let p : Nat := 1
        let x : Berth := wt_2 1 4
        let t := (u.dockBerths d k).foldl (fun (v : State) x => v.joinOrder x.id) u
        t.firstWaiter d k = some (x, p) ∧ t.berth x.id = some x ∧ .closed ∉ x.freezes ∧ x.parkReq = none ∧ x.side.core.pend = none ∧
        ((match x.ended with
          | r :: rest => decide (
              r.acc.starts = [] ∧ t.storeFits x r.acc.stamps.length (some p) = true)
          | _ => false) = true))))) ∧
    (let s : State := st (wt_2 1 4095)
     s.flying = [] ∧
     (let d : Nat := 0
      s.hasDie d = true ∧
      (let k : Nat := 0
       k < 16 ∧
       (let at_ : Nat := 0
        let u := s.at at_
        let p : Nat := 1
        let x : Berth := wt_2 1 4095
        let t := (u.dockBerths d k).foldl (fun (v : State) x => v.joinOrder x.id) u
        t.firstWaiter d k = some (x, p) ∧ t.berth x.id = some x ∧ .closed ∉ x.freezes ∧ x.parkReq = none ∧ x.side.core.pend = none ∧
        ((match x.ended with
          | r :: rest => decide (
              r.acc.starts = [] ∧ t.storeFits x r.acc.stamps.length (some p) = false)
          | _ => false) = true))))) := by
  refine ⟨?_, ?_, ?_, ?_⟩ <;> decide +kernel

/-- The hypotheses of Obligations.RecoveryAndRelocationPlaceTheBerth can be met. -/
theorem witness_RecoveryAndRelocationPlaceTheBerth :
    (let s : State := st { b0 with ckpt := some ck, cur := { b0.cur with seq := 9 } }
     s.flying = [] ∧
     (let at_ : Nat := 0
      let u := s.at at_
      let b : Nat := 0
      ((match u.berth b with
        | some x => decide (
            x.id = b ∧ x.mayMismatch = true ∧ u.deputyHalted x.die = false ∧ x.ended = [] ∧ x.moving = false ∧ x.dest = none ∧
            x.parkReq = none ∧
            ((match x.ckpt with
              | some c => decide (
                  c.side.core.pend = none ∧
                  ((match (u.hicSet x.die (64 + 17 * x.dock + x.slot)).rollback x with
                    | (none, t) => decide (
                        ((match t.pickSlot x.die x.dock with
                          | (some n, v) => decide (True)
                          | _ => false) = true))
                    | _ => false) = true))
              | _ => false) = true))
        | _ => false) = true))) ∧
    (let s : State := st { b0 with dest := some (0,0,3), moving := true, freezes := [.recovery], reloc := 3 }
     s.flying = [] ∧
     (let at_ : Nat := 0
      let u := s.at at_
      let b : Nat := 0
      ((match u.berth b with
        | some x => decide (
            x.id = b ∧ x.moving = true ∧ x.ended = [] ∧ x.parked = false ∧ u.deputyHalted x.die = false ∧ x.side.core.pend = none ∧
            x.parkReq = none ∧
            ((match x.dest with
              | some (why, k, n) => decide (
                  k = x.dock ∧
                  ((match u.moveSlot x.die k n with
                    | some m => decide ((x.slot ≠ m ∨ x.dock ≠ k))
                    | _ => false) = true))
              | _ => false) = true))
        | _ => false) = true))) ∧
    (let s : State := st { b0 with dest := some (0,4,3), moving := true, freezes := [.migrate], reloc := 4, locGen := 65535 }
     s.flying = [] ∧
     (let at_ : Nat := 0
      let u := s.at at_
      let b : Nat := 0
      ((match u.berth b with
        | some x => decide (
            x.id = b ∧ x.moving = true ∧ x.ended = [] ∧ x.parked = false ∧ u.deputyHalted x.die = false ∧ x.side.core.pend = none ∧
            x.parkReq = none ∧ u.dockLetGo x = true ∧
            ((match x.dest with
              | some (why, k, n) => decide (
                  k ≠ x.dock ∧ (u.slotsIn x.die k 1).length < u.prof.berths ∧ u.imageFits x k = true ∧
                  ((match u.moveSlot x.die k n with
                    | some m => decide ((x.slot ≠ m ∨ x.dock ≠ k))
                    | _ => false) = true))
              | _ => false) = true))
        | _ => false) = true))) ∧
    (let s : State := st { b0 with freezes := [.align], gov := { b0.gov with mode := 1, fpnum := 16666667, fpden := 1 } }
     s.flying = [] ∧
     (let b : Nat := 0
      ((match s.berth b with
        | some x => decide ((x.id = b) ∧ (x.freezes = [.align]))
        | _ => false) = true))) := by
  refine ⟨?_, ?_, ?_, ?_⟩ <;> decide +kernel

/-- The hypotheses of Obligations.AccessesReachARegisterOnlyByRight can be met. -/
theorem witness_AccessesReachARegisterOnlyByRight :
    (let w := true
     let s : State := base
     let r : Requester := .ep 0
     isHost r = true ∧
     (let a : Nat := 0x30
      let g := s.gate r a w
      ((match g.1 with
        | some l => decide ((l.isPin = false))
        | _ => false) = true))) ∧
    (let s : State := base
     let r : Requester := .deputy 9
     s.hasReq r = false) ∧
    (let s : State := State.reset
     let r : Requester := .ep 0
     s.hasReq r = true ∧
     (let a : Nat := 0
      let w : Bool := true
      s.enters r a w = false)) ∧
    (let s : State := base
     let r : Requester := .master
     s.hasReq r = true ∧
     (let a : Nat := 0x300000
      locate s.part a = none ∧
      (let w : Bool := true
       s.enters r a w = true))) ∧
    (let s : State := base
     let r : Requester := .jtag
     s.hasReq r = true ∧ isCore r = false ∧
     (let a : Nat := 0
      ((match locate s.part a with
        | some l => decide (
            let led := fun l : Loc => dieAddr l.dieOf (0x60100 + 4 * l.entry)
            l.isPin = false ∧
            (let w : Bool := true
             s.enters r a w = true ∧ (w && l.ignores r) = false ∧ s.flag (led l) ((if r = .jtag then 2 else 0) + b2n w) = false))
        | _ => false) = true))) ∧
    (let w := true
     let s : State := base.setReg (0x60100 + 4*35) 0xF
     let r : Requester := .ep 0
     s.hasReq r = true ∧ isCore r = false ∧
     (let a : Nat := quayAddr 3 0x44
      s.enters r a w = true ∧
      ((match locate s.part a with
        | some l => decide (
            let led := fun l : Loc => dieAddr l.dieOf (0x60100 + 4 * l.entry)
            l.isPin = false ∧ l.entry ≠ 0 ∧ s.flag (led l) ((if r = .jtag then 2 else 0) + 1) = true ∧
            ((match s.entryHit r l with
              | some n => decide (True)
              | _ => false) = true))
        | _ => false) = true))) ∧
    (let s : State := base
     let r : Requester := .master
     s.hasReq r = true ∧
     (let a : Nat := 0
      ((match locate s.part a with
        | some l => decide (
            let led := fun l : Loc => dieAddr l.dieOf (0x60100 + 4 * l.entry)
            (match l with | .slot d c n _ => decide (isHost r = false ∨ s.slot d c n = 1) | _ => true) = true ∧
            (let w : Bool := true
             s.enters r a w = true ∧ (w && l.ignores r) = false ∧ (w = true → isCore r = true ∨ s.entryHit r l = none) ∧
             (isCore r = true ∨ s.flag (led l) ((if r = .jtag then 2 else 0) + b2n w) = true)))
        | _ => false) = true))) := by
  refine ⟨?_, ?_, ?_, ?_, ?_, ?_, ?_⟩ <;> decide +kernel

/-- The hypotheses of Obligations.RegisterWritesFollowAccessCodes can be met. -/
theorem witness_RegisterWritesFollowAccessCodes :
    (let w : RegRow := regRows.head (by decide)
     w ∈ regRows ∧
     (let f : RField := (regRows.head (by decide)).fields.head (by decide)
      f ∈ w.fields ∧
      (let old : Nat := 5
       old < 2 ^ 32 ∧
       (let n : Nat := 0
        f.lo ≤ n ∧ n ≤ f.hi)))) ∧
    (let s : State := base
     let r : Requester := .ep 0
     let a : Nat := dockAddr 0 3 R.FY_ERR
     let at_ : Nat := 0
     let u := s.at at_
     let g := u.gate r (a / 4 * 4) true
     g.1 = none) ∧
    (let s : State := base
     let r : Requester := .master
     let a : Nat := dockAddr 0 3 R.FY_ERR
     let size : Nat := 2
     (size ≠ 4 ∨ a % 4 ≠ 0) ∧
     (let at_ : Nat := 0
      let u := s.at at_
      let g := u.gate r (a / 4 * 4) true
      ((match g.1 with
        | some l => decide (True)
        | _ => false) = true))) ∧
    (let s : State := base
     let r : Requester := .master
     let a : Nat := 0x50800
     a % 4 = 0 ∧
     (let at_ : Nat := 0
      let u := s.at at_
      let g := u.gate r (a / 4 * 4) true
      ((match g.1 with
        | some l => decide (
            l.special = false ∧
            ((match l.row with
              | some w => decide (
                  ((match l with
                    | .die d off => decide (
                        ((off / 0x10000 = 3 ∧ ¬ (0x30100 ≤ off ∧ off < 0x30500)) ∨ off / 0x10000 = 5))
                    | _ => false) = true))
              | _ => false) = true))
        | _ => false) = true))) ∧
    (let s : State := base
     let r : Requester := .master
     let a : Nat := 0x30100
     a % 4 = 0 ∧
     (let at_ : Nat := 0
      let u := s.at at_
      let g := u.gate r (a / 4 * 4) true
      ((match g.1 with
        | some l => decide (
            l.special = false ∧
            ((match l.row with
              | some w => decide (
                  ((match l with
                    | .die d off => decide ((0x30100 ≤ off) ∧ (off < 0x30500))
                    | _ => false) = true))
              | _ => false) = true))
        | _ => false) = true))) ∧
    (let s : State := base
     let r : Requester := .master
     let a : Nat := dockAddr 0 3 R.FY_ERR
     a % 4 = 0 ∧
     (let at_ : Nat := 0
      let u := s.at at_
      let g := u.gate r (a / 4 * 4) true
      ((match g.1 with
        | some l => decide (
            l.special = false ∧
            ((match l.row with
              | some w => decide (
                  ((match l with
                    | .dock d k off => decide (True)
                    | _ => false) = true))
              | _ => false) = true))
        | _ => false) = true))) ∧
    (let s : State := wb
     let r : Requester := .master
     let a : Nat := dockAddr 0 0 (0x8000 + R.DP_OUTCFG)
     a % 4 = 0 ∧
     (let at_ : Nat := 0
      let u := s.at at_
      let g := u.gate r (a / 4 * 4) true
      ((match g.1 with
        | some l => decide (
            l.special = false ∧
            ((match l.row with
              | some w => decide (
                  ((match l with
                    | .slot d k n off => decide (
                        (off < 0x100 ∨ 0x180 ≤ off) ∧
                        ((match u.berthIn d k n with
                          | some x => decide (True)
                          | _ => false) = true))
                    | _ => false) = true))
              | _ => false) = true))
        | _ => false) = true))) ∧
    (let s : State := wb
     let r : Requester := .master
     let a : Nat := dockAddr 0 0 0x8104
     a % 4 = 0 ∧
     (let at_ : Nat := 0
      let u := s.at at_
      let g := u.gate r (a / 4 * 4) true
      ((match g.1 with
        | some l => decide (
            l.special = false ∧
            ((match l.row with
              | some w => decide (
                  ((match l with
                    | .slot d k n off => decide (
                        0x100 ≤ off ∧ off < 0x180 ∧
                        ((match u.berthIn d k n with
                          | some x => decide (
                              x.segDefs = [] ∧
                              (let h := (off - 0x100) / 8
                               (x.side.descN h).limit < 2 ^ 16))
                          | _ => false) = true))
                    | _ => false) = true))
              | _ => false) = true))
        | _ => false) = true))) ∧
    (let s : State := base
     let r : Requester := .master
     let a : Nat := quayAddr 3 0x200
     a % 4 = 0 ∧
     (let at_ : Nat := 0
      let u := s.at at_
      let g := u.gate r (a / 4 * 4) true
      ((match g.1 with
        | some l => decide (
            l.special = false ∧
            ((match l.row with
              | some w => decide (
                  ((match l with
                    | .quay q off => decide ((off ≠ 0x40) ∧ (off < 0x44 ∨ 0x74 ≤ off))
                    | _ => false) = true))
              | _ => false) = true))
        | _ => false) = true))) := by
  refine ⟨?_, ?_, ?_, ?_, ?_, ?_, ?_, ?_, ?_⟩ <;> decide +kernel

/-- The hypotheses of Obligations.ReadsWithASideEffect can be met. -/
theorem witness_ReadsWithASideEffect :
    (let s : State := base
     let r : Requester := .master
     let at_ : Nat := 0
     let u := s.at at_
     let size : Nat := 4
     0 < size ∧
     (let a : Nat := R.HB_TIMELO
      let o : Nat := 0
      let l : Loc := .die 0 R.HB_TIMELO
      let ok : State → Nat → Nat → Loc → Bool := fun (v : State) (a o : Nat) (l : Loc) => v.hasReq r = true ∧ v.enters r (a + o) false = true ∧ a % 4 = 0 ∧ o + size ≤ 4 ∧ (v.gate r a false).1 = some l
      ok u a o l ∧
      ((match Loc.high l with
        | some h => decide (
            ((match locate u.part h with
              | some m => decide (True)
              | _ => false) = true))
        | _ => false) = true))) ∧
    (let s : State := base
     let r : Requester := .master
     let at_ : Nat := 0
     let u := s.at at_
     let size : Nat := 4
     0 < size ∧
     (let d : Nat := 0
      let k : Nat := 3
      k < 16 ∧
      (let a := dockAddr d k R.DP_LOAD
       let off : Nat := 0
       let l : Loc := .dock 0 3 R.DP_LOAD
       let ok : State → Nat → Nat → Loc → Bool := fun (v : State) (a o : Nat) (l : Loc) => v.hasReq r = true ∧ v.enters r (a + o) false = true ∧ a % 4 = 0 ∧ o + size ≤ 4 ∧ (v.gate r a false).1 = some l
       ok u a (off % 4) l))) ∧
    (let size := 4
     0 < size ∧
     (let s : State := base
      let r : Requester := .master
      let at_ : Nat := 0
      let u := s.at at_
      let q : Nat := 3
      let tx : Bool := true
      let a := quayAddr q (if tx then R.QY_TXTSHI else R.QY_RXTSHI)
      let l : Loc := .quay 3 R.QY_TXTSHI
      let ok : State → Nat → Nat → Loc → Bool := fun (v : State) (a o : Nat) (l : Loc) => v.hasReq r = true ∧ v.enters r (a + o) false = true ∧ a % 4 = 0 ∧ o + size ≤ 4 ∧ (v.gate r a false).1 = some l
      ok u a 0 l)) := by
  refine ⟨?_, ?_, ?_⟩ <;> decide +kernel

/-- The hypotheses of Obligations.HarbourWritesWithARowOfTheirOwn can be met. -/
theorem witness_HarbourWritesWithARowOfTheirOwn :
    (let s : State := base
     let r : Requester := .master
     let at_ : Nat := 6
     let p := s.at (at_ - 1)
     let d : Nat := 0
     let n : Nat := 0
     n < 64 ∧
     (let a := dieAddr d (0x30100 + 16 * n)
      let fld : Nat := 0
      fld < 3 ∧
      ((match (p.gate r (a + 4 + 4 * fld) true).1 with
        | some l => decide (True)
        | _ => false) = true))) ∧
    (let s : State := base
     let r : Requester := .ep 9
     let at_ : Nat := 6
     let p := s.at (at_ - 1)
     let d : Nat := 0
     let n : Nat := 0
     n < 64 ∧
     (let a := dieAddr d (0x30100 + 16 * n)
      let fld : Nat := 0
      fld < 3 ∧ (p.gate r (a + 4 + 4 * fld) true).1 = none)) ∧
    (let g : Nat := 3
     g < 32) ∧
    (let v : Nat := 5
     v < 1024) ∧
    (let s : State := base
     let d : Nat := 0
     s.hasDie d = true) ∧
    (let v : Nat := 5
     v < 2 ^ 32) := by
  refine ⟨?_, ?_, ?_, ?_, ?_, ?_⟩ <;> decide +kernel

/-- The hypotheses of Obligations.HarbourTimeEvents can be met. -/
theorem witness_HarbourTimeEvents :
    (let s : State := base
     let d : Nat := 0
     s.hasDie d = true ∧
     (let n : Nat := 0
      n < 64)) ∧
    (let s : State := base
     s.htT = none) ∧
    (let s : State := { base with htT := some 30 }
     ((match s.htT with
       | some T => decide (
           let k : Nat := 25
           T ≤ s.now + k)
       | _ => false) = true)) ∧
    (let s : State := { base with htT := some 30 }
     ((match s.htT with
       | some T => decide (
           let k : Nat := 0
           s.now + k < T)
       | _ => false) = true)) ∧
    (let m : Moder := { released := false }
     m.released = false ∧
     (let wr : Bool := false
      let cnt : Nat := 0
      let tim : Nat := 7
      (cnt ≠ 0 ∨ tim ≠ 0) ∧
      (let unit : Nat := 1
       let delta : Nat := 0
       let held := min 255 (m.nheld + delta)
       let t : Nat := 9
       let since := if delta = 0 then m.since else some (m.since.getD t)
       let reached : Bool := (cnt ≠ 0 ∧ cnt ≤ held) ∨ (tim ≠ 0 ∧ ∃ b ∈ since.toList, tim * unit ≤ t - b)
       (¬ (wr = false ∧ reached))))) ∧
    (let s : State := base
     let d : Nat := 0
     s.hasDie d = true ∧
     (let g : Nat := 0
      g < 32 ∧
      (let at_ : Nat := 0
       let u := s.at at_
       tsorted u.hold = true))) ∧
    (let s : State := base
     let d : Nat := 0
     s.hasDie d = true ∧
     (let port : Nat := 1
      ((match s.part.neighbour d port with
        | some e => decide (
            let at_ : Nat := 0
            let u := s.at at_
            tsorted u.regs = true)
        | _ => false) = true))) := by
  refine ⟨?_, ?_, ?_, ?_, ?_, ?_, ?_⟩ <;> decide +kernel

set_option maxRecDepth 20000 in
/-- The hypotheses of Obligations.HostCellarAccesses can be met. -/
theorem witness_HostCellarAccesses :
    (let s : State := own
     let r : Requester := .ep 9
     let at_ : Nat := 0
     let u := s.at at_
     u.hasReq r = false) ∧
    (let s : State := { own with eps := [] }
     let r : Requester := .ep 0
     let off : Nat := 200*65536
     let at_ : Nat := 0
     let u := s.at at_
     u.hasReq r = true ∧
     (let n : Nat := 2
      (¬ (u.cellarUp r = true ∧ off + n ≤ 2 ^ 33)))) ∧
    (let s : State := cutoff
     let r : Requester := .ep 0
     let off : Nat := 2^30
     let at_ : Nat := 0
     let u := s.at at_
     let n : Nat := 2
     let up : Nat → Bool := fun (n : Nat) => u.hasReq r = true ∧ u.cellarUp r = true ∧ off + n ≤ 2 ^ 33
     up n ∧ 0 < n ∧
     (let w : Nat := 2^29
      let touches : Nat → Nat → Bool := fun (n w : Nat) => 2 * w < off + n ∧ off < 2 * w + 2
      let carries : Nat → Bool := fun w => u.hasDie (w / 2 ^ 29) = true → u.reaches (reqDie r) (w / 2 ^ 29) = true
      touches n w ∧ (¬ carries w) ∧ (List.range' (off / 2) (w - off / 2)).all (fun x => decide (touches n x → carries x)) = true)) ∧
    (let s : State := { own with pages := [(0, w32 0)] }
     let r : Requester := .ep 0
     let m : Master := { cls := reqClass r }
     let off : Nat := 0
     let at_ : Nat := 0
     let u := s.at at_
     let n : Nat := 2
     let up : Nat → Bool := fun (n : Nat) => u.hasReq r = true ∧ u.cellarUp r = true ∧ off + n ≤ 2 ^ 33
     up n ∧ 0 < n ∧
     (let w : Nat := 0
      let touches : Nat → Nat → Bool := fun (n w : Nat) => 2 * w < off + n ∧ off < 2 * w + 2
      let denied := fun (k : Kind) (w : Nat) => u.ledgerCheck 0 (w / 2 ^ 29) (w % 2 ^ 29) m k
      let carries : Nat → Bool := fun w => u.hasDie (w / 2 ^ 29) = true → u.reaches (reqDie r) (w / 2 ^ 29) = true
      (List.range' (off / 2) (n / 2 + 2)).all (fun x => !touches n x || decide (carries x)) = true ∧ touches n w ∧
      (List.range' (off / 2) (w - off / 2)).all (fun x => decide (touches n x → denied .read x = none)) = true ∧
      ((match denied .read w with
        | some (t, c) => decide (True)
        | _ => false) = true))) ∧
    (let s : State := own
     let r : Requester := .ep 0
     let m : Master := { cls := reqClass r }
     let off : Nat := 200*65536
     let at_ : Nat := 0
     let u := s.at at_
     let denied := fun (k : Kind) (w : Nat) => u.ledgerCheck 0 (w / 2 ^ 29) (w % 2 ^ 29) m k
     let carries : Nat → Bool := fun w => u.hasDie (w / 2 ^ 29) = true → u.reaches (reqDie r) (w / 2 ^ 29) = true
     let n : Nat := 2
     let touches : Nat → Nat → Bool := fun (n w : Nat) => 2 * w < off + n ∧ off < 2 * w + 2
     let up : Nat → Bool := fun (n : Nat) => u.hasReq r = true ∧ u.cellarUp r = true ∧ off + n ≤ 2 ^ 33
     up n ∧ 0 < n ∧ (List.range' (off / 2) (n / 2 + 2)).all (fun w => !touches n w || decide (carries w ∧ denied .read w = none)) = true ∧
     (List.range' (off / 2) (n / 2 + 2)).all (fun w => !touches n w || decide (tfind u.ecc (w / 4) = none)) = true) ∧
    (let s : State := { own with ecc := [(200 * 32768 / 4, .double)] }
     let r : Requester := .ep 0
     let m : Master := { cls := reqClass r }
     let off : Nat := 200*65536
     let at_ : Nat := 0
     let u := s.at at_
     let n : Nat := 2
     let up : Nat → Bool := fun (n : Nat) => u.hasReq r = true ∧ u.cellarUp r = true ∧ off + n ≤ 2 ^ 33
     up n ∧ 0 < n ∧
     (let w : Nat := 200*32768
      let touches : Nat → Nat → Bool := fun (n w : Nat) => 2 * w < off + n ∧ off < 2 * w + 2
      let denied := fun (k : Kind) (w : Nat) => u.ledgerCheck 0 (w / 2 ^ 29) (w % 2 ^ 29) m k
      let carries : Nat → Bool := fun w => u.hasDie (w / 2 ^ 29) = true → u.reaches (reqDie r) (w / 2 ^ 29) = true
      (List.range' (off / 2) (n / 2 + 2)).all (fun w => !touches n w || decide (carries w ∧ denied .read w = none)) = true ∧ touches n w ∧
      (tfind u.ecc (w / 4) = some .double ∨ tfind u.ecc (w / 4) = some .poison))) ∧
    (let s : State := own
     let r : Requester := .ep 0
     let m : Master := { cls := reqClass r }
     let off : Nat := 0
     let at_ : Nat := 0
     let u := s.at at_
     let bytes : List (Option Byte) := [some 1]
     let n := bytes.length
     0 < n ∧
     (let up : Nat → Bool := fun (n : Nat) => u.hasReq r = true ∧ u.cellarUp r = true ∧ off + n ≤ 2 ^ 33
      up n ∧
      (let w : Nat := 0
       let touches : Nat → Nat → Bool := fun (n w : Nat) => 2 * w < off + n ∧ off < 2 * w + 2
       let denied := fun (k : Kind) (w : Nat) => u.ledgerCheck 0 (w / 2 ^ 29) (w % 2 ^ 29) m k
       let carries : Nat → Bool := fun w => u.hasDie (w / 2 ^ 29) = true → u.reaches (reqDie r) (w / 2 ^ 29) = true
       (List.range' (off / 2) (n / 2 + 2)).all (fun x => !touches n x || decide (carries x)) = true ∧ touches n w ∧
       (List.range' (off / 2) (w - off / 2)).all (fun x => decide (touches n x → denied .write x = none)) = true ∧
       ((match denied .write w with
         | some (t, c) => decide (True)
         | _ => false) = true)))) ∧
    (let s : State := own
     let r : Requester := .ep 0
     let m : Master := { cls := reqClass r }
     let off : Nat := 200*65536
     let at_ : Nat := 0
     let u := s.at at_
     let denied := fun (k : Kind) (w : Nat) => u.ledgerCheck 0 (w / 2 ^ 29) (w % 2 ^ 29) m k
     let carries : Nat → Bool := fun w => u.hasDie (w / 2 ^ 29) = true → u.reaches (reqDie r) (w / 2 ^ 29) = true
     Memory.wf u.mem = true ∧
     (let bytes : List (Option Byte) := [some 1]
      let n := bytes.length
      let touches : Nat → Nat → Bool := fun (n w : Nat) => 2 * w < off + n ∧ off < 2 * w + 2
      let up : Nat → Bool := fun (n : Nat) => u.hasReq r = true ∧ u.cellarUp r = true ∧ off + n ≤ 2 ^ 33
      up n ∧
      (List.range' (off / 2) (n / 2 + 2)).all (fun w => !touches n w || decide (carries w ∧ denied .write w = none ∧ tfind u.ecc (w / 4) = none)) = true)) := by
  refine ⟨?_, ?_, ?_, ?_, ?_, ?_, ?_, ?_⟩ <;> decide +kernel

/-- The hypotheses of Obligations.PatrolAndRowRepair can be met. -/
theorem witness_PatrolAndRowRepair :
    (let s : State := ptr
     let d : Nat := 0
     s.hasDie d = true ∧
     (let b : Nat := 1
      b < 64 ∧
      (let at_ : Nat := 0
       let u := s.at at_
       let on : Bool := u.flag (dieAddr d R.ST_ECCCFG) 8 = true ∧ u.bankOn d (lineAddr b 0 0) = true ∧ (∀ e ∈ u.repairing, e.1 = d → e.2.1 ≠ b)
       (¬ on)))) ∧
    (let s : State := ptr
     let d : Nat := 0
     s.hasDie d = true ∧
     (let b : Nat := 1
      b < 64 ∧
      (let at_ : Nat := 0
       let u := s.at at_
       let on : Bool := u.flag (dieAddr d R.ST_ECCCFG) 8 = true ∧ u.bankOn d (lineAddr b 0 0) = true ∧ (∀ e ∈ u.repairing, e.1 = d → e.2.1 ≠ b)
       (¬ on) ∧
       (let up : Option (Nat × Nat × Nat) := some (0, 0, 0)
        ((match up with
          | some (wa, kind, bit) => decide (True)
          | _ => false) = true))))) ∧
    (let s : State := base
     let d : Nat := 0
     s.hasDie d = true ∧
     (let b : Nat := 0
      b < 64 ∧
      (let at_ : Nat := 0
       let u := s.at at_
       let line := tget u.patrol (d * 64 + b) 0
       let key := fun (i : Nat) => pkgWord d (lineAddr b line (4 * i)) / 4
       let on : Bool := u.flag (dieAddr d R.ST_ECCCFG) 8 = true ∧ u.bankOn d (lineAddr b 0 0) = true ∧ (∀ e ∈ u.repairing, e.1 = d → e.2.1 ≠ b)
       on ∧ tsorted u.regs = true ∧ tsorted u.ecc = true ∧ tsorted u.patrol = true ∧ line < 262144 ∧
       (List.range (8)).all (fun i => decide (tfind u.ecc (key i) ≠ some .multi)) = true))) ∧
    (let s : State := ptl
     let d : Nat := 0
     s.hasDie d = true ∧
     (let b : Nat := 1
      b < 64 ∧
      (let used := dieAddr d (R.ST_REPAIR + 4 * b)
       let at_ : Nat := 0
       let u := s.at at_
       (∀ e ∈ u.repairing, e.1 = d → e.2.1 ≠ b) ∧ u.fld used 5 0 < 32 ∧
       ((match u.repairQ.find? (fun e => decide (e.1 = d ∧ e.2.1 = b)) with
         | some (d', b', row) => decide ((d' = d) ∧ (b' = b))
         | _ => false) = true)))) ∧
    (let s : State := fullb
     let d : Nat := 0
     s.hasDie d = true ∧
     (let b : Nat := 1
      b < 64 ∧
      (let used := dieAddr d (R.ST_REPAIR + 4 * b)
       let at_ : Nat := 0
       let u := s.at at_
       (∀ e ∈ u.repairing, e.1 = d → e.2.1 ≠ b) ∧ 32 ≤ u.fld used 5 0 ∧ tsorted u.regs = true ∧
       ((match u.repairQ.find? (fun e => decide (e.1 = d ∧ e.2.1 = b)) with
         | some (d', b', row) => decide ((d' = d) ∧ (b' = b))
         | _ => false) = true)))) ∧
    (let s : State := ptr
     let d : Nat := 0
     s.hasDie d = true ∧
     (let b : Nat := 1
      b < 64 ∧
      (let at_ : Nat := 0
       let u := s.at at_
       tsorted u.regs = true ∧ tsorted u.ecc = true ∧
       ((match u.repairing.find? (fun e => decide (e.1 = d ∧ e.2.1 = b)) with
         | some (d', b', row) => decide (
             d' = d ∧ b' = b ∧
             (let inRow : Nat → Bool := fun k => k * 4 / 2 ^ 29 = d ∧ bankOf (k * 4 % 2 ^ 29) = b ∧ rowOf (k * 4 % 2 ^ 29) = row
              u.ecc.all (fun e => decide (inRow e.1 → e.2 ≠ .multi)) = true))
         | _ => false) = true)))) := by
  refine ⟨?_, ?_, ?_, ?_, ?_, ?_⟩ <;> decide +kernel

/-- The hypotheses of Obligations.RingsAndDoorbells can be met. -/
theorem witness_RingsAndDoorbells :
    (let s : State := en base
     s.eps.length = 2 ∧
     (let at_ : Nat := 0
      let u := s.at at_
      tsorted u.regs = true ∧ u.eps = s.eps ∧
      (let n : Nat := 0
       n < 8))) := by
  decide +kernel

/-- The hypotheses of Obligations.EndpointResetsAndLinks can be met. -/
theorem witness_EndpointResetsAndLinks :
    (let s : State := base
     s.eps.length = 2 ∧
     (let e : Nat := 0
      e < s.part.endpoints ∧
      (let at_ : Nat := 0
       let u := s.at at_
       let x := u.ep e
       tsorted u.regs = true ∧ u.eps = s.eps ∧ u.part = s.part ∧ x.d3hot = false))) ∧
    (let s : State := { (en base).modEp 0 (fun x => { x with d3hot := true }) with flying := fl2 }
     s.eps.length = 2 ∧
     (let e : Nat := 0
      e < s.part.endpoints ∧
      (let at_ : Nat := 0
       let u := s.at at_
       let x := u.ep e
       tsorted u.regs = true ∧ u.eps = s.eps ∧ u.part = s.part ∧ x.d3hot = true))) ∧
    (let s : State := base
     s.eps.length = 2 ∧
     (let e : Nat := 0
      e < s.part.endpoints ∧
      (let at_ : Nat := 0
       let u := s.at at_
       tsorted u.regs = true ∧ u.eps = s.eps ∧ u.part = s.part ∧
       (let dur : Nat := 10
        dur < 1000)))) ∧
    (let s : State := { State.reset with keeper := { ({} : Keeper) with phase := .off } }
     s.eps.length = 2 ∧
     (let e : Nat := 0
      e < s.part.endpoints ∧
      (let at_ : Nat := 0
       let u := s.at at_
       tsorted u.regs = true ∧ u.eps = s.eps ∧ u.part = s.part ∧ u.keeper.phase ≠ .on ∧
       (let dur : Nat := 1000
        1000 ≤ dur)))) ∧
    (let s : State := base
     s.eps.length = 2 ∧
     (let e : Nat := 0
      e < s.part.endpoints ∧
      (let at_ : Nat := 0
       let u := s.at at_
       tsorted u.regs = true ∧ u.eps = s.eps ∧ u.part = s.part ∧ u.keeper.phase = .on ∧
       (let dur : Nat := 1000
        1000 ≤ dur)))) ∧
    (let s : State := (en base).modEp 0 (fun x => { x with perst := true, link := false })
     s.eps.length = 2 ∧
     (let e : Nat := 0
      e < s.part.endpoints ∧
      (let at_ : Nat := 0
       let u := s.at at_
       let x := u.ep e
       tsorted u.regs = true ∧ u.eps = s.eps ∧ u.part = s.part ∧ (x.perst = true ∨ u.keeper.phase ≠ .on)))) ∧
    (let s : State := base
     s.eps.length = 2 ∧
     (let e : Nat := 0
      e < s.part.endpoints ∧
      (let at_ : Nat := 0
       let u := s.at at_
       let x := u.ep e
       tsorted u.regs = true ∧ u.eps = s.eps ∧ u.part = s.part ∧ x.perst = false ∧ u.keeper.phase = .on))) ∧
    (let s : State := base
     s.eps.length = 2 ∧
     (let e : Nat := 0
      e < s.part.endpoints ∧
      (let at_ : Nat := 0
       let u := s.at at_
       tsorted u.regs = true ∧ u.eps = s.eps ∧ u.part = s.part ∧
       (let t : State := base
        (∀ f ∈ t.flying, f.why ≠ .start))))) := by
  refine ⟨?_, ?_, ?_, ?_, ?_, ?_, ?_, ?_⟩ <;> decide +kernel

/-- The hypotheses of Obligations.CountsArePostedAsEvents can be met. -/
theorem witness_CountsArePostedAsEvents :
    (let s : State := wb
     let at_ : Nat := 0
     let u := s.at at_
     let b : Nat := 0
     ((match u.berth b with
       | some x => decide (
           x.id = b ∧
           (let du := x.uLines - x.sumU
            let dl := x.lateLines - x.sumL
            let due : Bool := du + dl ≠ 0 ∧ (x.sumAt = 0 ∨ x.sumAt + 100000000 ≤ u.htime)
            (¬ due)))
       | _ => false) = true)) ∧
    (let s : State := ua
     let at_ : Nat := 0
     let u := s.at at_
     let b : Nat := 0
     ((match u.berth b with
       | some x => decide (
           x.id = b ∧
           (let du := x.uLines - x.sumU
            let dl := x.lateLines - x.sumL
            let due : Bool := du + dl ≠ 0 ∧ (x.sumAt = 0 ∨ x.sumAt + 100000000 ≤ u.htime)
            due))
       | _ => false) = true)) ∧
    (let s : State := base
     let d : Nat := 0
     s.hasDie d = true ∧
     (let at_ : Nat := 0
      let u := s.at at_
      let n := u.reg (dieAddr d R.LG_VLCOUNT)
      let last := (tfind u.denied d).getD (0, 0)
      let due : Bool := n ≠ last.1 ∧ (tfind u.denied d = none ∨ last.2 + 1000000 ≤ u.htime)
      (¬ due))) ∧
    (let s : State := le_ 5 base
     let d : Nat := 0
     s.hasDie d = true ∧
     (let at_ : Nat := 0
      let u := s.at at_
      let n := u.reg (dieAddr d R.LG_VLCOUNT)
      let last := (tfind u.denied d).getD (0, 0)
      let due : Bool := n ≠ last.1 ∧ (tfind u.denied d = none ∨ last.2 + 1000000 ≤ u.htime)
      due)) := by
  refine ⟨?_, ?_, ?_, ?_⟩ <;> decide +kernel

/-- The hypotheses of Obligations.HostCommandsAreFetchedAndAnswered can be met. -/
theorem witness_HostCommandsAreFetchedAndAnswered :
    (let s : State := go base
     let c : Cmd := opc 0x01 ({ cm 0 [] with ep := 1 })
     let at_ : Nat := 0
     let u := s.at at_
     u.mayFetch c = false ∧
     (let w : BootIn := {}
      let cmds := [(0x01, Instr.echo c at_), (0x02, .profileQuery c at_), (0x03, .profileSelect c w at_), (0x04, .clockConfig c at_), (0x05, .faultLogRead c at_), (0x06, .measureRead c at_), (0x07, .mcReload c at_), (0x10, .berthCreate c at_), (0x11, .berthDestroy c at_), (0x12, .segDefine c at_), (0x13, .cellarWrite c at_), (0x14, .cellarRead c at_), (0x15, .pageShare c at_), (0x18, .berthStart c at_), (0x19, .berthPause c at_), (0x1A, .berthResume c at_), (0x1B, .berthMigrate c at_), (0x1C, .berthStatus c at_), (0x20, .streamBind c at_), (0x21, .streamUnbind c at_), (0x22, .inputBind c at_), (0x28, .quayConfig c at_), (0x29, .quayInject c at_), (0x2A, .macsecKey c at_), (0x30, .powerSet c at_), (0x31, .thermalPolicy c at_), (0x38, .selftestPolicy c at_), (0x39, .selftestReport c at_)]
      let p : Nat × Instr := (0x01, Instr.echo c at_)
      p ∈ cmds)) ∧
    (let s : State := go base
     let c : Cmd := opc 0x7F (cm 0 [])
     let at_ : Nat := 0
     let u := s.at at_
     u.mayFetch c = true ∧
     (let w : BootIn := {}
      let cmds := [(0x01, Instr.echo c at_), (0x02, .profileQuery c at_), (0x03, .profileSelect c w at_), (0x04, .clockConfig c at_), (0x05, .faultLogRead c at_), (0x06, .measureRead c at_), (0x07, .mcReload c at_), (0x10, .berthCreate c at_), (0x11, .berthDestroy c at_), (0x12, .segDefine c at_), (0x13, .cellarWrite c at_), (0x14, .cellarRead c at_), (0x15, .pageShare c at_), (0x18, .berthStart c at_), (0x19, .berthPause c at_), (0x1A, .berthResume c at_), (0x1B, .berthMigrate c at_), (0x1C, .berthStatus c at_), (0x20, .streamBind c at_), (0x21, .streamUnbind c at_), (0x22, .inputBind c at_), (0x28, .quayConfig c at_), (0x29, .quayInject c at_), (0x2A, .macsecKey c at_), (0x30, .powerSet c at_), (0x31, .thermalPolicy c at_), (0x38, .selftestPolicy c at_), (0x39, .selftestReport c at_)]
      (∀ q ∈ cmds, c.opcode ≠ q.1) ∧
      (let p : Nat × Instr := (0x01, Instr.echo c at_)
       p ∈ cmds))) ∧
    (let s : State := go base
     let c : Cmd := opc 0x02 (cm 0 [])
     let at_ : Nat := 0
     let u := s.at at_
     u.mayFetch c = true ∧
     (let w : BootIn := {}
      let cmds := [(0x01, Instr.echo c at_), (0x02, .profileQuery c at_), (0x03, .profileSelect c w at_), (0x04, .clockConfig c at_), (0x05, .faultLogRead c at_), (0x06, .measureRead c at_), (0x07, .mcReload c at_), (0x10, .berthCreate c at_), (0x11, .berthDestroy c at_), (0x12, .segDefine c at_), (0x13, .cellarWrite c at_), (0x14, .cellarRead c at_), (0x15, .pageShare c at_), (0x18, .berthStart c at_), (0x19, .berthPause c at_), (0x1A, .berthResume c at_), (0x1B, .berthMigrate c at_), (0x1C, .berthStatus c at_), (0x20, .streamBind c at_), (0x21, .streamUnbind c at_), (0x22, .inputBind c at_), (0x28, .quayConfig c at_), (0x29, .quayInject c at_), (0x2A, .macsecKey c at_), (0x30, .powerSet c at_), (0x31, .thermalPolicy c at_), (0x38, .selftestPolicy c at_), (0x39, .selftestReport c at_)]
      (∃ q ∈ cmds, c.opcode = q.1) ∧
      (let p : Nat × Instr := (0x01, Instr.echo c at_)
       p ∈ cmds ∧ c.opcode ≠ p.1))) ∧
    (let s : State := { go base with flying := fl2 }
     let c : Cmd := opc 0x03 (raw (raw (cm 0 []) 25 1) 1 1)
     let at_ : Nat := 0
     let u := s.at at_
     u.mayFetch c = true ∧
     (let w : BootIn := {}
      let cmds := [(0x01, Instr.echo c at_), (0x02, .profileQuery c at_), (0x03, .profileSelect c w at_), (0x04, .clockConfig c at_), (0x05, .faultLogRead c at_), (0x06, .measureRead c at_), (0x07, .mcReload c at_), (0x10, .berthCreate c at_), (0x11, .berthDestroy c at_), (0x12, .segDefine c at_), (0x13, .cellarWrite c at_), (0x14, .cellarRead c at_), (0x15, .pageShare c at_), (0x18, .berthStart c at_), (0x19, .berthPause c at_), (0x1A, .berthResume c at_), (0x1B, .berthMigrate c at_), (0x1C, .berthStatus c at_), (0x20, .streamBind c at_), (0x21, .streamUnbind c at_), (0x22, .inputBind c at_), (0x28, .quayConfig c at_), (0x29, .quayInject c at_), (0x2A, .macsecKey c at_), (0x30, .powerSet c at_), (0x31, .thermalPolicy c at_), (0x38, .selftestPolicy c at_), (0x39, .selftestReport c at_)]
      let p : Nat × Instr := (0x03, Instr.profileSelect c w at_)
      p ∈ cmds ∧
      (let restarts := p.1 = 0x03 ∧ c.b 25 % 2 = 1
       c.opcode = p.1 ∧ u.mayStart p.1 c = false ∧ restarts))) ∧
    (let s : State := { go base with flying := fl2 }
     let c : Cmd := opc 0x01 (raw (cm 0 []) 1 1)
     let at_ : Nat := 0
     let u := s.at at_
     u.mayFetch c = true ∧
     (let w : BootIn := {}
      let cmds := [(0x01, Instr.echo c at_), (0x02, .profileQuery c at_), (0x03, .profileSelect c w at_), (0x04, .clockConfig c at_), (0x05, .faultLogRead c at_), (0x06, .measureRead c at_), (0x07, .mcReload c at_), (0x10, .berthCreate c at_), (0x11, .berthDestroy c at_), (0x12, .segDefine c at_), (0x13, .cellarWrite c at_), (0x14, .cellarRead c at_), (0x15, .pageShare c at_), (0x18, .berthStart c at_), (0x19, .berthPause c at_), (0x1A, .berthResume c at_), (0x1B, .berthMigrate c at_), (0x1C, .berthStatus c at_), (0x20, .streamBind c at_), (0x21, .streamUnbind c at_), (0x22, .inputBind c at_), (0x28, .quayConfig c at_), (0x29, .quayInject c at_), (0x2A, .macsecKey c at_), (0x30, .powerSet c at_), (0x31, .thermalPolicy c at_), (0x38, .selftestPolicy c at_), (0x39, .selftestReport c at_)]
      let p : Nat × Instr := (0x01, Instr.echo c at_)
      p ∈ cmds ∧
      (let restarts := p.1 = 0x03 ∧ c.b 25 % 2 = 1
       c.opcode = p.1 ∧ u.mayStart p.1 c = false ∧ (¬ restarts)))) ∧
    (let s : State := go base
     let c : Cmd := opc 0x01 (raw (cm 0 []) 20 1)
     let at_ : Nat := 0
     let u := s.at at_
     let w : BootIn := {}
     let cmds := [(0x01, Instr.echo c at_), (0x02, .profileQuery c at_), (0x03, .profileSelect c w at_), (0x04, .clockConfig c at_), (0x05, .faultLogRead c at_), (0x06, .measureRead c at_), (0x07, .mcReload c at_), (0x10, .berthCreate c at_), (0x11, .berthDestroy c at_), (0x12, .segDefine c at_), (0x13, .cellarWrite c at_), (0x14, .cellarRead c at_), (0x15, .pageShare c at_), (0x18, .berthStart c at_), (0x19, .berthPause c at_), (0x1A, .berthResume c at_), (0x1B, .berthMigrate c at_), (0x1C, .berthStatus c at_), (0x20, .streamBind c at_), (0x21, .streamUnbind c at_), (0x22, .inputBind c at_), (0x28, .quayConfig c at_), (0x29, .quayInject c at_), (0x2A, .macsecKey c at_), (0x30, .powerSet c at_), (0x31, .thermalPolicy c at_), (0x38, .selftestPolicy c at_), (0x39, .selftestReport c at_)]
     let p : Nat × Instr := (0x01, Instr.echo c at_)
     p ∈ cmds ∧ u.canFetch p.1 c = true ∧ reservedSet p.1 c = true) ∧
    (let s : State := go base
     let c : Cmd := opc 0x02 { cm 128 [] with memOk := false }
     c.memOk = false ∧
     (let at_ : Nat := 0
      let u := s.at at_
      let w : BootIn := {}
      let cmds := [(0x01, Instr.echo c at_), (0x02, .profileQuery c at_), (0x03, .profileSelect c w at_), (0x04, .clockConfig c at_), (0x05, .faultLogRead c at_), (0x06, .measureRead c at_), (0x07, .mcReload c at_), (0x10, .berthCreate c at_), (0x11, .berthDestroy c at_), (0x12, .segDefine c at_), (0x13, .cellarWrite c at_), (0x14, .cellarRead c at_), (0x15, .pageShare c at_), (0x18, .berthStart c at_), (0x19, .berthPause c at_), (0x1A, .berthResume c at_), (0x1B, .berthMigrate c at_), (0x1C, .berthStatus c at_), (0x20, .streamBind c at_), (0x21, .streamUnbind c at_), (0x22, .inputBind c at_), (0x28, .quayConfig c at_), (0x29, .quayInject c at_), (0x2A, .macsecKey c at_), (0x30, .powerSet c at_), (0x31, .thermalPolicy c at_), (0x38, .selftestPolicy c at_), (0x39, .selftestReport c at_)]
      let p : Nat × Instr := (0x02, Instr.profileQuery c at_)
      p ∈ cmds ∧ u.canFetch p.1 c = true ∧ reservedSet p.1 c = false ∧ scopeD p.1 = true)) ∧
    (let s : State := halted (go base)
     let c : Cmd := opc 0x10 (cm 0 [])
     let at_ : Nat := 0
     let u := s.at at_
     let v := u.fetched c
     let w : BootIn := {}
     let cmds := [(0x01, Instr.echo c at_), (0x02, .profileQuery c at_), (0x03, .profileSelect c w at_), (0x04, .clockConfig c at_), (0x05, .faultLogRead c at_), (0x06, .measureRead c at_), (0x07, .mcReload c at_), (0x10, .berthCreate c at_), (0x11, .berthDestroy c at_), (0x12, .segDefine c at_), (0x13, .cellarWrite c at_), (0x14, .cellarRead c at_), (0x15, .pageShare c at_), (0x18, .berthStart c at_), (0x19, .berthPause c at_), (0x1A, .berthResume c at_), (0x1B, .berthMigrate c at_), (0x1C, .berthStatus c at_), (0x20, .streamBind c at_), (0x21, .streamUnbind c at_), (0x22, .inputBind c at_), (0x28, .quayConfig c at_), (0x29, .quayInject c at_), (0x2A, .macsecKey c at_), (0x30, .powerSet c at_), (0x31, .thermalPolicy c at_), (0x38, .selftestPolicy c at_), (0x39, .selftestReport c at_)]
     let p : Nat × Instr := (0x10, Instr.berthCreate c at_)
     p ∈ cmds ∧
     (let restarts := p.1 = 0x03 ∧ c.b 25 % 2 = 1
      u.canFetch p.1 c = true ∧ reservedSet p.1 c = false ∧ (scopeD p.1 = false ∨ c.memOk = true) ∧ v.noDeputy p.1 c = true ∧ (¬ restarts))) ∧
    (let u : State := go base
     u.eps.length = 2 ∧
     (let c : Cmd := opc 0x01 (cm 0 [])
      c.ep < 2 ∧ c.ring < 8 ∧ (u.ep c.ep).rings.length = 8 ∧
      (let q := ringBase c.ep + 0x100 + 0x20 * c.ring
       let size := u.fld (q + 0x18) 12 0
       let status : Nat := 0
       let result : Nat := 7
       let data : List Byte := []
       let t := u.answer c status result data
       let ring := fun (t : State) => (t.ep c.ep).rings.getD c.ring {}
       let next := ((ring u).cqTail + 1) % size
       let room := size ≠ 0 ∧ next ≠ (ring u).cqHead % size ∧ (ring u).waiting = []
       room))) ∧
    (let u : State := go base
     u.eps.length = 2 ∧
     (let c : Cmd := opc 0x01 ({ cm 0 [] with ep := 1 })
      c.ep < 2 ∧ c.ring < 8 ∧ (u.ep c.ep).rings.length = 8 ∧
      (let q := ringBase c.ep + 0x100 + 0x20 * c.ring
       let size := u.fld (q + 0x18) 12 0
       let status : Nat := 0
       let result : Nat := 7
       let data : List Byte := []
       let t := u.answer c status result data
       let ring := fun (t : State) => (t.ep c.ep).rings.getD c.ring {}
       let next := ((ring u).cqTail + 1) % size
       let room := size ≠ 0 ∧ next ≠ (ring u).cqHead % size ∧ (ring u).waiting = []
       (¬ room)))) ∧
    (let c : Cmd := opc 0x01 ({ cm 0 [] with ep := 2 })
     c.ep = 2) ∧
    (let c : Cmd := opc 0x01 ({ cm 0 [] with ep := 3 })
     2 < c.ep) := by
  refine ⟨?_, ?_, ?_, ?_, ?_, ?_, ?_, ?_, ?_, ?_, ?_, ?_⟩ <;> decide +kernel

/-- The hypotheses of Obligations.InformationCommandsAnswer can be met. -/
theorem witness_InformationCommandsAnswer :
    (let s : State := go base
     let c : Cmd := opc 0x01 (cm 0 [1,2,3,4,5,6,7,8])
     let at_ : Nat := 0
     let u := s.at at_
     let v := u.fetched c
     u.takes 0x01 c = true ∧ v.noDeputy 0x01 c = false) ∧
    (let s : State := go base
     let c : Cmd := opc 0x02 (cm 128 [0])
     let n := c.b 24
     n ≤ 3 ∧ 128 ≤ c.dlen ∧
     (let at_ : Nat := 0
      let u := s.at at_
      let v := u.fetched c
      u.takes 0x02 c = true ∧ v.noDeputy 0x02 c = false)) ∧
    (let s : State := go (ptab base)
     let c : Cmd := opc 0x03 (cm 0 [])
     let n := c.b 24
     n ≤ 3 ∧
     (let at_ : Nat := 0
      let u := s.at at_
      let v := u.fetched c
      u.takes 0x03 c = true ∧ v.noDeputy 0x03 c = false ∧ v.hasProfile n = true ∧ tsorted v.regs = true)) ∧
    (let s : State := go base
     let c : Cmd := opc 0x04 (cm 0 [1,2,3,4,5,6,7,8])
     let at_ : Nat := 0
     let u := s.at at_
     let v := u.fetched c
     u.takes 0x04 c = true ∧ v.noDeputy 0x04 c = false) ∧
    (let s : State := go base
     let c : Cmd := opc 0x04 (cm 0 [1,2,3,4,5,6,7,8])
     let at_ : Nat := 0
     let u := s.at at_
     let v := u.fetched c
     u.takes 0x04 c = true ∧ v.noDeputy 0x04 c = false ∧ v.htime < c.p 28 8 ∧ v.switches = []) ∧
    (let s : State := go base
     let c : Cmd := opc 0x04 (cm 0 [])
     let at_ : Nat := 0
     let u := s.at at_
     let v := u.fetched c
     u.takes 0x04 c = true ∧ v.noDeputy 0x04 c = false ∧ c.p 28 8 ≤ v.htime) ∧
    (let s : State := go base
     let c : Cmd := opc 0x05 (cm 0 [])
     let at_ : Nat := 0
     let u := s.at at_
     let v := u.fetched c
     u.takes 0x05 c = true ∧ v.noDeputy 0x05 c = false) ∧
    (let s : State := go wb
     let c : Cmd := opc 0x1C (cm 128 [0])
     64 ≤ c.dlen ∧
     (let at_ : Nat := 0
      let u := s.at at_
      let v := u.fetched c
      u.takes 0x1C c = true ∧ v.noDeputy 0x1C c = false ∧ c.berth < v.part.berthIds ∧
      ((match v.berth c.berth with
        | some x => decide (True)
        | _ => false) = true))) ∧
    (let s : State := go base
     let c : Cmd := opc 0x06 (cm 0 [])
     let n := c.b 24
     let l := (List.range 16).filter (fun k => bitOf (c.p 26 2) k)
     48 * l.length ≤ c.dlen ∧
     (let at_ : Nat := 0
      let u := s.at at_
      let v := u.fetched c
      u.takes 0x06 c = true ∧ v.noDeputy 0x06 c = false ∧ v.hasDie n = true)) ∧
    (let s : State := go base
     let c : Cmd := opc 0x39 (cm 0 [])
     let n := c.b 24
     let at_ : Nat := 0
     let u := s.at at_
     let v := u.fetched c
     u.takes 0x39 c = true ∧ v.noDeputy 0x39 c = false ∧ v.hasDie n = true) := by
  refine ⟨?_, ?_, ?_, ?_, ?_, ?_, ?_, ?_, ?_, ?_⟩ <;> decide +kernel

/-- The hypotheses of Obligations.BerthCommandsTakeEffect can be met. -/
theorem witness_BerthCommandsTakeEffect :
    (let mine := fun (l : Nat) (z : Nat) => (List.range z).map (· + l)
     let s : State := go base
     let c : Cmd := opc 0x10 (cr 0 0 0 0 3 5)
     let d := c.b 24 % 8
     let own := c.p 28 2
     (c.b 26 = 0 ∨ 8 ≤ c.b 26 ∧ c.b 26 ≤ 32) ∧ (bitOf (c.b 27) 3 = true → c.p 40 2 ≠ 0) ∧ c.p 30 2 < 1024 ∧ c.p 32 2 < 1024 ∧ c.p 34 2 < 1024 ∧
     0 < own ∧
     (let at_ : Nat := 0
      let u := s.at at_
      let v := u.fetched c
      let fb := (if bitOf (c.b 27) 2 then 2 else 1) * (fbSize v.prof.cls (bitOf (c.b 27) 0)).1
      u.takes 0x10 c = true ∧ v.noDeputy 0x10 c = false ∧ c.berth < v.part.berthIds ∧ v.hasDie d = true ∧ v.berth c.berth = none ∧
      own + fb + 1 ≤ v.prof.cap ∧ tsorted v.groups = true ∧ tsorted v.pages = true ∧
      ((match v.createDock c with
        | .inl k => decide (
            ((match v.firstRun d own [] with
              | some a => decide (
                  ((match v.firstRun d fb (mine a own) with
                    | some b => decide (
                        ((match v.firstRun d 1 (mine a own ++ mine b fb) with
                          | some h => decide (
                              ((match (v.slotsIn d k 0).head? with
                                | some n => decide (True)
                                | _ => false) = true))
                          | _ => false) = true))
                    | _ => false) = true))
              | _ => false) = true))
        | _ => false) = true))) ∧
    (let s : State := bst { zg z1 with started := false }
     let c : Cmd := opc 0x11 (cb [])
     let at_ : Nat := 0
     let u := s.at at_
     let v := u.fetched c
     let does := fun (op : Nat) => u.takes op c = true ∧ v.noDeputy op c = false
     c.berth < v.part.berthIds ∧ does 0x11 ∧ tsorted v.berths = true ∧
     ((match v.berth c.berth with
       | some x => decide ((x.id = c.berth))
       | _ => false) = true)) ∧
    (let s : State := bst { z1 with started := false }
     let c : Cmd := opc 0x18 (cb [])
     let at_ : Nat := 0
     let u := s.at at_
     let v := u.fetched c
     let does := fun (op : Nat) => u.takes op c = true ∧ v.noDeputy op c = false
     c.berth < v.part.berthIds ∧ does 0x18 ∧ v.startHeld = false ∧ c.p 24 8 ≤ v.htime % 2 ^ 64 ∧
     ((match v.berth c.berth with
       | some x => decide (
           x.id = c.berth ∧ x.stateNo = 0 ∧ v.berthDown x = [] ∧ bitsOf (x.reg R.BM_GOVCFG) 0 0 = 0 ∧
           (let t := v.startBerth x
            ((match t.berth c.berth with
              | some y => decide ((y.parked = false) ∧ (y.parkReq = none))
              | _ => false) = true)))
       | _ => false) = true)) ∧
    (let s : State := bst { z1 with started := false }
     let c : Cmd := opc 0x18 (cb [])
     let at_ : Nat := 0
     let u := s.at at_
     let v := u.fetched c
     let does := fun (op : Nat) => u.takes op c = true ∧ v.noDeputy op c = false
     c.berth < v.part.berthIds ∧ does 0x18 ∧ v.startHeld = false ∧ c.p 24 8 ≤ v.htime % 2 ^ 64 ∧
     ((match v.berth c.berth with
       | some x => decide (
           x.id = c.berth ∧ x.stateNo = 0 ∧ v.berthDown x = [] ∧
           (let t := v.startBerth x
            ((match t.berth c.berth with
              | some y => decide (
                  y.parked = false ∧ y.parkReq = none ∧ y.htimeMode = false)
              | _ => false) = true)))
       | _ => false) = true)) ∧
    (let s : State := bst { zg z1 with started := false }
     let c : Cmd := opc 0x18 (cb [])
     let at_ : Nat := 0
     let u := s.at at_
     let v := u.fetched c
     let does := fun (op : Nat) => u.takes op c = true ∧ v.noDeputy op c = false
     c.berth < v.part.berthIds ∧ does 0x18 ∧ v.startHeld = false ∧ c.p 24 8 ≤ v.htime % 2 ^ 64 ∧
     ((match v.berth c.berth with
       | some x => decide (
           x.id = c.berth ∧ x.stateNo = 0 ∧ v.berthDown x = [] ∧
           (let t := v.startBerth x
            ((match t.berth c.berth with
              | some y => decide (
                  y.parked = false ∧ y.parkReq = none ∧ y.htimeMode = true)
              | _ => false) = true)))
       | _ => false) = true)) ∧
    (let s : State := bst z1
     let c : Cmd := opc 0x19 (cb [])
     let at_ : Nat := 0
     let u := s.at at_
     let v := u.fetched c
     let does := fun (op : Nat) => u.takes op c = true ∧ v.noDeputy op c = false
     c.berth < v.part.berthIds ∧ does 0x19 ∧
     ((match v.berth c.berth with
       | some x => decide ((x.id = c.berth) ∧ (x.stateNo = 1))
       | _ => false) = true)) ∧
    (let s : State := bst { zg z1 with freezes := [.pause] }
     let c : Cmd := opc 0x19 (cb [])
     let at_ : Nat := 0
     let u := s.at at_
     let v := u.fetched c
     let does := fun (op : Nat) => u.takes op c = true ∧ v.noDeputy op c = false
     c.berth < v.part.berthIds ∧ does 0x19 ∧
     ((match v.berth c.berth with
       | some x => decide ((x.id = c.berth) ∧ (x.stateNo = 2))
       | _ => false) = true)) ∧
    (let s : State := bst { zg z1 with freezes := [.pause] }
     let c : Cmd := opc 0x1A (cb [])
     let at_ : Nat := 0
     let u := s.at at_
     let v := u.fetched c
     let does := fun (op : Nat) => u.takes op c = true ∧ v.noDeputy op c = false
     c.berth < v.part.berthIds ∧ does 0x1A ∧
     ((match v.berth c.berth with
       | some x => decide ((x.id = c.berth) ∧ (x.stateNo = 2))
       | _ => false) = true)) ∧
    (let s : State := bst0 { z1 with parked := true }
     let c : Cmd := opc 0x1B (cb [])
     let k := c.b 24
     k < 16 ∧
     (let n := c.b 25
      n < 17 ∧
      (let at_ : Nat := 0
       let u := s.at at_
       let v := u.fetched c
       let does := fun (op : Nat) => u.takes op c = true ∧ v.noDeputy op c = false
       c.berth < v.part.berthIds ∧ does 0x1B ∧
       ((match v.berth c.berth with
         | some x => decide (
             x.id = c.berth ∧ v.domain x.die k = 0 ∧ v.slot x.die k n = 0 ∧
             (x.started = false ∨ v.reg (dockAddr x.die k R.MC_VER) = (if x.parked then x.parkVer else v.reg (dockAddr x.die x.dock R.MC_VER))) ∧
             (k = x.dock ∧ x.parked = false ∨ (v.slotsIn x.die k 1).length < v.prof.berths) ∧ x.parked = true)
         | _ => false) = true)))) ∧
    (let s : State := bst { zg z1 with started := false }
     let c : Cmd := opc 0x1B (cb [(3,1),(4,1)])
     let k := c.b 24
     k < 16 ∧
     (let n := c.b 25
      n < 17 ∧
      (let at_ : Nat := 0
       let u := s.at at_
       let v := u.fetched c
       let does := fun (op : Nat) => u.takes op c = true ∧ v.noDeputy op c = false
       c.berth < v.part.berthIds ∧ does 0x1B ∧
       ((match v.berth c.berth with
         | some x => decide (
             x.id = c.berth ∧ v.domain x.die k = 0 ∧ v.slot x.die k n = 0 ∧
             (x.started = false ∨ v.reg (dockAddr x.die k R.MC_VER) = (if x.parked then x.parkVer else v.reg (dockAddr x.die x.dock R.MC_VER))) ∧
             (k = x.dock ∧ x.parked = false ∨ (v.slotsIn x.die k 1).length < v.prof.berths) ∧ x.parked = false)
         | _ => false) = true)))) := by
  refine ⟨?_, ?_, ?_, ?_, ?_, ?_, ?_, ?_, ?_, ?_⟩ <;> decide +kernel

set_option maxRecDepth 20000 in
/-- The hypotheses of Obligations.PageCommandsTakeEffect can be met. -/
theorem witness_PageCommandsTakeEffect :
    (let s : State := bst z1
     let c : Cmd := opc 0x12 (sg 3 7 100 (200*32768+1))
     let z := segDesc c
     let good := z.base % 64 = 0 ∧ z.base + z.limit < 2 ^ 29 ∧ ¬ (z.shared = true ∧ z.w = true)
     (¬ good) ∧
     (let at_ : Nat := 0
      let u := s.at at_
      let v := u.fetched c
      let does := fun (op : Nat) => u.takes op c = true ∧ v.noDeputy op c = false
      c.berth < v.part.berthIds ∧ does 0x12 ∧
      ((match v.berth c.berth with
        | some x => decide ((x.id = c.berth))
        | _ => false) = true))) ∧
    (let s : State := bst z1
     let c : Cmd := opc 0x12 (sg 3 5 100 (300*32768))
     let z := segDesc c
     let good := z.base % 64 = 0 ∧ z.base + z.limit < 2 ^ 29 ∧ ¬ (z.shared = true ∧ z.w = true)
     good ∧
     (let at_ : Nat := 0
      let u := s.at at_
      let v := u.fetched c
      let does := fun (op : Nat) => u.takes op c = true ∧ v.noDeputy op c = false
      c.berth < v.part.berthIds ∧ does 0x12 ∧
      ((match v.berth c.berth with
        | some x => decide (
            x.id = c.berth ∧
            (let owned : Bool := (List.range' (z.base / 32768) ((z.base + z.limit) / 32768 + 1 - z.base / 32768)).all (fun p => v.pageOf x p || v.pageShared x p)
             (¬ owned)))
        | _ => false) = true))) ∧
    (let s : State := bst z2
     let c : Cmd := opc 0x12 (sg 3 7 100 (200*32768))
     let z := segDesc c
     let good := z.base % 64 = 0 ∧ z.base + z.limit < 2 ^ 29 ∧ ¬ (z.shared = true ∧ z.w = true)
     good ∧
     (let at_ : Nat := 0
      let u := s.at at_
      let v := u.fetched c
      let does := fun (op : Nat) => u.takes op c = true ∧ v.noDeputy op c = false
      c.berth < v.part.berthIds ∧ does 0x12 ∧
      ((match v.berth c.berth with
        | some x => decide (
            x.id = c.berth ∧
            (let owned : Bool := (List.range' (z.base / 32768) ((z.base + z.limit) / 32768 + 1 - z.base / 32768)).all (fun p => v.pageOf x p || v.pageShared x p)
             owned ∧ x.hasTime = false))
        | _ => false) = true))) ∧
    (let s : State := bst z1
     let c : Cmd := opc 0x12 (sg 3 7 100 (200*32768))
     let z := segDesc c
     let good := z.base % 64 = 0 ∧ z.base + z.limit < 2 ^ 29 ∧ ¬ (z.shared = true ∧ z.w = true)
     good ∧
     (let at_ : Nat := 0
      let u := s.at at_
      let v := u.fetched c
      let does := fun (op : Nat) => u.takes op c = true ∧ v.noDeputy op c = false
      c.berth < v.part.berthIds ∧ does 0x12 ∧
      ((match v.berth c.berth with
        | some x => decide (
            x.id = c.berth ∧
            (let owned : Bool := (List.range' (z.base / 32768) ((z.base + z.limit) / 32768 + 1 - z.base / 32768)).all (fun p => v.pageOf x p || v.pageShared x p)
             owned ∧ x.hasTime = true))
        | _ => false) = true))) ∧
    (let s : State := bst z2
     let c : Cmd := opc 0x13 (cwr (202*32768-2) 6)
     let wa := c.p 24 4
     let n := c.dlen / 2
     let fits := c.dlen % 2 = 0 ∧ 2 ≤ c.dlen ∧ c.dlen ≤ 16777216 ∧ wa + n ≤ 2 ^ 29
     let pages := fun (ok : Nat → Bool) => (List.range' (wa / 32768) ((wa + n - 1) / 32768 + 1 - wa / 32768)).all ok = true
     fits ∧
     (let at_ : Nat := 0
      let u := s.at at_
      let v := u.fetched c
      let does := fun (op : Nat) => u.takes op c = true ∧ v.noDeputy op c = false
      c.berth < v.part.berthIds ∧ does 0x13 ∧
      ((match v.berth c.berth with
        | some x => decide ((x.id = c.berth) ∧ (x.stateNo ≠ 1) ∧ (¬ pages (v.pageOf x)))
        | _ => false) = true))) ∧
    (let s : State := bst z2
     let c : Cmd := opc 0x13 (cwr (200*32768) 2)
     let wa := c.p 24 4
     let n := c.dlen / 2
     let fits := c.dlen % 2 = 0 ∧ 2 ≤ c.dlen ∧ c.dlen ≤ 16777216 ∧ wa + n ≤ 2 ^ 29
     let pages := fun (ok : Nat → Bool) => (List.range' (wa / 32768) ((wa + n - 1) / 32768 + 1 - wa / 32768)).all ok = true
     fits ∧
     (let at_ : Nat := 0
      let u := s.at at_
      let v := u.fetched c
      let does := fun (op : Nat) => u.takes op c = true ∧ v.noDeputy op c = false
      c.berth < v.part.berthIds ∧ does 0x13 ∧ Memory.wf v.mem = true ∧
      ((match v.berth c.berth with
        | some x => decide (
            x.id = c.berth ∧
            (let up := v.groupsDown x.die wa n = []
             let rights := fun (k : Kind) => (List.range' wa n).all (fun w => decide (v.ledgerCheck 0 x.die w { cls := 8 } k = none)) = true
             let clean := (List.range' wa n).all (fun w => decide (tfind v.ecc (pkgWord x.die w / 4) = none)) = true
             x.hasTime = false ∧ pages (v.pageOf x) ∧ up ∧ rights .write ∧ clean))
        | _ => false) = true))) ∧
    (let s : State := { bst z2 with pages := [(200, w32 (pageEntry 0 0 false false false false false false false 1)), (201, w32 ownPage)] }
     let c : Cmd := opc 0x13 (cwr (200*32768) 2)
     let wa := c.p 24 4
     let n := c.dlen / 2
     let fits := c.dlen % 2 = 0 ∧ 2 ≤ c.dlen ∧ c.dlen ≤ 16777216 ∧ wa + n ≤ 2 ^ 29
     let pages := fun (ok : Nat → Bool) => (List.range' (wa / 32768) ((wa + n - 1) / 32768 + 1 - wa / 32768)).all ok = true
     fits ∧
     (let at_ : Nat := 0
      let u := s.at at_
      let v := u.fetched c
      let does := fun (op : Nat) => u.takes op c = true ∧ v.noDeputy op c = false
      c.berth < v.part.berthIds ∧ does 0x13 ∧
      ((match v.berth c.berth with
        | some x => decide (
            x.id = c.berth ∧
            (let up := v.groupsDown x.die wa n = []
             x.stateNo ≠ 1 ∧ pages (v.pageOf x) ∧ up ∧
             (let w : Nat := 200*32768
              wa ≤ w ∧ w < wa + n ∧
              (List.range' wa (w - wa)).all (fun z => decide (v.ledgerCheck 0 x.die z { cls := 8 } .write = none)) = true ∧
              ((match v.ledgerCheck 0 x.die w { cls := 8 } .write with
                | some (t, e) => decide (True)
                | _ => false) = true))))
        | _ => false) = true))) ∧
    (let s : State := bst z3
     let c : Cmd := opc 0x13 (cwr (200*32768) 2)
     let wa := c.p 24 4
     let n := c.dlen / 2
     let fits := c.dlen % 2 = 0 ∧ 2 ≤ c.dlen ∧ c.dlen ≤ 16777216 ∧ wa + n ≤ 2 ^ 29
     let pages := fun (ok : Nat → Bool) => (List.range' (wa / 32768) ((wa + n - 1) / 32768 + 1 - wa / 32768)).all ok = true
     fits ∧
     (let at_ : Nat := 0
      let u := s.at at_
      let v := u.fetched c
      let does := fun (op : Nat) => u.takes op c = true ∧ v.noDeputy op c = false
      c.berth < v.part.berthIds ∧ does 0x13 ∧
      ((match v.berth c.berth with
        | some x => decide (
            x.id = c.berth ∧
            (let up := v.groupsDown x.die wa n = []
             let rights := fun (k : Kind) => (List.range' wa n).all (fun w => decide (v.ledgerCheck 0 x.die w { cls := 8 } k = none)) = true
             x.stateNo = 3 ∧ pages (v.pageOf x) ∧ up ∧ rights .write))
        | _ => false) = true))) ∧
    (let s : State := bst z1
     let c : Cmd := opc 0x14 (cwr (202*32768-2) 6)
     let wa := c.p 24 4
     let n := c.dlen / 2
     let fits := c.dlen % 2 = 0 ∧ 2 ≤ c.dlen ∧ c.dlen ≤ 16777216 ∧ wa + n ≤ 2 ^ 29
     let pages := fun (ok : Nat → Bool) => (List.range' (wa / 32768) ((wa + n - 1) / 32768 + 1 - wa / 32768)).all ok = true
     fits ∧
     (let at_ : Nat := 0
      let u := s.at at_
      let v := u.fetched c
      let does := fun (op : Nat) => u.takes op c = true ∧ v.noDeputy op c = false
      c.berth < v.part.berthIds ∧ does 0x14 ∧
      ((match v.berth c.berth with
        | some x => decide (
            x.id = c.berth ∧
            (let seen := fun p => v.pageOf x p || v.pageShared x p
             (¬ pages seen)))
        | _ => false) = true))) ∧
    (let s : State := bst z1
     let c : Cmd := opc 0x14 (cwr (200*32768) 2)
     let wa := c.p 24 4
     let n := c.dlen / 2
     let fits := c.dlen % 2 = 0 ∧ 2 ≤ c.dlen ∧ c.dlen ≤ 16777216 ∧ wa + n ≤ 2 ^ 29
     let pages := fun (ok : Nat → Bool) => (List.range' (wa / 32768) ((wa + n - 1) / 32768 + 1 - wa / 32768)).all ok = true
     fits ∧
     (let at_ : Nat := 0
      let u := s.at at_
      let v := u.fetched c
      let does := fun (op : Nat) => u.takes op c = true ∧ v.noDeputy op c = false
      c.berth < v.part.berthIds ∧ does 0x14 ∧
      ((match v.berth c.berth with
        | some x => decide (
            x.id = c.berth ∧
            (let up := v.groupsDown x.die wa n = []
             let rights := fun (k : Kind) => (List.range' wa n).all (fun w => decide (v.ledgerCheck 0 x.die w { cls := 8 } k = none)) = true
             let clean := (List.range' wa n).all (fun w => decide (tfind v.ecc (pkgWord x.die w / 4) = none)) = true
             let seen := fun p => v.pageOf x p || v.pageShared x p
             pages seen ∧ up ∧ rights .read ∧ clean))
        | _ => false) = true))) ∧
    (let s : State := bst z2
     let c : Cmd := opc 0x15 (psh 200 3 5)
     let p := c.p 24 2
     let n := c.p 26 2
     let g := c.p 28 2
     n ≠ 0 ∧ g ≠ 0 ∧ g < 1024 ∧ p + n ≤ 16384 ∧
     (let at_ : Nat := 0
      let u := s.at at_
      let v := u.fetched c
      let does := fun (op : Nat) => u.takes op c = true ∧ v.noDeputy op c = false
      c.berth < v.part.berthIds ∧ does 0x15 ∧ tsorted v.pages = true ∧
      ((match v.berth c.berth with
        | some x => decide (
            x.id = c.berth ∧
            (let owned : Bool := (List.range' p n).all (fun q => decide (v.pageOf x q = true ∧ pageState (v.page x.die q) = 1))
             x.hasTime = false ∧ (¬ owned)))
        | _ => false) = true))) ∧
    (let s : State := bst { z2 with segDefs := [(0, {base := 200*32768, limit := 4, w := true})] }
     let c : Cmd := opc 0x15 (psh 200 1 5)
     let p := c.p 24 2
     let n := c.p 26 2
     let g := c.p 28 2
     n ≠ 0 ∧ g ≠ 0 ∧ g < 1024 ∧ p + n ≤ 16384 ∧
     (let at_ : Nat := 0
      let u := s.at at_
      let v := u.fetched c
      let does := fun (op : Nat) => u.takes op c = true ∧ v.noDeputy op c = false
      c.berth < v.part.berthIds ∧ does 0x15 ∧ tsorted v.pages = true ∧
      ((match v.berth c.berth with
        | some x => decide (
            x.id = c.berth ∧
            (let owned : Bool := (List.range' p n).all (fun q => decide (v.pageOf x q = true ∧ pageState (v.page x.die q) = 1))
             let mapped : Bool := (x.side.desc.toList ++ x.segDefs.map (·.2)).any (fun z => (List.range' p n).any (fun q => z.mapsW q))
             x.hasTime = false ∧ owned ∧ mapped))
        | _ => false) = true))) ∧
    (let s : State := { bst z2 with prof := { (bst z2).prof with sharepool := 1 } }
     let c : Cmd := opc 0x15 (psh 200 2 5)
     let p := c.p 24 2
     let n := c.p 26 2
     let g := c.p 28 2
     n ≠ 0 ∧ g ≠ 0 ∧ g < 1024 ∧ p + n ≤ 16384 ∧
     (let at_ : Nat := 0
      let u := s.at at_
      let v := u.fetched c
      let does := fun (op : Nat) => u.takes op c = true ∧ v.noDeputy op c = false
      c.berth < v.part.berthIds ∧ does 0x15 ∧ tsorted v.pages = true ∧
      ((match v.berth c.berth with
        | some x => decide (
            x.id = c.berth ∧
            (let owned : Bool := (List.range' p n).all (fun q => decide (v.pageOf x q = true ∧ pageState (v.page x.die q) = 1))
             let mapped : Bool := (x.side.desc.toList ++ x.segDefs.map (·.2)).any (fun z => (List.range' p n).any (fun q => z.mapsW q))
             x.hasTime = false ∧ owned ∧ (¬ mapped) ∧ v.prof.sharepool < v.sharedPages x.die + n))
        | _ => false) = true))) ∧
    (let s : State := bst z2
     let c : Cmd := opc 0x15 (psh 200 1 5)
     let p := c.p 24 2
     let n := c.p 26 2
     let g := c.p 28 2
     n ≠ 0 ∧ g ≠ 0 ∧ g < 1024 ∧ p + n ≤ 16384 ∧
     (let at_ : Nat := 0
      let u := s.at at_
      let v := u.fetched c
      let does := fun (op : Nat) => u.takes op c = true ∧ v.noDeputy op c = false
      c.berth < v.part.berthIds ∧ does 0x15 ∧ tsorted v.pages = true ∧
      ((match v.berth c.berth with
        | some x => decide (
            x.id = c.berth ∧
            (let owned : Bool := (List.range' p n).all (fun q => decide (v.pageOf x q = true ∧ pageState (v.page x.die q) = 1))
             let mapped : Bool := (x.side.desc.toList ++ x.segDefs.map (·.2)).any (fun z => (List.range' p n).any (fun q => z.mapsW q))
             x.hasTime = false ∧ owned ∧ (¬ mapped) ∧ v.sharedPages x.die + n ≤ v.prof.sharepool ∧
             v.groupsDown x.die (p * 32768) (n * 32768) = []))
        | _ => false) = true))) := by
  refine ⟨?_, ?_, ?_, ?_, ?_, ?_, ?_, ?_, ?_, ?_, ?_, ?_, ?_, ?_⟩ <;> decide +kernel

/-- The hypotheses of Obligations.StreamAndQuayCommandsTakeEffect can be met. -/
theorem witness_StreamAndQuayCommandsTakeEffect :
    (let s : State := quo (bst z2) 3
     let c : Cmd := opc 0x21 (cb [])
     let at_ : Nat := 0
     let u := s.at at_
     let v := u.fetched c
     let does := fun (op : Nat) => u.takes op c = true ∧ v.noDeputy op c = false
     c.berth < v.part.berthIds ∧ does 0x21 ∧
     ((match v.berth c.berth with
       | some x => decide (
           x.id = c.berth ∧ x.hasTime = false ∧ tsorted x.regs = true ∧ v.failingOver x = false)
       | _ => false) = true)) ∧
    (let s : State := { (quo (bst { z2 with stream := { bound := true, quay := 3, seq := 99 } }) 3) with quays := [(3, { (base.quay 3) with failing := true })] }
     let c : Cmd := opc 0x21 (cb [])
     let at_ : Nat := 0
     let u := s.at at_
     let v := u.fetched c
     let does := fun (op : Nat) => u.takes op c = true ∧ v.noDeputy op c = false
     c.berth < v.part.berthIds ∧ does 0x21 ∧
     ((match v.berth c.berth with
       | some x => decide (
           x.id = c.berth ∧ x.hasTime = false ∧ tsorted x.regs = true ∧ v.failingOver x = true)
       | _ => false) = true)) ∧
    (let s : State := { (quo (bst { z2 with stream := { bound := true, quay := 3, seq := 99 } }) 3) with quays := [(3, { (base.quay 3) with failing := true })] }
     let c : Cmd := opc 0x20 (bd 3 0xff 1 0 256)
     96 ≤ c.dlen ∧ c.d 1 1 = 0xFF ∧
     (let at_ : Nat := 0
      let u := s.at at_
      let v := u.fetched c
      let does := fun (op : Nat) => u.takes op c = true ∧ v.noDeputy op c = false
      c.berth < v.part.berthIds ∧ does 0x20 ∧ v.hasQuay (c.d 0 1) = true ∧
      ((match v.berth c.berth with
        | some x => decide (
            x.id = c.berth ∧ x.hasTime = false ∧ tsorted x.regs = true ∧ v.failingOver x = true)
        | _ => false) = true))) ∧
    (let s : State := quo (bst z2) 3
     let c : Cmd := opc 0x20 (bd 3 0xff 1 0 256)
     let q := c.d 0 1
     96 ≤ c.dlen ∧ c.d 1 1 = 0xFF ∧ bindReserved c = false ∧
     (let at_ : Nat := 0
      let u := s.at at_
      let v := u.fetched c
      let does := fun (op : Nat) => u.takes op c = true ∧ v.noDeputy op c = false
      c.berth < v.part.berthIds ∧ does 0x20 ∧ v.hasQuay q = true ∧ v.flag (quayAddr q R.QY_CFG) 0 = true ∧ v.quayUp q = true ∧
      ((match v.berth c.berth with
        | some x => decide (
            x.id = c.berth ∧ x.hasTime = false ∧ tsorted x.regs = true ∧ v.failingOver x = false ∧
            (x.stream.bound = true → x.stream.held = true) ∧ bindFits v.prof.cls (2 * x.pixLen) c = true ∧
            (bitOf (c.d 2 1) 2 = true → x.twoBuffers = true) ∧
            (let e : Nat := 0
             let w := v.dropEntries c.berth (fun e => decide (e < 512))
             w.freeEntry q 0 512 [] = some e))
        | _ => false) = true))) ∧
    (let s : State := quo (bst z2) 3
     let c : Cmd := opc 0x22 (ib 3 0x82 77 0 5 0 0)
     let q := c.b 24
     let tgt := c.b 25 % 8
     tgt ≤ 5 ∧ bitOf (c.b 25) 7 = true ∧
     (let at_ : Nat := 0
      let u := s.at at_
      let v := u.fetched c
      let does := fun (op : Nat) => u.takes op c = true ∧ v.noDeputy op c = false
      c.berth < v.part.berthIds ∧ does 0x22 ∧ v.hasQuay q = true ∧ v.inputEntry q c.berth tgt = none ∧
      ((match v.berth c.berth with
        | some x => decide (
            x.id = c.berth ∧ x.hasTime = false ∧ tsorted x.regs = true)
        | _ => false) = true))) ∧
    (let s : State := qtb (quo (bst { z2 with stream := { bound := true, held := false, seq := 99 }, rx := [some ⟨5,5,9,7⟩, none,none,none] }) 3) [(0, ent1 0),(512, ent2 0 1 78), (513, ent2 0 5 79)] []
     let c : Cmd := opc 0x22 (ib 3 0x81 77 0 5 0 0)
     let q := c.b 24
     let tgt := c.b 25 % 8
     tgt ≤ 5 ∧ bitOf (c.b 25) 7 = true ∧
     (let at_ : Nat := 0
      let u := s.at at_
      let v := u.fetched c
      let does := fun (op : Nat) => u.takes op c = true ∧ v.noDeputy op c = false
      c.berth < v.part.berthIds ∧ does 0x22 ∧ v.hasQuay q = true ∧
      ((match v.berth c.berth with
        | some x => decide (
            x.id = c.berth ∧ x.hasTime = false ∧ tsorted x.regs = true ∧
            ((match v.inputEntry q c.berth tgt with
              | some e => decide (True)
              | _ => false) = true))
        | _ => false) = true))) ∧
    (let s : State := quo (bst z2) 3
     let c : Cmd := opc 0x22 (ib 3 1 55 (200*32768) 5 0 0)
     let q := c.b 24
     let tgt := c.b 25 % 8
     tgt ≤ 5 ∧ bitOf (c.b 25) 7 = false ∧
     (let at_ : Nat := 0
      let u := s.at at_
      let v := u.fetched c
      let does := fun (op : Nat) => u.takes op c = true ∧ v.noDeputy op c = false
      c.berth < v.part.berthIds ∧ does 0x22 ∧ v.hasQuay q = true ∧ v.inputEntry q c.berth tgt = none ∧
      (List.range (1024)).all (fun f => decide (512 ≤ f → bitOf (v.entryWord q f 0) 11 = true → bitOf (v.entryWord q f 0) 15 = bitOf (c.b 25) 3 → bitsOf (v.entryWord q f 1) 15 0 ≠ c.p 26 2)) = true ∧
      ((match v.berth c.berth with
        | some x => decide (
            x.id = c.berth ∧ x.hasTime = false ∧ tsorted x.regs = true ∧ v.ringFits x c tgt = true ∧
            ((match v.freeEntry q 512 512 [] with
              | some e => decide (True)
              | _ => false) = true))
        | _ => false) = true))) ∧
    (let s : State := quo (bst z2) 3
     let c : Cmd := opc 0x28 (qc 3 1 7)
     let q := c.b 24
     let d := q / 18
     c.entry.length = 64 ∧ bitOf (c.b 25) 0 = true ∧
     (let at_ : Nat := 0
      let u := s.at at_
      let v := u.fetched c
      let does := fun (op : Nat) => u.takes op c = true ∧ v.noDeputy op c = false
      v.hasQuay q = true ∧ tsorted v.regs = true ∧ does 0x28 ∧ v.domain d (0x18 + q % 18 / 6) = 0)) ∧
    (let s : State := { qtb (quo (bst z2) 3) [] (sasl.drop 2) with domains := [(0x18, 1)] }
     let c : Cmd := opc 0x28 (qc 3 1 7)
     let q := c.b 24
     let d := q / 18
     c.entry.length = 64 ∧ bitOf (c.b 25) 0 = true ∧
     (let at_ : Nat := 0
      let u := s.at at_
      let v := u.fetched c
      let does := fun (op : Nat) => u.takes op c = true ∧ v.noDeputy op c = false
      v.hasQuay q = true ∧ tsorted v.regs = true ∧ does 0x28 ∧ v.domain d (0x18 + q % 18 / 6) ≠ 0)) ∧
    (let s : State := quo (bst z2) 3
     let c : Cmd := opc 0x28 (cb [])
     let q := c.b 24
     c.entry.length = 64 ∧ bitOf (c.b 25) 0 = false ∧
     (let at_ : Nat := 0
      let u := s.at at_
      let v := u.fetched c
      let does := fun (op : Nat) => u.takes op c = true ∧ v.noDeputy op c = false
      v.hasQuay q = true ∧ tsorted v.regs = true ∧ does 0x28)) ∧
    (let s : State := quo (bst z2) 3
     let c : Cmd := opc 0x29 (cb [])
     let q := c.b 24
     c.entry.length = 64 ∧
     (let at_ : Nat := 0
      let u := s.at at_
      let v := u.fetched c
      let does := fun (op : Nat) => u.takes op c = true ∧ v.noDeputy op c = false
      v.hasQuay q = true ∧ tsorted v.regs = true ∧ does 0x29 ∧ v.prof.inject = false)) ∧
    (let s : State := { qtb (quo (bst z2) 3) [] (sasl.take 1) with prof := { (bst z2).prof with inject := true } }
     let c : Cmd := opc 0x29 (cb [])
     let q := c.b 24
     c.entry.length = 64 ∧
     (let at_ : Nat := 0
      let u := s.at at_
      let v := u.fetched c
      let does := fun (op : Nat) => u.takes op c = true ∧ v.noDeputy op c = false
      v.hasQuay q = true ∧ tsorted v.regs = true ∧ does 0x29 ∧ v.prof.inject = true)) ∧
    (let s : State := quo (bst z2) 3
     let c : Cmd := opc 0x2A (bd 3 0xff 1 0 256)
     let q := c.b 24
     c.entry.length = 64 ∧
     (let sc := c.b 25
      let an := c.b 26
      sc ≤ 4 ∧ an ≤ 3 ∧ c.b 27 = 0 ∧ 64 ≤ c.dlen ∧
      (let at_ : Nat := 0
       let u := s.at at_
       let v := u.fetched c
       let does := fun (op : Nat) => u.takes op c = true ∧ v.noDeputy op c = false
       v.hasQuay q = true ∧ tsorted v.regs = true ∧
       (let old := (v.quay q).sas
        does 0x2A ∧ ((old.filter (fun z => !z.named c)).filter (fun z => decide (z.sc = sc))).length < 2)))) ∧
    (let s : State := qtb (quo (bst z2) 3) [] sasl
     let c : Cmd := opc 0x2A (mk_ 3 0 1 1 0)
     let q := c.b 24
     c.entry.length = 64 ∧
     (let sc := c.b 25
      let an := c.b 26
      let hit := fun (z : Sa) => z.sc = sc ∧ z.an = an ∧ (z.tx = true ↔ sc = 0)
      sc ≤ 4 ∧ an ≤ 3 ∧ c.b 27 = 1 ∧
      (let at_ : Nat := 0
       let u := s.at at_
       let v := u.fetched c
       let does := fun (op : Nat) => u.takes op c = true ∧ v.noDeputy op c = false
       v.hasQuay q = true ∧ tsorted v.regs = true ∧
       (let old := (v.quay q).sas
        does 0x2A ∧ (∃ z ∈ old, hit z))))) ∧
    (let s : State := qtb (quo (bst z2) 3) [] sasl
     let c : Cmd := opc 0x2A (mk_ 3 0 1 2 0)
     let q := c.b 24
     c.entry.length = 64 ∧
     (let sc := c.b 25
      let an := c.b 26
      let hit := fun (z : Sa) => z.sc = sc ∧ z.an = an ∧ (z.tx = true ↔ sc = 0)
      sc ≤ 4 ∧ an ≤ 3 ∧ c.b 27 = 2 ∧
      (let at_ : Nat := 0
       let u := s.at at_
       let v := u.fetched c
       let does := fun (op : Nat) => u.takes op c = true ∧ v.noDeputy op c = false
       v.hasQuay q = true ∧ tsorted v.regs = true ∧
       (let old := (v.quay q).sas
        does 0x2A ∧ (∃ z ∈ old, hit z))))) := by
  refine ⟨?_, ?_, ?_, ?_, ?_, ?_, ?_, ?_, ?_, ?_, ?_, ?_, ?_, ?_, ?_⟩ <;> decide +kernel

/-- The hypotheses of Obligations.SystemCommandsTakeEffect can be met. -/
theorem witness_SystemCommandsTakeEffect :
    (let s : State := go base
     let c : Cmd := opc 0x31 (thp 90 100 1 0 2 3)
     c.b 24 < c.b 25 ∧ c.b 25 ≤ 110 ∧ 2 ≤ c.b 28 ∧ c.b 28 ≤ 16 ∧ c.b 26 < 3 ∧ c.b 27 / 2 % 2 = 0 ∧
     (let at_ : Nat := 0
      let u := s.at at_
      let v := u.fetched c
      let does := fun (op : Nat) => u.takes op c = true ∧ v.noDeputy op c = false
      does 0x31 ∧ tsorted v.regs = true)) ∧
    (let s : State := bst z2
     let c : Cmd := opc 0x31 (thp 90 110 2 3 16 7)
     c.b 24 < c.b 25 ∧ c.b 25 ≤ 110 ∧ 2 ≤ c.b 28 ∧ c.b 28 ≤ 16 ∧ c.b 26 < 3 ∧ c.b 27 / 2 % 2 = 1 ∧
     (let at_ : Nat := 0
      let u := s.at at_
      let v := u.fetched c
      let does := fun (op : Nat) => u.takes op c = true ∧ v.noDeputy op c = false
      does 0x31 ∧ tsorted v.regs = true ∧ c.berth < v.part.berthIds ∧
      ((match v.berth c.berth with
        | some x => decide ((x.id = c.berth) ∧ (x.hasTime = false))
        | _ => false) = true))) ∧
    (let s : State := bst z1
     let c : Cmd := opc 0x31 ({ thp 90 110 2 3 16 7 with entry := (thp 90 110 2 3 16 7).entry })
     c.b 24 < c.b 25 ∧ c.b 25 ≤ 110 ∧ 2 ≤ c.b 28 ∧ c.b 28 ≤ 16 ∧ c.b 26 < 3 ∧ c.b 27 / 2 % 2 = 1 ∧
     (let at_ : Nat := 0
      let u := s.at at_
      let v := u.fetched c
      let does := fun (op : Nat) => u.takes op c = true ∧ v.noDeputy op c = false
      does 0x31 ∧ tsorted v.regs = true ∧ c.berth < v.part.berthIds ∧
      ((match v.berth c.berth with
        | some x => decide ((x.hasTime = true))
        | _ => false) = true))) ∧
    (let s : State := go base
     let c : Cmd := opc 0x38 (pset 0 3 1)
     let d := c.b 24
     1 ≤ c.b 26 ∧ c.b 26 ≤ 16 ∧ (c.b 25 / 4 % 2 = 1 → 1 ≤ c.p 28 2 ∧ c.p 28 2 ≤ 10000) ∧
     (let at_ : Nat := 0
      let u := s.at at_
      let v := u.fetched c
      let does := fun (op : Nat) => u.takes op c = true ∧ v.noDeputy op c = false
      does 0x38 ∧ (d = 0xFF ∨ v.hasDie d = true) ∧ tsorted v.regs = true)) := by
  refine ⟨?_, ?_, ?_, ?_⟩ <;> decide +kernel

/-- The hypotheses of Obligations.PipesComposeReleaseAndFailOver can be met. -/
theorem witness_PipesComposeReleaseAndFailOver :
    (let s : State := wb
     let d : Nat := 0
     s.hasDie d = true ∧
     (let k : Nat := 0
      k < 16 ∧
      (let at_ : Nat := 0
       let u := s.at at_
       let p := u.pipeOf d k
       (p.cur.isSome = true ∨ u.pipeServes d k = false ∨ (∀ x ∈ u.dockBerths d k, x.pipe.lines = []))))) ∧
    (let s : State := p2
     let d : Nat := 0
     s.hasDie d = true ∧
     (let k : Nat := 0
      k < 16 ∧
      (let at_ : Nat := 0
       let u := s.at at_
       let p := u.pipeOf d k
       p.cur = none ∧ u.pipeServes d k = true ∧ (∃ x ∈ u.dockBerths d k, x.pipe.lines ≠ [])))) ∧
    (let s : State := wb
     let d : Nat := 0
     s.hasDie d = true ∧
     (let k : Nat := 0
      k < 16 ∧ (s.pipeOf d k).cur = none)) ∧
    (let s : State := wb
     let d : Nat := 0
     s.hasDie d = true ∧
     (let k : Nat := 0
      k < 16 ∧
      (let at_ : Nat := 0
       let u := s.at at_
       tsorted u.regs = true ∧ tsorted u.pipes = true ∧ u.pipeServes d k = true ∧
       (let check : Nat := 1
        0 < check ∧ check < 8)))) ∧
    (let s : State := kd { p2 with htime := 50000 } (fun p => { p with failed := true, lastRelease := 7 })
     let d : Nat := 0
     s.hasDie d = true ∧
     (let k : Nat := 0
      k < 16 ∧
      (let at_ : Nat := 0
       let u := s.at at_
       tsorted u.regs = true ∧ tsorted u.pipes = true ∧ u.pipeServes d k = false ∧
       (let check : Nat := 1
        0 < check ∧ check < 8)))) ∧
    (let s : State := wb
     let d : Nat := 0
     s.hasDie d = true ∧
     (let k : Nat := 0
      k < 16 ∧
      (let onSpare := fun (v : State) => v.flag (dockAddr d k R.DK_PIPE) 0
       let at_ : Nat := 0
       let u := s.at at_
       tsorted u.regs = true ∧ tsorted u.pipes = true ∧ onSpare u = false ∧
       (let check : Nat := 1
        0 < check ∧ check < 8)))) ∧
    (let s : State := onSp (kd p2 (fun p => { p with failed := true }))
     let d : Nat := 0
     s.hasDie d = true ∧
     (let k : Nat := 0
      k < 16 ∧
      (let onSpare := fun (v : State) => v.flag (dockAddr d k R.DK_PIPE) 0
       let at_ : Nat := 0
       let u := s.at at_
       tsorted u.regs = true ∧ tsorted u.pipes = true ∧ onSpare u = true ∧
       (let check : Nat := 1
        0 < check ∧ check < 8)))) ∧
    (let s : State := kd p2 (fun p => { p with cur := some (cmp 7 (lr 3 1 false)) })
     let d : Nat := 0
     s.hasDie d = true ∧
     (let k : Nat := 0
      k < 16 ∧
      ((match (s.pipeOf d k).cur with
        | some c => decide (
            let at_ : Nat := 0
            let v := s.at (max at_ (c.startAt + (c.cost * 1000 + s.dclk d - 1) / s.dclk d))
            tsorted v.regs = true ∧ tsorted v.pipes = true ∧ v.berth c.berth = none)
        | _ => false) = true))) ∧
    (let s : State := kd p2 (fun p => { p with cur := some (cmp 0 (lr 3 1 false)) })
     let at_ : Nat := 0
     let l : List LineRec := ((p2.berth 0).getD b0).pipe.lines.tail
     let d : Nat := 0
     s.hasDie d = true ∧
     (let k : Nat := 0
      k < 16 ∧
      ((match (s.pipeOf d k).cur with
        | some c => decide (
            let v := s.at (max at_ (c.startAt + (c.cost * 1000 + s.dclk d - 1) / s.dclk d))
            tsorted v.regs = true ∧ tsorted v.pipes = true ∧
            ((match v.berth c.berth with
              | some x => decide (
                  x.id = c.berth ∧ x.pipe.lines = c.line :: l ∧ x.die = d ∧ x.dock = k)
              | _ => false) = true))
        | _ => false) = true))) ∧
    (let s : State := p2
     let d : Nat := 0
     s.hasDie d = true ∧
     (let k : Nat := 0
      k < 16 ∧
      (let at_ : Nat := 2000000000
       let u := s.at at_
       let p := u.pipeOf d k
       let due : Bool := u.pipeServes d k = true ∧ (∃ x ∈ u.dockBerths d k, x.pipe.lines ≠ []) ∧ p.lastRelease + 20000 ≤ u.htime
       tsorted u.regs = true ∧ tsorted u.pipes = true ∧ due))) ∧
    (let s : State := wb
     let d : Nat := 0
     s.hasDie d = true ∧
     (let k : Nat := 0
      k < 16 ∧
      (let at_ : Nat := 0
       let u := s.at at_
       let p := u.pipeOf d k
       let due : Bool := u.pipeServes d k = true ∧ (∃ x ∈ u.dockBerths d k, x.pipe.lines ≠ []) ∧ p.lastRelease + 20000 ≤ u.htime
       tsorted u.regs = true ∧ tsorted u.pipes = true ∧ (¬ due)))) ∧
    (let s : State := wb
     let d : Nat := 0
     s.hasDie d = true ∧
     (let k : Nat := 0
      k < 16 ∧
      (let onSpare := fun (v : State) => v.flag (dockAddr d k R.DK_PIPE) 0
       let at_ : Nat := 0
       let u := s.at at_
       let p := u.pipeOf d k
       (u.deputyHalted d = true ∨ (p.dead = false ∧ (p.failed = false ∨ onSpare u = true)))))) ∧
    (let s : State := kd { p2 with htime := 50000 } (fun p => { p with failed := true, lastRelease := 7 })
     let d : Nat := 0
     s.hasDie d = true ∧
     (let k : Nat := 0
      k < 16 ∧
      (let onSpare := fun (v : State) => v.flag (dockAddr d k R.DK_PIPE) 0
       let at_ : Nat := 0
       let u := s.at at_
       let p := u.pipeOf d k
       u.deputyHalted d = false ∧ p.dead = false ∧ p.failed = true ∧ onSpare u = false ∧ u.spareFree d = true ∧ tsorted u.regs = true))) ∧
    (let s : State := kd { p2 with htime := 50000 } (fun p => { p with dead := true, lastRelease := 7 })
     let d : Nat := 0
     s.hasDie d = true ∧
     (let k : Nat := 0
      k < 16 ∧
      (let onSpare := fun (v : State) => v.flag (dockAddr d k R.DK_PIPE) 0
       let at_ : Nat := 0
       let u := s.at at_
       let p := u.pipeOf d k
       u.deputyHalted d = false ∧ (p.dead = true ∨ (p.failed = true ∧ onSpare u = false ∧ u.spareFailed d = true)) ∧ tsorted u.berths = true ∧
       (∀ e ∈ u.berths, e.2.id = e.1)))) := by
  refine ⟨?_, ?_, ?_, ?_, ?_, ?_, ?_, ?_, ?_, ?_, ?_, ?_, ?_, ?_⟩ <;> decide +kernel

/-- The hypotheses of Obligations.ScanOutStartsReadsAndQueues can be met. -/
theorem witness_ScanOutStartsReadsAndQueues :
    (let s : State := mkS (b0)
     let b : Nat := 0
     ((match s.berth b with
       | some x => decide ((x.id = b) ∧ (x.nextStart s.htime = none))
       | _ => false) = true)) ∧
    (let s : State := mkS (fb (gb gg))
     let b : Nat := 0
     ((match s.berth b with
       | some x => decide (
           x.id = b ∧
           ((match x.nextStart s.htime with
             | some T => decide (
                 let u := s.at T
                 u.berth b = some x)
             | _ => false) = true))
       | _ => false) = true)) ∧
    (let s : State := mkS (b0)
     let b : Nat := 0
     ((match s.berth b with
       | some x => decide ((x.id = b) ∧ (x.dueLine = none))
       | _ => false) = true)) ∧
    (let s : State := mkS (fb (gb gg))
     let b : Nat := 0
     ((match s.berth b with
       | some x => decide (
           x.id = b ∧
           (let g := x.gen.geo.getD x.side.beam.geo
            tsorted x.regs = true ∧
            ((match x.dueLine with
              | some l => decide (
                  let u := s.at (x.outLineTime (l * max 1 x.gen.scale))
                  u.berth b = some x ∧ l < g.vvis)
              | _ => false) = true)))
       | _ => false) = true)) ∧
    (let s : State := mkS (fb (gb { gg with row := r1, vmode := 1 }))
     let b : Nat := 0
     ((match s.berth b with
       | some x => decide (
           x.id = b ∧
           (let g := x.gen
            let per := g.segBytes / (2 * x.pixLen)
            let size := x.outSize
            ((match x.gen.row with
              | some (l, px, bad) => decide (
                  (g.vmode ≠ 2 ∨ g.oline / max 1 g.scale ≠ l ∨ size.2 ≤ g.oline ∨ per = 0))
              | _ => false) = true)))
       | _ => false) = true)) ∧
    (let s : State := mkS (fb (gb { gg with row := r1 }))
     let b : Nat := 0
     ((match s.berth b with
       | some x => decide (
           x.id = b ∧
           (let g := x.gen
            let per := g.segBytes / (2 * x.pixLen)
            let size := x.outSize
            let from_ := g.seg * per
            let n := min per (size.1 - from_)
            let u := s.at (x.pixelTime g.oline (from_ + n))
            g.vmode = 2 ∧ g.oline < size.2 ∧ 0 < per ∧ u.berth b = some x ∧
            ((match x.gen.row with
              | some (l, px, bad) => decide ((g.oline / max 1 g.scale = l))
              | _ => false) = true)))
       | _ => false) = true)) ∧
    (let s : State := mkS (b0)
     let b : Nat := 0
     ((match s.berth b with
       | some x => decide ((x.id = b) ∧ (x.gen.row = none))
       | _ => false) = true)) := by
  refine ⟨?_, ?_, ?_, ?_, ?_, ?_, ?_⟩ <;> decide +kernel

/-- The hypotheses of Obligations.QuaysSendReceiveAndFailOver can be met. -/
theorem witness_QuaysSendReceiveAndFailOver :
    (let s : State := t2 (sb 0 0 false []) (sb 1 1 false [])
     let q : Nat := 3
     s.hasQuay q = true ∧
     (let at_ : Nat := 0
      let u := s.at at_
      let idle : Nat → Bool := fun c : Nat => u.classPaused q c = true ∨ u.senders q c = []
      tsorted u.regs = true ∧ tsorted u.quays = true ∧ (u.quayLocked q = false ∨ (List.range 8).all idle = true))) ∧
    (let s : State := tq (sb 0 0 false [pk 1, pk 2]) (sb 1 1 false [pk 3]) id
     let q : Nat := 3
     s.hasQuay q = true ∧
     (let at_ : Nat := 0
      let u := s.at at_
      tsorted u.regs = true ∧ tsorted u.quays = true ∧ u.quayLocked q = true ∧ u.injectOn q = false ∧
      (∀ e ∈ u.berths, e.2.id = e.1 ∧ e.1 < 4096) ∧ tsorted u.berths = true ∧
      (let c : Nat := 2
       let idle : Nat → Bool := fun c : Nat => u.classPaused q c = true ∨ u.senders q c = []
       c < 8 ∧ (¬ idle c) ∧ (List.range (8)).all (fun e => decide (c < e → idle e)) = true))) ∧
    (let s : State := t2 (sb 0 0 false []) (sb 1 1 false [])
     let q : Nat := 3
     s.hasQuay q = true ∧
     (let at_ : Nat := 0
      let u := s.at at_
      let k := u.quay q
      tsorted u.regs = true ∧ tsorted u.quays = true ∧ k.held = none)) ∧
    (let s : State := { (tq (sb 0 0 false []) (sb 1 1 false [])) (fun k => { k with held := some (⟨[9,9],false,3⟩, 2, 3, 5), xoff := true }) with htime := 100004 }.setFlag (dieAddr 0 (R.LG_REGLED + 4 * 35)) 1 true
     let q : Nat := 3
     s.hasQuay q = true ∧
     (let at_ : Nat := 0
      let u := s.at at_
      let k := u.quay q
      tsorted u.regs = true ∧ tsorted u.quays = true ∧
      ((match k.held with
        | some (f, c, n, T) => decide (
            let due : Bool := (n = 0 ∨ T + 100000 ≤ u.htime ∨ u.injectOn q = false) ∧ u.classPaused q c = false ∧ u.quayLocked q = true
            (¬ due))
        | _ => false) = true))) ∧
    (let s : State := (tq (sb 0 0 false []) (sb 1 1 false [])) (fun k => { k with held := some (⟨[9,9],false,3⟩, 2, 0, 3), fw := [[7]] })
     let q : Nat := 3
     s.hasQuay q = true ∧
     (let at_ : Nat := 0
      let u := s.at at_
      let k := u.quay q
      tsorted u.regs = true ∧ tsorted u.quays = true ∧
      ((match k.held with
        | some (f, c, n, T) => decide (
            let due : Bool := (n = 0 ∨ T + 100000 ≤ u.htime ∨ u.injectOn q = false) ∧ u.classPaused q c = false ∧ u.quayLocked q = true
            due)
        | _ => false) = true))) ∧
    (let s : State := base
     let q : Nat := 3
     s.hasQuay q = true ∧
     (let at_ : Nat := 0
      let u := s.at at_
      tsorted u.regs = true ∧ tsorted u.quays = true ∧ u.quayLocked q = false)) ∧
    (let s : State := t2 (sb 0 0 false []) (sb 1 1 false [])
     let q : Nat := 3
     s.hasQuay q = true ∧
     (let at_ : Nat := 0
      let u := s.at at_
      tsorted u.regs = true ∧ tsorted u.quays = true ∧ u.quayLocked q = true ∧
      (let bytes : List Byte := []
       let fcs : Bool := true
       let good : Bool := u.quayLocked q = true ∧ fcs = true ∧ 60 ≤ bytes.length ∧ bytes.length ≤ 9212
       (¬ good)))) ∧
    (let s : State := t2 (sb 0 0 false []) (sb 1 1 false [])
     let q : Nat := 3
     s.hasQuay q = true ∧
     (let at_ : Nat := 0
      let u := s.at at_
      tsorted u.regs = true ∧ tsorted u.quays = true ∧
      (let bytes : List Byte := List.replicate 60 0
       let r := bytes.drop 14
       ofBe (r.take 2) ≠ 0x0101 ∧
       (let fcs : Bool := true
        let good : Bool := u.quayLocked q = true ∧ fcs = true ∧ 60 ≤ bytes.length ∧ bytes.length ≤ 9212
        good)))) ∧
    (let s : State := t2 (sb 0 0 false []) (sb 1 1 false [])
     let q : Nat := 3
     s.hasQuay q = true ∧
     (let at_ : Nat := 0
      let u := s.at at_
      let k := u.quay q
      tsorted u.regs = true ∧ tsorted u.quays = true ∧ k.pause.length = 8 ∧
      (let bytes : List Byte := mac3 ++ mac3 ++ [0x88,0x08,0x01,0x01,0,0xff,0,0,0,1,0,2,0,3,0,4,0,5,0xff,0xff,0,7] ++ List.replicate 40 0
       let r := bytes.drop 14
       ofBe (r.take 2) = 0x0101 ∧
       (let fcs : Bool := true
        let good : Bool := u.quayLocked q = true ∧ fcs = true ∧ 60 ≤ bytes.length ∧ bytes.length ≤ 9212
        good)))) ∧
    (let s : State := rs.setFlag (quayAddr 3 R.QY_CFG) 4 true
     let q : Nat := 3
     s.hasQuay q = true ∧
     (let at_ : Nat := 0
      let u := s.at at_
      let k := u.quay q
      tsorted u.regs = true ∧ tsorted u.quays = true ∧ u.flag (quayAddr q R.QY_CFG) 4 = true ∧
      (let bytes : List Byte := List.replicate 60 0
       let typ := ofBe ((bytes.drop 12).take 2)
       typ ≠ 0x8808 ∧ k.unprotect bytes = none ∧
       (let fcs : Bool := true
        let good : Bool := u.quayLocked q = true ∧ fcs = true ∧ 60 ≤ bytes.length ∧ bytes.length ≤ 9212
        good)))) ∧
    (let s : State := t2 (sb 0 0 false []) (sb 1 1 false [])
     let q : Nat := 3
     s.hasQuay q = true ∧
     (let at_ : Nat := 0
      let u := s.at at_
      tsorted u.regs = true ∧ tsorted u.quays = true ∧ u.flag (quayAddr q R.QY_CFG) 4 = false ∧ q ∉ u.ptp ∧
      (let bytes : List Byte := mac3 ++ mac3 ++ [8,6] ++ List.replicate 60 0
       let typ := ofBe ((bytes.drop 12).take 2)
       typ ≠ 0x8808 ∧ bytes.take 6 = u.macOf q ∧ rxKind bytes = .firmware ∧
       (let fcs : Bool := true
        let good : Bool := u.quayLocked q = true ∧ fcs = true ∧ 60 ≤ bytes.length ∧ bytes.length ≤ 9212
        good)))) ∧
    (let s : State := t2 (sb 0 0 false []) (sb 1 1 false [])
     let q : Nat := 3
     s.hasQuay q = true ∧
     (let at_ : Nat := 0
      let u := s.at at_
      tsorted u.regs = true ∧ tsorted u.quays = true ∧ u.flag (quayAddr q R.QY_CFG) 4 = false ∧
      (let bytes : List Byte := List.replicate 60 0
       let typ := ofBe ((bytes.drop 12).take 2)
       typ ≠ 0x8808 ∧ bytes.take 6 = u.macOf q ∧ rxKind bytes = .other ∧
       (let fcs : Bool := true
        let good : Bool := u.quayLocked q = true ∧ fcs = true ∧ 60 ≤ bytes.length ∧ bytes.length ≤ 9212
        good)))) ∧
    (let s : State := t2 (sb 0 0 false []) (sb 1 1 false [])
     let q : Nat := 3
     s.hasQuay q = true ∧
     (let at_ : Nat := 0
      let u := s.at at_
      tsorted u.regs = true ∧ tsorted u.quays = true ∧ u.flag (quayAddr q R.QY_CFG) 4 = false ∧
      (let bytes : List Byte := ipf rs (wv ((en6 false).set 5 77)) (qlh 0 2 [1,2,3,4,5,6,7,8])
       let typ := ofBe ((bytes.drop 12).take 2)
       typ ≠ 0x8808 ∧ bytes.take 6 = u.macOf q ∧
       ((match rxKind bytes with
         | .udp six ip => decide (
             u.ipOk q six ip = false ∧
             (let fcs : Bool := true
              let good : Bool := u.quayLocked q = true ∧ fcs = true ∧ 60 ≤ bytes.length ∧ bytes.length ≤ 9212
              good))
         | _ => false) = true)))) ∧
    (let s : State := rs
     let q : Nat := 3
     s.hasQuay q = true ∧
     (let at_ : Nat := 0
      let u := s.at at_
      tsorted u.regs = true ∧ tsorted u.quays = true ∧ u.flag (quayAddr q R.QY_CFG) 4 = false ∧ Memory.wf u.mem = true ∧
      (let bytes : List Byte := ipf rs (wv (en6 false)) (qlh 0 2 [1,2,3,4,5,6,7,8])
       let typ := ofBe ((bytes.drop 12).take 2)
       typ ≠ 0x8808 ∧ bytes.take 6 = u.macOf q ∧
       ((match rxKind bytes with
         | .udp six ip => decide (
             let d := udpOf six ip
             let ql := d.drop 8
             u.ipOk q six ip = true ∧ udpOk six ip d = true ∧ 18 ≤ ql.length ∧ ql.getD 0 0 = 0x13 ∧
             ((match u.rxEntry q six ip d with
               | some ent => decide (
                   let tgt := bitsOf (u.entryWord q ent 0) 14 12
                   1 ≤ tgt ∧ tgt ≤ 4 ∧
                   (let fcs : Bool := true
                    let good : Bool := u.quayLocked q = true ∧ fcs = true ∧ 60 ≤ bytes.length ∧ bytes.length ≤ 9212
                    good ∧
                    (let x : Berth := ((rs.berth 0).getD b0)
                     u.reaches (q / 18) x.die = true ∧ ofBe ((ql.drop 2).take 2) % 2048 = x.id ∧ bitsOf (u.entryWord q ent 0) 10 0 = x.id ∧
                     u.berth x.id = some x ∧ x.rx.length = 4 ∧
                     ((match x.rx.getD (tgt - 1) none with
                       | some ring => decide (
                           ring.base / 2 ^ 29 = x.die ∧ ring.base % 2 ^ 29 + 2 ^ ring.k ≤ 2 ^ 29 ∧
                           (List.range (2 ^ ring.k)).all (fun i => decide (u.clear x.die (ring.base % 2 ^ 29 + i) { cls := 5, id := x.id } .write = true)) = true ∧
                           (let n : Nat := 4
                            ql.length = 16 + 2 * n ∧ n ≤ 512 ∧ ring.prod + n ≤ ring.cons + 2 ^ ring.k ∧ n ≤ 2 ^ ring.k))
                       | _ => false) = true))))
               | _ => false) = true))
         | _ => false) = true)))) ∧
    (let s : State := t2 (sb 0 0 false []) (sb 1 1 false [])
     let q : Nat := 3
     s.hasQuay q = true ∧
     (let at_ : Nat := 0
      let u := s.at at_
      tsorted u.regs = true ∧ tsorted u.quays = true ∧
      (let c : Nat := 0
       c < 8))) ∧
    (let s : State := tq (sb 0 0 false [pk 1]) (sb 1 2 false [pk 3]) (fun k => { k with pause := k.pause.set 5 1000 })
     let q : Nat := 3
     s.hasQuay q = true ∧
     (let at_ : Nat := 0
      let u := s.at at_
      tsorted u.regs = true ∧ tsorted u.quays = true ∧
      (let c : Nat := 5
       c < 8 ∧
       (let z := (s.quay q).pause.getD c 0
        z ≠ 0 ∧ ((s.at z).quay q).pause.length = 8 ∧ tsorted (s.at z).quays = true)))) ∧
    (let s : State := base
     let q : Nat := 3
     s.hasQuay q = true ∧
     (let at_ : Nat := 0
      let u := s.at at_
      tsorted u.regs = true ∧ tsorted u.quays = true ∧ u.flag (quayAddr q R.QY_CFG) 0 = false)) ∧
    (let s : State := t2 (sb 0 0 false []) (sb 1 1 false [])
     let q : Nat := 3
     s.hasQuay q = true ∧
     (let at_ : Nat := 0
      let u := s.at at_
      tsorted u.regs = true ∧ tsorted u.quays = true ∧ u.flag (quayAddr q R.QY_CFG) 0 = true)) ∧
    (let s : State := t2 (sb 0 0 false []) (sb 1 1 false [])
     let q : Nat := 3
     s.hasQuay q = true ∧
     (let at_ : Nat := 0
      let u := s.at at_
      tsorted u.regs = true ∧ tsorted u.quays = true ∧
      (let cause : Nat := 0
       (cause = 0 ∨ 4 < cause ∨ (u.quayUp q = false ∧ 3 ≤ cause))))) ∧
    (let s : State := base
     let q : Nat := 3
     s.hasQuay q = true ∧
     (let at_ : Nat := 0
      let u := s.at at_
      tsorted u.regs = true ∧ tsorted u.quays = true ∧ u.quayUp q = false ∧
      (let cause : Nat := 1
       (cause = 1 ∨ cause = 2)))) ∧
    (let s : State := t2 (sb 0 0 false []) (sb 1 1 false [])
     let q : Nat := 3
     s.hasQuay q = true ∧
     (let at_ : Nat := 0
      let u := s.at at_
      tsorted u.regs = true ∧ tsorted u.quays = true ∧ u.quayUp q = true ∧
      (let cause : Nat := 1
       1 ≤ cause ∧ cause ≤ 4))) ∧
    (let s : State := t2 (sb 0 0 false []) (sb 1 1 false [])
     let q : Nat := 3
     s.hasQuay q = true ∧
     (let at_ : Nat := 0
      let u := s.at at_
      tsorted u.regs = true ∧ tsorted u.quays = true ∧ tsorted u.berths = true ∧ (∀ e ∈ u.berths, e.2.id = e.1) ∧
      (∀ e ∈ u.quays, tsorted e.2.table = true))) := by
  refine ⟨?_, ?_, ?_, ?_, ?_, ?_, ?_, ?_, ?_, ?_, ?_, ?_, ?_, ?_, ?_, ?_, ?_, ?_, ?_, ?_, ?_, ?_⟩ <;> decide +kernel

/-- The hypotheses of Obligations.FerryAndLighterItems can be met. -/
theorem witness_FerryAndLighterItems :
    (let s : State := fst_ (fbh (fi (man 1 0x77 5 3 0) true false false 0) rxs)
     let b : Nat := 0
     ((match s.berth b with
       | some x => decide (
           x.id = b ∧
           ((match x.fq with
             | f :: l => decide (
                 l.all (fun g => g.ch ≠ f.ch) = true ∧ (∀ e ∈ x.stores, e.1 ≤ f.trig) ∧ (f.started = true ∨ x.engaged = false))
             | _ => false) = true))
       | _ => false) = true)) ∧
    (let s : State := fst_ (fbh (fi (man 1 0x77 5 3 0) false false false 0) rxs)
     let at_ : Nat := 0
     let u := s.at at_
     let b : Nat := 0
     ((match s.berth b with
       | some x => decide (
           x.id = b ∧ u.berth b = some x ∧ x.engaged = true ∧
           ((match x.fq with
             | f :: l => decide (
                 l.all (fun g => g.ch ≠ f.ch) = true ∧ (∀ e ∈ x.stores, e.1 ≤ f.trig) ∧ f.started = false)
             | _ => false) = true))
       | _ => false) = true)) ∧
    (let s : State := fst_ (fbh (fi (man 1 0x77 5 3 0) false true false 0) rxs)
     let at_ : Nat := 0
     let u := s.at at_
     let b : Nat := 0
     ((match s.berth b with
       | some x => decide (
           x.id = b ∧ u.berth b = some x ∧ x.engaged = true ∧
           ((match x.fq with
             | f :: l => decide (
                 l.all (fun g => g.ch ≠ f.ch) = true ∧ (∀ e ∈ x.stores, e.1 ≤ f.trig) ∧ f.started = false ∧ f.aborted = true)
             | _ => false) = true))
       | _ => false) = true)) ∧
    (let s : State := fst_ (fbh ({ fi (man 1 0x77 5 3 0) false false false 0 with desc := dro }) rxs)
     let at_ : Nat := 0
     let u := s.at at_
     let b : Nat := 0
     ((match s.berth b with
       | some x => decide (
           x.id = b ∧ u.berth b = some x ∧ x.engaged = true ∧
           ((match x.fq with
             | f :: l => decide (
                 l.all (fun g => g.ch ≠ f.ch) = true ∧ (∀ e ∈ x.stores, e.1 ≤ f.trig) ∧ f.started = false ∧ f.aborted = false ∧
                 f.rightsOk = false)
             | _ => false) = true))
       | _ => false) = true)) ∧
    (let s : State := fst_ (fbh (fi (man 1 0x77 5 3 0) false false false 0) rxs)
     let at_ : Nat := 0
     let u := s.at at_
     let b : Nat := 0
     ((match s.berth b with
       | some x => decide (
           x.id = b ∧ u.berth b = some x ∧ x.engaged = true ∧
           ((match x.fq with
             | f :: l => decide (
                 l.all (fun g => g.ch ≠ f.ch) = true ∧ (∀ e ∈ x.stores, e.1 ≤ f.trig) ∧ f.started = false ∧ f.aborted = false ∧
                 f.rightsOk = true)
             | _ => false) = true))
       | _ => false) = true)) ∧
    (let s : State := fst_ (fbh (fi (man 1 0x77 5 3 0) true false false 0) rxs)
     let at_ : Nat := 0
     let u := s.at at_
     let n : Nat := 0
     let b : Nat := 0
     let e := exec (.ferryManifestComplete b n at_) s
     ((match s.berth b with
       | some x => decide (
           x.id = b ∧ u.berth b = some x ∧
           ((match x.fq with
             | f :: l => decide (
                 l.all (fun g => g.ch ≠ f.ch) = true ∧ (∀ e ∈ x.stores, e.1 ≤ f.trig) ∧ f.started = true ∧
                 (manStream f.man = false ∨ x.engaged = true))
             | _ => false) = true))
       | _ => false) = true)) ∧
    (let n := 0
     let s : State := fst_ (fbh (fi (man 1 0x77 5 3 0) true true false 0) rxs)
     let at_ : Nat := 0
     let u := s.at at_
     let b : Nat := 0
     let e := exec (.ferryManifestComplete b n at_) s
     ((match s.berth b with
       | some x => decide (
           x.id = b ∧ u.berth b = some x ∧
           ((match x.fq with
             | f :: l => decide (
                 l.all (fun g => g.ch ≠ f.ch) = true ∧ (∀ e ∈ x.stores, e.1 ≤ f.trig) ∧ f.started = true ∧ manStream f.man = false ∧
                 f.aborted = true)
             | _ => false) = true))
       | _ => false) = true)) ∧
    (let s : State := fst_ (fbh (fi (man 4 0 5 96 0) true true false 32) rxs)
     let at_ : Nat := 0
     let u := s.at at_
     let n : Nat := 0
     let b : Nat := 0
     let e := exec (.ferryManifestComplete b n at_) s
     ((match s.berth b with
       | some x => decide (
           x.id = b ∧ u.berth b = some x ∧ x.engaged = true ∧
           ((match x.fq with
             | f :: l => decide (
                 l.all (fun g => g.ch ≠ f.ch) = true ∧ (∀ e ∈ x.stores, e.1 ≤ f.trig) ∧ f.started = true ∧ manStream f.man = true ∧
                 f.aborted = true)
             | _ => false) = true))
       | _ => false) = true)) ∧
    (let s : State := fst_ (fbh (fi (man 4 0 5 96 0) true false true 32) rxs)
     let at_ : Nat := 0
     let u := s.at at_
     let n : Nat := 0
     let b : Nat := 0
     let e := exec (.ferryManifestComplete b n at_) s
     ((match s.berth b with
       | some x => decide (
           x.id = b ∧ u.berth b = some x ∧ x.engaged = true ∧
           ((match x.fq with
             | f :: l => decide (
                 l.all (fun g => g.ch ≠ f.ch) = true ∧ (∀ e ∈ x.stores, e.1 ≤ f.trig) ∧ f.started = true ∧ manStream f.man = true ∧
                 f.aborted = false ∧ f.deadline = true)
             | _ => false) = true))
       | _ => false) = true)) ∧
    (let s : State := fst_ (fbh (fi (man 1 0x77 5 3 0) true false false 0) rxs)
     let at_ : Nat := 0
     let u := s.at at_
     Memory.wf u.mem = true ∧
     (let n : Nat := 0
      let b : Nat := 0
      let m : Master := { cls := 1, id := b }
      let e := exec (.ferryManifestComplete b n at_) s
      ((match s.berth b with
        | some x => decide (
            x.id = b ∧ u.berth b = some x ∧
            ((match x.fq with
              | f :: l => decide (
                  l.all (fun g => g.ch ≠ f.ch) = true ∧ (∀ e ∈ x.stores, e.1 ≤ f.trig) ∧
                  (let len := manLen f.man
                   let at2 : Kind → (Nat → Nat) → Bool := fun k a => (List.range len).all (fun i => u.clear x.die (a i) m k)
                   f.started = true ∧ manStream f.man = false ∧ f.aborted = false ∧ manOp f.man = 1 ∧ at2 .write f.dst ∧
                   (bitOf (itemWord f.man 0) 7 = true → at2 .read f.dst)))
              | _ => false) = true))
        | _ => false) = true))) ∧
    (let s : State := fst_ (fbh (fi (man 0 100 5 3 0) true false false 0) rxs)
     let at_ : Nat := 0
     let u := s.at at_
     Memory.wf u.mem = true ∧
     (let n : Nat := 0
      let b : Nat := 0
      let m : Master := { cls := 1, id := b }
      let e := exec (.ferryManifestComplete b n at_) s
      ((match s.berth b with
        | some x => decide (
            x.id = b ∧ u.berth b = some x ∧
            ((match x.fq with
              | f :: l => decide (
                  l.all (fun g => g.ch ≠ f.ch) = true ∧ (∀ e ∈ x.stores, e.1 ≤ f.trig) ∧
                  (let len := manLen f.man
                   let at2 : Kind → (Nat → Nat) → Bool := fun k a => (List.range len).all (fun i => u.clear x.die (a i) m k)
                   let once : Bool := (List.range len).all (fun i => (List.range len).all (fun j => decide (f.dst i = f.dst j → i = j)))
                   f.started = true ∧ manStream f.man = false ∧ f.aborted = false ∧ manOp f.man = 0 ∧ at2 .write f.dst ∧ at2 .read f.src ∧
                   (bitOf (itemWord f.man 0) 7 = true → at2 .read f.dst) ∧ f.overlaps = false ∧ once))
              | _ => false) = true))
        | _ => false) = true))) ∧
    (let s : State := fst_ (fbh (fi (man 2 100 5 2 0) true false false 0) rxs)
     let at_ : Nat := 0
     let u := s.at at_
     Memory.wf u.mem = true ∧
     (let n : Nat := 0
      let b : Nat := 0
      let m : Master := { cls := 1, id := b }
      let e := exec (.ferryManifestComplete b n at_) s
      ((match s.berth b with
        | some x => decide (
            x.id = b ∧ u.berth b = some x ∧
            ((match x.fq with
              | f :: l => decide (
                  l.all (fun g => g.ch ≠ f.ch) = true ∧ (∀ e ∈ x.stores, e.1 ≤ f.trig) ∧
                  (let len := manLen f.man
                   let at2 : Kind → (Nat → Nat) → Bool := fun k a => (List.range len).all (fun i => u.clear x.die (a i) m k)
                   let wpk := fun i => pkgWord x.die (f.dst i)
                   f.started = true ∧ manStream f.man = false ∧ f.aborted = false ∧ manOp f.man = 2 ∧ at2 .read f.dst ∧ at2 .read f.src ∧
                   (let eq : Nat → Bool := fun i => u.word (pkgWord x.die (f.src i)) = u.word (wpk i)
                    (List.range (len)).all (fun i => decide (eq i)) = true)))
              | _ => false) = true))
        | _ => false) = true))) ∧
    (let s : State := fst_ (fbh (fi (man 2 100 5 3 0) true false false 0) rxs)
     let at_ : Nat := 0
     let u := s.at at_
     Memory.wf u.mem = true ∧
     (let n : Nat := 0
      let i : Nat := 2
      let b : Nat := 0
      let m : Master := { cls := 1, id := b }
      let e := exec (.ferryManifestComplete b n at_) s
      ((match s.berth b with
        | some x => decide (
            x.id = b ∧ u.berth b = some x ∧
            ((match x.fq with
              | f :: l => decide (
                  l.all (fun g => g.ch ≠ f.ch) = true ∧ (∀ e ∈ x.stores, e.1 ≤ f.trig) ∧
                  (let len := manLen f.man
                   let at2 : Kind → (Nat → Nat) → Bool := fun k a => (List.range len).all (fun i => u.clear x.die (a i) m k)
                   let wpk := fun i => pkgWord x.die (f.dst i)
                   f.started = true ∧ manStream f.man = false ∧ f.aborted = false ∧ manOp f.man = 2 ∧ at2 .read f.dst ∧ at2 .read f.src ∧
                   (let eq : Nat → Bool := fun i => u.word (pkgWord x.die (f.src i)) = u.word (wpk i)
                    i < len ∧ (¬ eq i) ∧ (List.range (i)).all (fun j => decide (eq j)) = true)))
              | _ => false) = true))
        | _ => false) = true))) ∧
    (let s : State := fst_ (fbh (fi (man 4 0 5 96 0) true false false 0) rxs)
     let at_ : Nat := 0
     let u := s.at at_
     Memory.wf u.mem = true ∧
     (let b : Nat := 0
      let m : Master := { cls := 1, id := b }
      ((match s.berth b with
        | some x => decide (
            x.id = b ∧ x.rx.length = 4 ∧ x.engaged = true ∧ u.berth b = some x ∧
            ((match x.fq with
              | f :: l => decide (
                  l.all (fun g => g.ch ≠ f.ch) = true ∧ (∀ e ∈ x.stores, e.1 ≤ f.trig) ∧
                  (let ch := bitsOf (itemWord f.man 1) 1 0
                   f.started = true ∧ manStream f.man = true ∧ f.aborted = false ∧ f.deadline = false ∧ f.moved + 32 < manLen f.man ∧
                   (List.range (32)).all (fun j => decide (u.clear x.die (f.dst (f.moved + j)) m .write = true)) = true ∧
                   (List.range (32)).all (fun i => (List.range (32)).all (fun j => decide (f.dst (f.moved + i) = f.dst (f.moved + j) → i = j))) = true ∧
                   ((match x.rx.getD ch none with
                     | some ring => decide (
                         32 ≤ ring.prod - ring.cons ∧ ring.base / 2 ^ 29 = x.die ∧ ring.base % 2 ^ 29 + 2 ^ ring.k ≤ 2 ^ 29 ∧
                         (List.range (2 ^ ring.k)).all (fun i => decide (u.clear x.die (ring.base % 2 ^ 29 + i) m .read = true)) = true ∧
                         (List.range (2 ^ ring.k)).all (fun i => (List.range (32)).all (fun j => decide (ring.base + i ≠ pkgWord x.die (f.dst (f.moved + j))))) = true)
                     | _ => false) = true)))
              | _ => false) = true))
        | _ => false) = true))) ∧
    (let s : State := fst_ (fbh (fi (man 0 100 5 3 0) true false false 0) rxl)
     let b : Nat := 0
     ((match s.berth b with
       | some x => decide (
           x.id = b ∧ x.rx.length = 4 ∧
           ((match x.fq with
             | f :: l => decide (
                 l.all (fun g => g.ch ≠ f.ch) = true ∧ (∀ e ∈ x.stores, e.1 ≤ f.trig) ∧
                 (let ch := bitsOf (itemWord f.man 1) 1 0
                  ((match x.rx.getD ch none with
                    | some ring => decide ((ring.prod - ring.cons < 32))
                    | _ => false) = true)))
             | _ => false) = true))
       | _ => false) = true)) ∧
    (let s : State := fst_ (lbs ([ji 0 (jb 0x41 0 5 3 2 9) false 0 none]))
     let at_ : Nat := 0
     let u := s.at at_
     let b : Nat := 0
     ((match s.berth b with
       | some x => decide (
           x.id = b ∧ x.deadJobs = [] ∧ x.engaged = true ∧ (x.lq.filter (fun e => e.started)).length < 2 ∧ s.dockJobs x.die x.dock < 8 ∧
           u.berth b = some x ∧
           ((match x.lq.find? (fun e => decide (e.seq = x.nextJob) && !e.started) with
             | some j => decide (
                 (∀ e ∈ x.lq, e.started = true → j.waitsFor e = false) ∧ j.rightsOk = true)
             | _ => false) = true))
       | _ => false) = true)) ∧
    (let s : State := fst_ (lbs ([{ ji 0 (jb 0x41 0 5 3 2 9) false 0 none with desc := dro }]))
     let at_ : Nat := 0
     let u := s.at at_
     let b : Nat := 0
     ((match s.berth b with
       | some x => decide (
           x.id = b ∧
           (let stopped := s.engineStopped x.die x.dock 1
            x.deadJobs = [] ∧ x.engaged = true ∧ (x.lq.filter (fun e => e.started)).length < 2 ∧ s.dockJobs x.die x.dock < 8 ∧
            u.berth b = some x ∧
            ((match x.lq.find? (fun e => decide (e.seq = x.nextJob) && !e.started) with
              | some j => decide (
                  (∀ e ∈ x.lq, e.started = true → j.waitsFor e = false) ∧ (stopped = true ∨ j.rightsOk = false))
              | _ => false) = true)))
       | _ => false) = true)) ∧
    (let s : State := fst_ (lbs ([ji 0 (jb 0x41 0 5 3 2 0) true 0 none, ji 1 (jb 0x40 100 5 3 2 0) false 0 none]))
     let at_ : Nat := 0
     let u := s.at at_
     Memory.wf u.mem = true ∧
     (let j : LItem := ji 0 (jb 0x41 0 5 3 2 0) true 0 none
      let z := jobDest j.words
      j.result = none ∧ j.rows < z.2 ∧ jobBits j.words = 16 ∧ jobOp j.words = 1 ∧
      (let b : Nat := 0
       let m : Master := { cls := 2, id := b }
       ((match s.berth b with
         | some x => decide (
             x.id = b ∧ x.lq.find? (fun e => decide (e.tag = j.tag) && e.started) = some j ∧ x.engaged = true ∧ u.berth b = some x ∧
             (∀ e ∈ x.lq, e.seq = j.seq → e = j) ∧ (∀ e ∈ x.stores, e.1 ≤ j.trig) ∧
             (let w := fun i => pkgWord x.die (j.dst j.rows i)
              (List.range (z.1)).all (fun i => decide (u.clear x.die (j.dst j.rows i) m .write = true)) = true ∧
              (List.range (z.1)).all (fun i => (List.range (z.1)).all (fun i' => decide (w i = w i' → i = i'))) = true))
         | _ => false) = true)))) ∧
    (let s : State := fst_ (lbs ([ji 0 (jb 0x40 300 5 3 2 1) true 1 none]))
     let at_ : Nat := 0
     let u := s.at at_
     Memory.wf u.mem = true ∧
     (let j : LItem := ji 0 (jb 0x40 300 5 3 2 1) true 1 none
      let z := jobDest j.words
      j.result = none ∧ j.rows < z.2 ∧ jobBits j.words = 16 ∧ jobOp j.words = 0 ∧ jobXf j.words = 0 ∧ meets j.srcSpan j.dstSpan = false ∧
      (let b : Nat := 0
       let m : Master := { cls := 2, id := b }
       ((match s.berth b with
         | some x => decide (
             x.id = b ∧ x.lq.find? (fun e => decide (e.tag = j.tag) && e.started) = some j ∧ x.engaged = true ∧ u.berth b = some x ∧
             (∀ e ∈ x.lq, e.seq = j.seq → e = j) ∧ (∀ e ∈ x.stores, e.1 ≤ j.trig) ∧
             (let w := fun i => pkgWord x.die (j.dst j.rows i)
              (List.range (z.1)).all (fun i => decide (u.clear x.die (j.dst j.rows i) m .write = true)) = true ∧
              (List.range (z.1)).all (fun i => (List.range (z.1)).all (fun i' => decide (w i = w i' → i = i'))) = true ∧
              (List.range (z.1)).all (fun i => decide (u.clear x.die (j.src j.rows i) m .read = true)) = true))
         | _ => false) = true)))) ∧
    (let s : State := fst_ (lbs ([ji 0 (jb 0x41 0 5 3 2 0) true 0 none, ji 1 (jb 0x40 100 5 3 2 0) false 0 none]))
     let at_ : Nat := 0
     let u := s.at at_
     let j : LItem := ji 0 (jb 0x41 0 5 3 2 0) true 0 none
     let z := jobDest j.words
     j.result = none ∧ j.rows < z.2 ∧
     (let b : Nat := 0
      ((match s.berth b with
        | some x => decide (
            x.id = b ∧ x.lq.find? (fun e => decide (e.tag = j.tag) && e.started) = some j ∧ x.engaged = true ∧ u.berth b = some x ∧
            (∀ e ∈ x.lq, e.seq = j.seq → e = j) ∧ (∀ e ∈ x.stores, e.1 ≤ j.trig))
        | _ => false) = true))) ∧
    (let s : State := fst_ (lbs ([ji 0 (jb 0x40 300 5 3 2 1) true 2 none]))
     let at_ : Nat := 0
     let u := s.at at_
     let j : LItem := ji 0 (jb 0x40 300 5 3 2 1) true 2 none
     let z := jobDest j.words
     (j.result ≠ none ∨ z.2 ≤ j.rows) ∧
     (let b : Nat := 0
      ((match s.berth b with
        | some x => decide (
            x.id = b ∧ x.lq.find? (fun e => decide (e.tag = j.tag) && e.started) = some j ∧ x.engaged = true ∧ u.berth b = some x ∧
            (∀ e ∈ x.lq, e.seq = j.seq → e = j) ∧ (∀ e ∈ x.stores, e.1 ≤ j.trig))
        | _ => false) = true))) ∧
    (let s : State := wb
     let d : Nat := 0
     s.hasDie d = true ∧
     (let k : Nat := 0
      k < 16 ∧
      (let e : Nat := 0
       e < 2 ∧
       (let cause : Nat := 0
        (cause % 4 = 0 ∨ s.engineStopped d k e = true))))) ∧
    (let s : State := wb
     let d : Nat := 0
     s.hasDie d = true ∧
     (let k : Nat := 0
      k < 16 ∧
      (let e : Nat := 0
       e < 2 ∧ s.engineStopped d k e = false ∧
       (let cause : Nat := 1
        cause % 4 ≠ 0 ∧
        (let at_ : Nat := 0
         let u := s.at at_
         tsorted u.regs = true))))) := by
  refine ⟨?_, ?_, ?_, ?_, ?_, ?_, ?_, ?_, ?_, ?_, ?_, ?_, ?_, ?_, ?_, ?_, ?_, ?_, ?_, ?_, ?_, ?_, ?_⟩ <;> decide +kernel

/-- The hypotheses of Obligations.HarbourCoresAreVotedAndSlicesRun can be met. -/
theorem witness_HarbourCoresAreVotedAndSlicesRun :
    (let s : State := base_2.setFld R.ST_VOTE 2 0 3
     let d : Nat := 0
     let a := dieAddr d R.ST_VOTE
     let hm : Bool := false
     s.hasVoter d hm = true ∧
     (let k := if hm then 8 else 0
      let m : Nat := 2
      m < 3 ∧
      (let at_ : Nat := 0
       let u := s.at at_
       let halted := if hm then u.hmHalt else u.deputyHalted d
       (halted = true ∨ u.flag a (k + m) = false)))) ∧
    (let s : State := base_2
     let d : Nat := 0
     let a := dieAddr d R.ST_VOTE
     let hm : Bool := true
     s.hasVoter d hm = true ∧
     (let k := if hm then 8 else 0
      let m : Nat := 0
      m < 3 ∧
      (let at_ : Nat := 0
       let u := s.at at_
       u.flag a (k + m) = true ∧ tsorted u.regs = true))) ∧
    (let s : State := base_2
     let d : Nat := 0
     let a := dieAddr d R.ST_VOTE
     let hm : Bool := true
     s.hasVoter d hm = true ∧
     (let k := if hm then 8 else 0
      let m : Nat := 0
      m < 3 ∧
      (let at_ : Nat := 0
       let u := s.at at_
       let halted := if hm then u.hmHalt else u.deputyHalted d
       let stays := u.flag a (k + m) = true ∨ u.flag a (k + 3) = true ∨ halted = true
       stays))) ∧
    (let s : State := base_2.setFld R.ST_VOTE 2 0 3
     let d : Nat := 0
     let a := dieAddr d R.ST_VOTE
     let hm : Bool := false
     s.hasVoter d hm = true ∧
     (let k := if hm then 8 else 0
      let m : Nat := 2
      m < 3 ∧
      (let at_ : Nat := 0
       let u := s.at at_
       let halted := if hm then u.hmHalt else u.deputyHalted d
       let stays := u.flag a (k + m) = true ∨ u.flag a (k + 3) = true ∨ halted = true
       (¬ stays)))) ∧
    (let s : State := ((({ base_2 with slices := [z0] }).setReg R.ST_CFG 0x401).setReg R.ST_PERIOD 0)
     let d : Nat := 0
     s.hasDie d = true ∧
     (let cfg := dieAddr d R.ST_CFG
      let at_ : Nat := 0
      let u := s.at at_
      let up := u.deputyHalted d = false ∧ u.serving = true
      (¬ (up ∧ u.flag cfg 0 = true)))) ∧
    (let s : State := (((srv base_2).setReg R.ST_CFG 0x401).setReg R.ST_PERIOD 0)
     let d : Nat := 0
     s.hasDie d = true ∧
     (let cfg := dieAddr d R.ST_CFG
      let at_ : Nat := 0
      let u := s.at at_
      let up := u.deputyHalted d = false ∧ u.serving = true
      up ∧ u.flag cfg 0 = true)) ∧
    (let s : State := ((({ base_2 with slices := [z0] }).setReg R.ST_CFG 0x401).setReg R.ST_PERIOD 0)
     let d : Nat := 0
     s.hasDie d = true ∧
     (let cfg := dieAddr d R.ST_CFG
      let at_ : Nat := 0
      let u := s.at at_
      let up := u.deputyHalted d = false ∧ u.serving = true
      let run := (u.slices.filter (fun z => decide (z.die = d) && z.running)).length
      let may := up ∧ (u.flag cfg 1 = true → run < u.fld cfg 12 8)
      (¬ may))) ∧
    (let s : State := (((srv base_2).setReg R.ST_CFG 0x401).setReg R.ST_PERIOD 0)
     let d : Nat := 0
     s.hasDie d = true ∧
     (let cfg := dieAddr d R.ST_CFG
      let at_ : Nat := 0
      let u := s.at at_
      let up := u.deputyHalted d = false ∧ u.serving = true
      let run := (u.slices.filter (fun z => decide (z.die = d) && z.running)).length
      let may := up ∧ (u.flag cfg 1 = true → run < u.fld cfg 12 8)
      may ∧ u.slices.find? (fun y => decide (y.die = d) && !y.running && (u.mayTurn y || (u.mayRotate y).isSome)) = none)) ∧
    (let s : State := (((srv rot).setReg R.ST_CFG 0x401).setReg R.ST_PERIOD 0)
     let d : Nat := 0
     s.hasDie d = true ∧
     (let cfg := dieAddr d R.ST_CFG
      let at_ : Nat := 0
      let u := s.at at_
      let up := u.deputyHalted d = false ∧ u.serving = true
      ((match u.slices.find? (fun y => decide (y.die = d) && !y.running && (u.mayTurn y || (u.mayRotate y).isSome)) with
        | some z => decide (
            let run := (u.slices.filter (fun z => decide (z.die = d) && z.running)).length
            let may := up ∧ (u.flag cfg 1 = true → run < u.fld cfg 12 8)
            may ∧
            ((match u.mayRotate z with
              | some (x, m) => decide (True)
              | _ => false) = true))
        | _ => false) = true))) ∧
    (let s : State := (((srv { base_2 with slices := [z1_2,z0] }).setReg R.ST_CFG 0x401).setReg R.ST_PERIOD 0)
     let d : Nat := 0
     s.hasDie d = true ∧
     (let cfg := dieAddr d R.ST_CFG
      let at_ : Nat := 0
      let u := s.at at_
      let up := u.deputyHalted d = false ∧ u.serving = true
      ((match u.slices.find? (fun y => decide (y.die = d) && !y.running && (u.mayTurn y || (u.mayRotate y).isSome)) with
        | some z => decide (
            let run := (u.slices.filter (fun z => decide (z.die = d) && z.running)).length
            let may := up ∧ (u.flag cfg 1 = true → run < u.fld cfg 12 8)
            may ∧ u.mayRotate z = none)
        | _ => false) = true))) ∧
    (let s : State := (srv { base_2 with slices := [z0, z1_2] }).setReg R.ST_CFG 0x0064007
     let d : Nat := 0
     s.hasDie d = true ∧
     (let k : Nat := 0
      let n : Nat := 3
      let at_ : Nat := 5
      let u := s.at at_
      ((match u.runningSlice d k n with
        | some z => decide (
            ((match u.budget d with
              | some b => decide ((u.htime < z.turnAt + b ∨ u.sliceNeeds z ≤ b))
              | _ => false) = true))
        | _ => false) = true))) ∧
    (let s : State := (srv { base_2 with slices := [z0, z1_2], htime := 200000 }).setReg R.ST_CFG 0x0064007
     let d : Nat := 0
     s.hasDie d = true ∧
     (let k : Nat := 0
      let n : Nat := 3
      let at_ : Nat := 5
      let u := s.at at_
      ((match u.runningSlice d k n with
        | some z => decide (
            ((match u.budget d with
              | some b => decide ((z.turnAt + b ≤ u.htime) ∧ (b < u.sliceNeeds z))
              | _ => false) = true))
        | _ => false) = true))) ∧
    (let s : State := srv { base_2 with slices := [z0] }
     let d : Nat := 0
     s.hasDie d = true ∧
     (let k : Nat := 0
      k ≤ 6 ∧
      (let n : Nat := 3
       let at_ : Nat := 5
       let u := s.at at_
       u.deputyHalted d = false ∧ (k = 1 → (u.pipeOf d n).cur = none) ∧
       ((match u.runningSlice d k n with
         | some z => decide ((∀ b, u.budget d = some b → u.sliceNeeds z ≤ b))
         | _ => false) = true)))) ∧
    (let s : State := { State.reset with keeper := { ({} : Keeper) with phase := .off } }
     let at_ : Nat := 0
     let u := s.at at_
     u.tapUp = false) ∧
    (let s : State := base_2
     let at_ : Nat := 0
     let u := s.at at_
     u.tapUp = true) ∧
    (let s : State := srv base_2
     let r : Requester := .ep 0
     let at_ : Nat := 0
     let u := s.at at_
     let ok := u.enters r R.HB_WDOG true = true ∧ u.hasReq r = true
     (¬ ok)) ∧
    (let s : State := srv base_2
     let r : Requester := .jtag
     let at_ : Nat := 0
     let u := s.at at_
     let ok := u.enters r R.HB_WDOG true = true ∧ u.hasReq r = true
     ok ∧ (r ≠ .master ∨ u.hmHalt = true)) ∧
    (let r := .master
     let s : State := srv base_2
     let v : Nat := 0xA50000+300
     bitsOf v 23 16 = 0xA5 ∧
     (let at_ : Nat := 0
      let u := s.at at_
      let ok := u.enters r R.HB_WDOG true = true ∧ u.hasReq r = true
      ok ∧ u.hmHalt = false)) ∧
    (let r := .master
     let s : State := srv base_2
     let v : Nat := 0
     bitsOf v 23 16 ≠ 0xA5 ∧
     (let at_ : Nat := 0
      let u := s.at at_
      let ok := u.enters r R.HB_WDOG true = true ∧ u.hasReq r = true
      ok ∧ u.hmHalt = false)) ∧
    (let s : State := srv base_2
     s.keeper.phase = .on ∧
     (let at_ : Nat := 0
      let u := s.at at_
      let due := u.hmHalt = true ∨ u.wdogAt + max 100 (u.fld R.HB_WDOG 15 0) * 1000000 ≤ u.htime
      (¬ due))) ∧
    (let s : State := { base_2 with htime := 2000000005, wdogFired := true }
     s.keeper.phase = .on ∧
     (let at_ : Nat := 0
      let u := s.at at_
      let due := u.hmHalt = true ∨ u.wdogAt + max 100 (u.fld R.HB_WDOG 15 0) * 1000000 ≤ u.htime
      due ∧ u.wdogFired = true ∧ u.serving = false)) ∧
    (let s : State := { base_2 with hmHalt := true }
     s.keeper.phase = .on ∧
     (let at_ : Nat := 0
      let u := s.at at_
      let due := u.hmHalt = true ∨ u.wdogAt + max 100 (u.fld R.HB_WDOG 15 0) * 1000000 ≤ u.htime
      due ∧ (¬ (u.wdogFired = true ∧ u.serving = false)))) := by
  refine ⟨?_, ?_, ?_, ?_, ?_, ?_, ?_, ?_, ?_, ?_, ?_, ?_, ?_, ?_, ?_, ?_, ?_, ?_, ?_, ?_, ?_, ?_⟩ <;> decide +kernel

/-- The hypotheses of Obligations.DomainsEnterAbandonAndReturn can be met. -/
theorem witness_DomainsEnterAbandonAndReturn :
    (let s : State := go_2 base_3
     let c : Cmd := opc 0x30 (pset_2 0 3 0 0)
     let d := c.b 24
     let code := c.b 25
     let st := c.b 26
     let m := c.p 28 4
     let celg := 0x10 ≤ code ∧ code < 0x18
     hasDomain d code = true ∧ st ≤ 2 ∧ (m = 0 ∨ (m = 255 ∧ celg)) ∧
     (let at_ : Nat := 0
      let u := s.at at_
      let v := u.fetched c
      u.takes 0x30 c = true ∧ v.noDeputy 0x30 c = false ∧ v.hasDie d = true ∧ (st ≠ 0 → v.onlyOn d code = false) ∧ v.domain d code = st)) ∧
    (let st := 0
     st ≤ 2 ∧
     (let s : State := go_2 { arm 4 1 true with domains := [(4,3)] }
      let c : Cmd := opc 0x30 (pset_2 0 4 0 0)
      let d := c.b 24
      let code := c.b 25
      let st := c.b 26
      let m := c.p 28 4
      let celg := 0x10 ≤ code ∧ code < 0x18
      hasDomain d code = true ∧ (m = 0 ∨ (m = 255 ∧ celg)) ∧
      (let at_ : Nat := 0
       let u := s.at at_
       let v := u.fetched c
       u.takes 0x30 c = true ∧ v.noDeputy 0x30 c = false ∧ v.hasDie d = true ∧ (st ≠ 0 → v.onlyOn d code = false) ∧ v.domain d code ≠ 0 ∧
       (∃ e ∈ v.entries, e.1 = d ∧ e.2.code = code ∧ e.2.committed = false)))) ∧
    (let st := 0
     st ≤ 2 ∧
     (let s : State := go_2 (withDom 3 1)
      let c : Cmd := opc 0x30 (pset_2 0 3 0 0)
      let d := c.b 24
      let code := c.b 25
      let st := c.b 26
      let m := c.p 28 4
      let celg := 0x10 ≤ code ∧ code < 0x18
      hasDomain d code = true ∧ (m = 0 ∨ (m = 255 ∧ celg)) ∧
      (let at_ : Nat := 0
       let u := s.at at_
       let v := u.fetched c
       u.takes 0x30 c = true ∧ v.noDeputy 0x30 c = false ∧ v.hasDie d = true ∧ (st ≠ 0 → v.onlyOn d code = false) ∧ v.domain d code ≠ 0 ∧
       (∀ e ∈ v.entries, e.1 = d → e.2.code = code → e.2.committed = true) ∧ (v.domain d code = 1 ∨ v.domain d code = 2) ∧
       tsorted v.domains = true))) ∧
    (let s : State := go_2 base_3
     let c : Cmd := opc 0x30 (pset_2 0 3 1 0)
     let d := c.b 24
     let code := c.b 25
     let st := c.b 26
     let m := c.p 28 4
     let celg := 0x10 ≤ code ∧ code < 0x18
     hasDomain d code = true ∧ st ≤ 2 ∧ (m = 0 ∨ (m = 255 ∧ celg)) ∧ st ≠ 0 ∧
     (let at_ : Nat := 0
      let u := s.at at_
      let v := u.fetched c
      u.takes 0x30 c = true ∧ v.noDeputy 0x30 c = false ∧ v.hasDie d = true ∧ (st ≠ 0 → v.onlyOn d code = false) ∧ v.domain d code = 0 ∧
      (∀ e ∈ v.entries, e.1 = d → e.2.committed = true) ∧ v.mayLeaveOn d code st m = true ∧ tsorted v.regs = true)) ∧
    (let s : State := base_3
     let r : Requester := .ep 0
     let d : Nat := 0
     let a := dieAddr d R.PW_MODE
     let at_ : Nat := 0
     let u := s.at at_
     (u.gate r a true).1 = none) ∧
    (let s : State := base_3
     let r : Requester := .deputy 0
     let d : Nat := 0
     let a := dieAddr d R.PW_MODE
     let at_ : Nat := 0
     let u := s.at at_
     tsorted u.regs = true ∧ tsorted u.domains = true ∧
     ((match (u.gate r a true).1 with
       | some l => decide (True)
       | _ => false) = true)) ∧
    (let s : State := wk (arm 4 1 false)
     let d : Nat := 0
     s.hasDie d = true ∧
     (let at_ : Nat := 0
      let u := s.at at_
      tsorted u.entries = true ∧ tsorted u.domains = true ∧ tsorted u.regs = true ∧ (u.hicTop d 0).isSome = true ∧
      ((match tfind u.entries d with
        | some e => decide ((e.startAt = none))
        | _ => false) = true))) ∧
    (let s : State := arm 4 1 true
     let d : Nat := 0
     s.hasDie d = true ∧
     (let at_ : Nat := 0
      let u := s.at at_
      tsorted u.entries = true ∧ tsorted u.domains = true ∧ tsorted u.regs = true ∧ u.hicTop d 0 = none ∧
      ((match tfind u.entries d with
        | some e => decide ((e.startAt = none))
        | _ => false) = true))) ∧
    (let s : State := comm_ 4 1
     let d : Nat := 0
     s.hasDie d = true ∧
     (let src : Nat := 1
      let at_ : Nat := 0
      let u := s.at at_
      tsorted u.entries = true ∧ tsorted u.domains = true ∧ tsorted u.regs = true ∧
      ((match tfind u.entries d with
        | some e => decide (
            e.startAt ≠ none ∧ e.committed = true ∧
            (let late := (∃ p ∈ e.sets, p.1 = src ∧ u.abortPoint d e 4 ≤ p.2) ∧ u.wakes d src = true
             (¬ late)))
        | _ => false) = true))) ∧
    (let s : State := { comm_ 4 1 with entries := [(0, { code := 4, st := 1, auto := true, startAt := some 0, committed := true, sets := [(1, 5000)] })] }
     let d : Nat := 0
     s.hasDie d = true ∧
     (let src : Nat := 1
      let at_ : Nat := 0
      let u := s.at at_
      tsorted u.entries = true ∧ tsorted u.domains = true ∧ tsorted u.regs = true ∧
      ((match tfind u.entries d with
        | some e => decide (
            e.startAt ≠ none ∧ e.committed = true ∧
            (let late := (∃ p ∈ e.sets, p.1 = src ∧ u.abortPoint d e 4 ≤ p.2) ∧ u.wakes d src = true
             late))
        | _ => false) = true))) ∧
    (let s : State := started 4 1 true 50
     let d : Nat := 0
     s.hasDie d = true ∧
     (let at_ : Nat := 0
      let u := s.at at_
      tsorted u.entries = true ∧ tsorted u.domains = true ∧ tsorted u.regs = true ∧
      ((match tfind u.entries d with
        | some e => decide (
            let hidden := fun (vz : State) (pz : Nat × Nat) => vz.part = .sx8 ∧ vz.abortPoint d e 3 ≤ pz.2 ∧ pz.2 < vz.abortPoint d e 3 + vz.dclkNs d 5
            let seen := fun (vz : State) (pz : Nat × Nat) => pz.2 < vz.abortPoint d e 4 ∧ vz.wakes d pz.1 = true ∧ (hidden vz pz → levelKind d pz.1 = true ∧ vz.hicLevel d pz.1 = true)
            e.startAt ≠ none ∧ e.committed = false ∧ (∀ p ∈ e.sets, ¬ seen u p) ∧ u.htime < u.abortPoint d e 4)
        | _ => false) = true))) ∧
    (let s : State := started 0x11 1 true 5000
     let d : Nat := 0
     s.hasDie d = true ∧
     (let at_ : Nat := 0
      let u := s.at at_
      tsorted u.entries = true ∧ tsorted u.domains = true ∧ tsorted u.regs = true ∧
      ((match tfind u.entries d with
        | some e => decide (
            let hidden := fun (vz : State) (pz : Nat × Nat) => vz.part = .sx8 ∧ vz.abortPoint d e 3 ≤ pz.2 ∧ pz.2 < vz.abortPoint d e 3 + vz.dclkNs d 5
            let seen := fun (vz : State) (pz : Nat × Nat) => pz.2 < vz.abortPoint d e 4 ∧ vz.wakes d pz.1 = true ∧ (hidden vz pz → levelKind d pz.1 = true ∧ vz.hicLevel d pz.1 = true)
            e.startAt ≠ none ∧ e.committed = false ∧ (∀ p ∈ e.sets, ¬ seen u p) ∧ u.abortPoint d e 4 ≤ u.htime)
        | _ => false) = true))) ∧
    (let s : State := sv 50 [(1,40)]
     let d : Nat := 0
     s.hasDie d = true ∧
     (let at_ : Nat := 0
      let u := s.at at_
      tsorted u.entries = true ∧ tsorted u.domains = true ∧ tsorted u.regs = true ∧
      ((match tfind u.entries d with
        | some e => decide (
            let hidden := fun (vz : State) (pz : Nat × Nat) => vz.part = .sx8 ∧ vz.abortPoint d e 3 ≤ pz.2 ∧ pz.2 < vz.abortPoint d e 3 + vz.dclkNs d 5
            let seen := fun (vz : State) (pz : Nat × Nat) => pz.2 < vz.abortPoint d e 4 ∧ vz.wakes d pz.1 = true ∧ (hidden vz pz → levelKind d pz.1 = true ∧ vz.hicLevel d pz.1 = true)
            let point := fun (vz : State) (pz : Nat × Nat) => if hidden vz pz then 4 else if pz.2 ≤ vz.abortPoint d e 1 then 1 else if pz.2 ≤ vz.abortPoint d e 2 then 2 else if pz.2 ≤ vz.abortPoint d e 3 then 3 else 4
            e.startAt ≠ none ∧ e.committed = false ∧
            (let pre : List (Nat × Nat) := []
             (∀ q ∈ pre, ¬ seen u q) ∧
             (let p : Nat × Nat := (1,40)
              seen u p ∧ u.htime < u.abortPoint d e (point u p) ∧
              (let post : List (Nat × Nat) := []
               e.sets = pre ++ p :: post))))
        | _ => false) = true))) ∧
    (let s : State := sv 110 [(1,40)]
     let d : Nat := 0
     s.hasDie d = true ∧
     (let at_ : Nat := 0
      let u := s.at at_
      tsorted u.entries = true ∧ tsorted u.domains = true ∧ tsorted u.regs = true ∧
      ((match tfind u.entries d with
        | some e => decide (
            let hidden := fun (vz : State) (pz : Nat × Nat) => vz.part = .sx8 ∧ vz.abortPoint d e 3 ≤ pz.2 ∧ pz.2 < vz.abortPoint d e 3 + vz.dclkNs d 5
            let seen := fun (vz : State) (pz : Nat × Nat) => pz.2 < vz.abortPoint d e 4 ∧ vz.wakes d pz.1 = true ∧ (hidden vz pz → levelKind d pz.1 = true ∧ vz.hicLevel d pz.1 = true)
            let point := fun (vz : State) (pz : Nat × Nat) => if hidden vz pz then 4 else if pz.2 ≤ vz.abortPoint d e 1 then 1 else if pz.2 ≤ vz.abortPoint d e 2 then 2 else if pz.2 ≤ vz.abortPoint d e 3 then 3 else 4
            e.startAt ≠ none ∧ e.committed = false ∧
            (let pre : List (Nat × Nat) := []
             (∀ q ∈ pre, ¬ seen u q) ∧
             (let p : Nat × Nat := (1,40)
              seen u p ∧ u.abortPoint d e (point u p) ≤ u.htime ∧
              (let post : List (Nat × Nat) := []
               e.sets = pre ++ p :: post))))
        | _ => false) = true))) ∧
    (let s : State := sv 50 [(1,40)]
     let d : Nat := 0
     s.hasDie d = true ∧
     (let at_ : Nat := 0
      let u := s.at at_
      tsorted u.entries = true ∧ tsorted u.domains = true ∧ tsorted u.regs = true ∧
      ((match tfind u.entries d with
        | some e => decide (
            let hidden := fun (vz : State) (pz : Nat × Nat) => vz.part = .sx8 ∧ vz.abortPoint d e 3 ≤ pz.2 ∧ pz.2 < vz.abortPoint d e 3 + vz.dclkNs d 5
            let seen := fun (vz : State) (pz : Nat × Nat) => pz.2 < vz.abortPoint d e 4 ∧ vz.wakes d pz.1 = true ∧ (hidden vz pz → levelKind d pz.1 = true ∧ vz.hicLevel d pz.1 = true)
            let point := fun (vz : State) (pz : Nat × Nat) => if hidden vz pz then 4 else if pz.2 ≤ vz.abortPoint d e 1 then 1 else if pz.2 ≤ vz.abortPoint d e 2 then 2 else if pz.2 ≤ vz.abortPoint d e 3 then 3 else 4
            e.startAt ≠ none ∧ e.committed = false ∧
            (let pre : List (Nat × Nat) := []
             (∀ q ∈ pre, ¬ seen u q) ∧
             (let p : Nat × Nat := (1,40)
              seen u p ∧
              (let v := u.at (u.abortPoint d e (point u p))
               (∀ q ∈ pre, ¬ seen v q) ∧ seen v p ∧ v.abortPoint d e (point v p) ≤ v.htime ∧ tsorted v.entries = true ∧
               tsorted v.domains = true ∧ tsorted v.regs = true ∧
               (let post : List (Nat × Nat) := []
                e.sets = pre ++ p :: post)))))
        | _ => false) = true))) ∧
    (let s : State := { base_3 with domains := [(3,3),(1003,1)] }
     let d : Nat := 0
     s.hasDie d = true ∧
     (let code : Nat := 17
      let at_ : Nat := 0
      let u := s.at at_
      (tfind u.domains (backKey d code) = none ∨ u.domain d code ≠ 3))) ∧
    (let s : State := { base_3 with domains := [(3,3),(1003,1)] }
     let d : Nat := 0
     s.hasDie d = true ∧
     (let code : Nat := 3
      let at_ : Nat := 0
      let u := s.at at_
      u.domain d code = 3 ∧ tsorted u.domains = true ∧
      ((match tfind u.domains (backKey d code) with
        | some was => decide (True)
        | _ => false) = true))) := by
  refine ⟨?_, ?_, ?_, ?_, ?_, ?_, ?_, ?_, ?_, ?_, ?_, ?_, ?_, ?_, ?_, ?_, ?_⟩ <;> decide +kernel

/-- The hypotheses of Obligations.PowerThermalAndAvsbus can be met. -/
theorem witness_PowerThermalAndAvsbus :
    (let s : State := base_3
     let at_ : Nat := 0
     let u := s.at at_
     tsorted u.regs = true ∧ u.pw.credit ≤ 60000) ∧
    (let s : State := base_3
     let d : Nat := 0
     s.hasDie d = true ∧
     (let tj : Nat := 0
      tj < 256 ∧
      (let at_ : Nat := 0
       let u := s.at at_
       tsorted u.regs = true))) ∧
    (let s : State := base_3
     let at_ : Nat := 0
     let u := s.at at_
     u.pw.avs = none) ∧
    (let s : State := av ⟨0, 750, 0, false⟩ 10 [] []
     let at_ : Nat := 0
     let u := s.at at_
     tsorted u.regs = true ∧
     ((match u.pw.avs with
       | some a => decide ((a.retried = true ∨ u.htime < a.startAt + 200000))
       | _ => false) = true)) ∧
    (let s : State := av ⟨1, 750, 0, false⟩ 300000 [(0,740)] []
     let at_ : Nat := 0
     let u := s.at at_
     tsorted u.regs = true ∧
     ((match u.pw.avs with
       | some a => decide ((a.retried = false) ∧ (a.startAt + 200000 ≤ u.htime))
       | _ => false) = true)) ∧
    (let s : State := av ⟨0, 750, 0, false⟩ 10 [] []
     let at_ : Nat := 0
     let u := s.at at_
     tsorted u.regs = true ∧
     ((match u.pw.avs with
       | some a => decide ((u.htime < a.startAt + 400000))
       | _ => false) = true)) ∧
    (let s : State := av ⟨0, 780, 0, true⟩ 400000 [(0,740)] [8, 1]
     let at_ : Nat := 0
     let u := s.at at_
     tsorted u.regs = true ∧
     ((match u.pw.avs with
       | some a => decide ((a.startAt + 400000 ≤ u.htime))
       | _ => false) = true)) ∧
    (let s : State := base_3
     let at_ : Nat := 0
     let u := s.at at_
     let due := u.raiseHold = true ∧ u.pw.holdAt + 1000000000 ≤ u.htime
     (¬ due)) ∧
    (let s : State := { base_3 with pw := { pw0 with holdAt := 0 }, htime := 1000000000 }.setReg R.PW_AVSSTAT 8
     let at_ : Nat := 0
     let u := s.at at_
     let due := u.raiseHold = true ∧ u.pw.holdAt + 1000000000 ≤ u.htime
     due ∧ tsorted u.regs = true) ∧
    (let s : State := base_3
     let powered := s.keeper.phase = .on ∨ s.keeper.phase = .reset
     let d : Nat := 0
     s.hasDie d = true ∧
     (let tj : Nat := 114
      (¬ powered ∨ tj < 115))) ∧
    (let s : State := base_3
     let powered := s.keeper.phase = .on ∨ s.keeper.phase = .reset
     powered ∧
     (let d : Nat := 0
      s.hasDie d = true ∧
      (let tj : Nat := 115
       115 ≤ tj))) := by
  refine ⟨?_, ?_, ?_, ?_, ?_, ?_, ?_, ?_, ?_, ?_, ?_⟩ <;> decide +kernel

set_option maxRecDepth 20000 in
/-- The hypotheses of Obligations.BootMeasurementAndControlStore can be met. -/
theorem witness_BootMeasurementAndControlStore :
    (let s : State := base_3
     (s.phase ≠ 1 ∨ s.keeper.phase ≠ .on)) ∧
    (let s : State := State.reset
     s.phase = 1 ∧ s.keeper.phase = .on ∧ tsorted s.regs = true ∧
     (let w : BootIn := {answers := false}
      w.answers = false)) ∧
    (let s : State := State.reset
     s.phase = 1 ∧ s.keeper.phase = .on ∧ tsorted s.regs = true ∧ s.bootDir = none ∧
     (let w : BootIn := {}
      w.answers = true)) ∧
    (let s : State := { fl [] with otp := { (fl []).otp with revoked := 15 } }
     s.phase = 1 ∧ s.keeper.phase = .on ∧ tsorted s.regs = true ∧ s.otp.revoked % 16 = 15 ∧
     ((match s.bootDir with
       | some (dir, b) => decide (
           let w : BootIn := {}
           w.answers = true)
       | _ => false) = true)) ∧
    (let s : State := { State.reset with keeper := { ({} : Keeper) with phase := .off } }
     s.keeper.phase ≠ .on ∧ s.keeper.phase ≠ .reset) ∧
    (let s : State := { State.reset with keeper := { ({} : Keeper) with phase := .reset } }
     s.keeper.phase = .reset) ∧
    (let s : State := base_3
     s.keeper.phase = .on ∧
     (let dur : Nat := 0
      dur < 1000)) ∧
    (let s : State := base_3
     s.keeper.phase = .on ∧
     (let dur : Nat := 10000
      10000 ≤ dur)) ∧
    (let s : State := base_3.setReg (dockAddr 0 3 R.MC_CTL) 0x18
     s.keeper.phase = .on ∧
     (let dur : Nat := 1000
      1000 ≤ dur ∧ dur < 10000)) ∧
    (let s : State := base_3
     let d : Nat := 0
     s.hasDie d = true ∧
     (let k : Nat := 3
      k < 16 ∧
      (let c := dockAddr d k R.MC_CTL
       let at_ : Nat := 0
       let u := s.at at_
       tsorted u.regs = true ∧ tsorted u.cstore = true ∧ u.flag c 4 = false))) ∧
    (let s : State := (base_3.setReg (dockAddr 0 3 R.MC_CTL) 0x18).setReg (dockAddr 0 3 R.MC_LADDR) 4095
     let d : Nat := 0
     s.hasDie d = true ∧
     (let k : Nat := 3
      k < 16 ∧
      (let c := dockAddr d k R.MC_CTL
       let at_ : Nat := 0
       let u := s.at at_
       tsorted u.regs = true ∧ tsorted u.cstore = true ∧ u.flag c 4 = true))) ∧
    (let s : State := base_3
     let at_ : Nat := 0
     let u := s.at at_
     (u.newRepairs = [] ∨ u.serving = false)) ∧
    (let s : State := rr
     let at_ : Nat := 0
     let u := s.at at_
     u.newRepairs ≠ [] ∧ u.serving = true ∧
     ((match u.directory (if u.flag R.HB_BOOTSTAT 16 then 0x10000 else 0) with
       | some dir => decide (
           ((match repairBase dir with
             | some base_3 => decide (True)
             | _ => false) = true))
       | _ => false) = true)) ∧
    (let s : State := base_3
     let b : Nat := 0
     s.waiter b .time = none) ∧
    (let s : State := { base_3 with berths := [(0, { berth0 {} with started := false })], pages := [(200, w32 ownPage), (201, w32 ownPage)], slots := [(0,1)], flying := [{ op := 0x18, cmd := host 0x18 0 0 0 (leBytes 8 1000) [], why := .time }] }
     let b : Nat := 0
     ((match s.waiter b .time with
       | some f => decide (
           let u := s.at (f.cmd.p 24 8)
           let w := { u with flying := u.flying.erase f }
           b < u.part.berthIds ∧ w.startHeld = false ∧ f.cmd.p 24 8 ≤ u.htime % 2 ^ 64 ∧
           ((match w.berth b with
             | some x => decide (
                 x.id = b ∧ x.stateNo = 0 ∧ w.berthDown x = [] ∧
                 ((match (w.startBerth x).berth b with
                   | some y => decide ((y.htimeMode = false))
                   | _ => false) = true))
             | _ => false) = true))
       | _ => false) = true)) := by
  refine ⟨?_, ?_, ?_, ?_, ?_, ?_, ?_, ?_, ?_, ?_, ?_, ?_, ?_, ?_, ?_⟩ <;> decide +kernel

/-- The hypotheses of Obligations.KeeperPowersWakesAndCounts can be met. -/
theorem witness_KeeperPowersWakesAndCounts :
    (let s : State := base_3
     s.keeper.phase ≠ .wait) ∧
    (let s : State := ph .wait base_3
     s.keeper.phase = .wait) ∧
    (let s : State := base_3
     s.keeper.vkeep = true) ∧
    (let s : State := { base_3 with keeper := { base_3.keeper with vkeep := false } }
     s.keeper.vkeep = false) ∧
    (let s : State := ph .wait base_3
     tsorted s.regs = true ∧ s.keeper.phase = .wait) ∧
    (let s : State := base_3
     tsorted s.regs = true ∧ (s.keeper.phase = .on ∨ s.keeper.phase = .reset)) ∧
    (let s : State := ph .wait base_3
     tsorted s.regs = true ∧ s.keeper.phase ≠ .on ∧ s.keeper.phase ≠ .reset) ∧
    (let s : State := base_3
     tsorted s.regs = true ∧ s.keeper.phase ≠ .shut) ∧
    (let s : State := (ph .shut base_3).setReg R.KP_STAT 0x80
     tsorted s.regs = true ∧
     (let q := s.reg R.KP_SEQ
      let a := 1 + bitsOf q 23 16
      let b := a + bitsOf q 15 8
      s.keeper.phase = .shut ∧
      (let ms : Nat := 0
       ms < b + bitsOf q 7 0))) ∧
    (let s : State := (ph .shut base_3).setReg R.KP_STAT 0x80
     tsorted s.regs = true ∧ s.keeper.phase = .shut ∧
     (let ms : Nat := ((ph .shut base_3).setReg R.KP_STAT 0x80).holdoffAt
      s.holdoffAt ≤ ms)) ∧
    (let s : State := base_3
     let r : Requester := .ep 0
     let at_ : Nat := 0
     let u := s.at at_
     (u.gate r R.KP_SHUT true).1 = none) ∧
    (let s : State := base_3
     let r : Requester := .master
     let at_ : Nat := 0
     let u := s.at at_
     u.keeper.vkeep = true ∧ u.keeper.phase = .on ∧ tsorted u.regs = true ∧
     ((match (u.gate r R.KP_SHUT true).1 with
       | some l => decide (True)
       | _ => false) = true)) ∧
    (let s : State := wk_2 0x1111 0 ({ base_3 with keeper := { base_3.keeper with vkeep := false } })
     let n : Nat := 0
     n < 4 ∧
     (let at_ : Nat := 0
      let u := s.kat at_
      u.keeper.vkeep = false)) ∧
    (let s : State := wk_2 0x1111 0 base_3
     let n : Nat := 0
     n < 4 ∧
     (let at_ : Nat := 0
      let u := s.kat at_
      u.keeper.vkeep = true ∧ tsorted u.regs = true)) ∧
    (let s : State := base_3
     let n : Nat := 0
     let at_ : Nat := 0
     let u := s.kat at_
     (u.keeper.vkeep = false ∨ n = 0)) ∧
    (let s : State := base_3
     let n : Nat := 1
     n ≠ 0 ∧
     (let at_ : Nat := 0
      let u := s.kat at_
      u.keeper.vkeep = true ∧ u.cal.ok = true ∧ tsorted u.regs = true)) ∧
    (let s : State := base_3
     let r : Requester := .jtag
     let at_ : Nat := 0
     let u := s.at at_
     (u.gate r R.KP_CALCTL true).1 = none) ∧
    (let s : State := base_3
     let r : Requester := .master
     let at_ : Nat := 0
     let u := s.at at_
     u.keeper.vkeep = true ∧ tsorted u.regs = true ∧
     ((match (u.gate r R.KP_CALCTL true).1 with
       | some l => decide (True)
       | _ => false) = true)) := by
  refine ⟨?_, ?_, ?_, ?_, ?_, ?_, ?_, ?_, ?_, ?_, ?_, ?_, ?_, ?_, ?_, ?_, ?_, ?_⟩ <;> decide +kernel

/-- The hypotheses of Obligations.PinsTachometersAdcAndReference can be met. -/
theorem witness_PinsTachometersAdcAndReference :
    (let s : State := base_3
     let r : Requester := .ep 0
     let n : Nat := 0
     n < 48 ∧
     (let a := R.GP_CFG + 4 * n
      let at_ : Nat := 0
      let u := s.at at_
      (u.gate r a true).1 = none)) ∧
    (let s : State := base_3
     let r : Requester := .master
     let n : Nat := 0
     n < 48 ∧
     (let a := R.GP_CFG + 4 * n
      let at_ : Nat := 0
      let u := s.at at_
      tsorted u.regs = true ∧
      ((match (u.gate r a true).1 with
        | some l => decide (True)
        | _ => false) = true))) ∧
    (let s : State := sw 13 1000 1000 false
     let since := fun T => (s.htime - T) * s.dclk 0 / 1000
     let n : Nat := 13
     n < 48 ∧
     ((match s.switchOf n with
       | some w => decide ((since w.first < 2) ∧ (since w.last < 3))
       | _ => false) = true)) ∧
    (let s : State := sw 13 995 1000 false
     let since := fun T => (s.htime - T) * s.dclk 0 / 1000
     let n : Nat := 13
     n < 48 ∧
     ((match s.switchOf n with
       | some w => decide ((2 ≤ since w.first) ∧ (since w.last < 3) ∧ (w.kept = false))
       | _ => false) = true)) ∧
    (let s : State := swd 13 100 100 true
     let since := fun T => (s.htime - T) * s.dclk 0 / 1000
     let n : Nat := 13
     n < 48 ∧
     (let t := s.pinEdges n
      ((match s.switchOf n with
        | some w => decide (
            3 ≤ since w.last ∧
            ((match t.padDrive n with
              | some lv => decide (True)
              | _ => false) = true))
        | _ => false) = true))) ∧
    (let s : State := base_3
     let r : Requester := .ep 0
     let j : Nat := 0
     j < 4 ∧
     (let a := R.GP_OUTLO + 4 * j
      let at_ : Nat := 0
      let u := s.at at_
      (u.gate r a true).1 = none)) ∧
    (let s : State := base_3
     let r : Requester := .master
     let j : Nat := 0
     j < 4 ∧
     (let a := R.GP_OUTLO + 4 * j
      let at_ : Nat := 0
      let u := s.at at_
      tsorted u.regs = true ∧
      ((match (u.gate r a true).1 with
        | some l => decide (True)
        | _ => false) = true))) ∧
    (let s : State := drv 13
     let n : Nat := 13
     n < 48 ∧
     (let at_ : Nat := 0
      let u := s.at at_
      ((match u.padDrive n with
        | some lv => decide (True)
        | _ => false) = true))) ∧
    (let s : State := pin 13 0x18 true base_3
     let n : Nat := 13
     n < 48 ∧
     (let at_ : Nat := 0
      let u := s.at at_
      u.padDrive n = none)) ∧
    (let s : State := pin 13 0x18 true base_3
     let n : Nat := 13
     n < 48 ∧
     (let at_ : Nat := 0
      let u := s.at at_
      u.padDrive n = none ∧ tsorted u.regs = true ∧
      (let level : Bool := false
       bitOf u.pads n ≠ level))) ∧
    (let s : State := base_3
     let at_ : Nat := 0
     let u := s.at at_
     tsorted u.regs = true ∧ u.nextChannel = none) ∧
    (let s : State := (base_3.setReg (R.GP_CFG + 4 * 41) 0x1a).setReg R.GP_ADCCTL 2
     let at_ : Nat := 0
     let u := s.at at_
     tsorted u.regs = true ∧
     ((match u.nextChannel with
       | some c => decide (True)
       | _ => false) = true)) ∧
    (let s : State := base_3
     let u := s.at ((s.htime / 1000000000 + 1) * 1000000000)
     tsorted u.regs = true ∧ tsorted u.toggles = true) := by
  refine ⟨?_, ?_, ?_, ?_, ?_, ?_, ?_, ?_, ?_, ?_, ?_, ?_, ?_⟩ <;> decide +kernel

/-- The hypotheses of Obligations.MctpAndSpdmAreAnswered can be met. -/
theorem witness_MctpAndSpdmAreAnswered :
    (let s : State := base_3
     let at_ : Nat := 0
     let v := s.at at_
     tsorted v.regs = true) ∧
    (let s : State := { base_3 with hmHalt := true }
     let t : Nat := 0
     let at_ : Nat := 0
     let v := s.at at_
     let answers := v.keeper.phase = .on ∧ v.hmHalt = false ∧ (t = 0 ∨ (t ≤ v.part.endpoints ∧ (v.ep (t - 1)).link = true ∧ (v.ep (t - 1)).perst = false))
     (¬ answers) ∧
     (let a : Nat := 0
      let b : Nat := 0
      let c : Nat := 0
      let cmd : Cmd := cm 0 []
      let req : List Byte := []
      let sg : Bool := true
      let i : Instr := .mctpStatus ⟨t, at_⟩
      i ∈ ([.mctpCommand t cmd at_, .mctpStatus ⟨t, at_⟩, .setEndpointId t b at_, .getEndpointId t at_, .getMctpVersionSupport ⟨t, at_⟩, .getMessageTypeSupport ⟨t, at_⟩, .getVersion ⟨t, at_⟩, .getCapabilities ⟨t, at_⟩ req, .negotiateAlgorithms ⟨t, at_⟩ req, .getDigests ⟨t, at_⟩, .getCertificate ⟨t, at_⟩ a b c, .challenge ⟨t, at_⟩ req, .getMeasurements ⟨t, at_⟩ sg a req, .keyExchange ⟨t, at_⟩ a req, .finish ⟨t, at_⟩ a req, .endSession ⟨t, at_⟩ a] : List Instr))) ∧
    (let s : State := base_3
     let t : Nat := 0
     let at_ : Nat := 0
     let v := s.at at_
     let answers := v.keeper.phase = .on ∧ v.hmHalt = false ∧ (t = 0 ∨ (t ≤ v.part.endpoints ∧ (v.ep (t - 1)).link = true ∧ (v.ep (t - 1)).perst = false))
     answers ∧
     (let eid : Nat := 0
      (eid % 256 = 0 ∨ eid % 256 = 255))) ∧
    (let s : State := base_3
     let t : Nat := 0
     let at_ : Nat := 0
     let v := s.at at_
     let answers := v.keeper.phase = .on ∧ v.hmHalt = false ∧ (t = 0 ∨ (t ≤ v.part.endpoints ∧ (v.ep (t - 1)).link = true ∧ (v.ep (t - 1)).perst = false))
     let u := v.hicSet 0 497
     answers ∧ tsorted u.eids = true ∧
     (let eid : Nat := 9
      eid % 256 ≠ 0 ∧ eid % 256 ≠ 255)) ∧
    (let s : State := State.reset
     let t : Nat := 0
     let at_ : Nat := 0
     let v := s.at at_
     let answers := v.keeper.phase = .on ∧ v.hmHalt = false ∧ (t = 0 ∨ (t ≤ v.part.endpoints ∧ (v.ep (t - 1)).link = true ∧ (v.ep (t - 1)).perst = false))
     let u := v.hicSet 0 497
     answers ∧ u.serving = false) ∧
    (let s : State := base_3
     let t : Nat := 0
     let at_ : Nat := 0
     let v := s.at at_
     let answers := v.keeper.phase = .on ∧ v.hmHalt = false ∧ (t = 0 ∨ (t ≤ v.part.endpoints ∧ (v.ep (t - 1)).link = true ∧ (v.ep (t - 1)).perst = false))
     let u := v.hicSet 0 497
     answers ∧ u.serving = true ∧
     (let c : Cmd := cm 0 []
      let op := c.opcode
      let known := op ∈ [0x01, 0x02, 0x1C, 0x06, 0x05, 0x39, 0x30, 0x31]
      (¬ known))) ∧
    (let s : State := { base_3 with flying := [{ op := 0x18, cmd := cm 0 [], why := .time }] }
     let t : Nat := 0
     let at_ : Nat := 0
     let v := s.at at_
     let answers := v.keeper.phase = .on ∧ v.hmHalt = false ∧ (t = 0 ∨ (t ≤ v.part.endpoints ∧ (v.ep (t - 1)).link = true ∧ (v.ep (t - 1)).perst = false))
     let u := v.hicSet 0 497
     answers ∧ u.serving = true ∧
     (let c : Cmd := opc 0x1C (cm 64 [])
      let z := { c with ep := 2, ring := t, memOk := true }
      let op := c.opcode
      let known := op ∈ [0x01, 0x02, 0x1C, 0x06, 0x05, 0x39, 0x30, 0x31]
      known ∧ u.mayStart op z = false)) ∧
    (let s : State := base_3
     let t : Nat := 0
     let at_ : Nat := 0
     let v := s.at at_
     let answers := v.keeper.phase = .on ∧ v.hmHalt = false ∧ (t = 0 ∨ (t ≤ v.part.endpoints ∧ (v.ep (t - 1)).link = true ∧ (v.ep (t - 1)).perst = false))
     let u := v.hicSet 0 497
     answers ∧ u.serving = true ∧
     (let c : Cmd := opc 1 (raw (cm 0 []) 20 1)
      let z := { c with ep := 2, ring := t, memOk := true }
      let op := c.opcode
      let known := op ∈ [0x01, 0x02, 0x1C, 0x06, 0x05, 0x39, 0x30, 0x31]
      known ∧ u.mayStart op z = true ∧ reservedSet op z = true)) ∧
    (let op := 0x01
     let known := op ∈ [0x01, 0x02, 0x1C, 0x06, 0x05, 0x39, 0x30, 0x31]
     known ∧
     (let s : State := base_3
      let t : Nat := 0
      let at_ : Nat := 0
      let v := s.at at_
      let answers := v.keeper.phase = .on ∧ v.hmHalt = false ∧ (t = 0 ∨ (t ≤ v.part.endpoints ∧ (v.ep (t - 1)).link = true ∧ (v.ep (t - 1)).perst = false))
      let u := v.hicSet 0 497
      answers ∧ u.serving = true ∧
      (let c : Cmd := cm 0 []
       let z := { c with ep := 2, ring := t, memOk := true }
       let op := c.opcode
       u.mayStart op z = true ∧ reservedSet op z = false ∧ u.noDeputy op z = false))) ∧
    (let op := 0x02
     let known := op ∈ [0x01, 0x02, 0x1C, 0x06, 0x05, 0x39, 0x30, 0x31]
     known ∧
     (let s : State := base_3
      let t : Nat := 0
      let at_ : Nat := 0
      let v := s.at at_
      let answers := v.keeper.phase = .on ∧ v.hmHalt = false ∧ (t = 0 ∨ (t ≤ v.part.endpoints ∧ (v.ep (t - 1)).link = true ∧ (v.ep (t - 1)).perst = false))
      let u := v.hicSet 0 497
      answers ∧ u.serving = true ∧
      (let c : Cmd := cm 0 []
       let z := { c with ep := 2, ring := t, memOk := true }
       let op := c.opcode
       u.mayStart op z = true ∧ reservedSet op z = false ∧ u.noDeputy op z = false))) ∧
    (let op := 0x06
     let known := op ∈ [0x01, 0x02, 0x1C, 0x06, 0x05, 0x39, 0x30, 0x31]
     known ∧
     (let s : State := base_3
      let t : Nat := 0
      let at_ : Nat := 0
      let v := s.at at_
      let answers := v.keeper.phase = .on ∧ v.hmHalt = false ∧ (t = 0 ∨ (t ≤ v.part.endpoints ∧ (v.ep (t - 1)).link = true ∧ (v.ep (t - 1)).perst = false))
      let u := v.hicSet 0 497
      answers ∧ u.serving = true ∧
      (let c : Cmd := cm 0 []
       let z := { c with ep := 2, ring := t, memOk := true }
       let op := c.opcode
       u.mayStart op z = true ∧ reservedSet op z = false ∧ u.noDeputy op z = false))) ∧
    (let op := 0x1C
     let known := op ∈ [0x01, 0x02, 0x1C, 0x06, 0x05, 0x39, 0x30, 0x31]
     known ∧
     (let s : State := base_3
      let t : Nat := 0
      let at_ : Nat := 0
      let v := s.at at_
      let answers := v.keeper.phase = .on ∧ v.hmHalt = false ∧ (t = 0 ∨ (t ≤ v.part.endpoints ∧ (v.ep (t - 1)).link = true ∧ (v.ep (t - 1)).perst = false))
      let u := v.hicSet 0 497
      answers ∧ u.serving = true ∧
      (let c : Cmd := cm 0 []
       let z := { c with ep := 2, ring := t, memOk := true }
       let op := c.opcode
       u.mayStart op z = true ∧ reservedSet op z = false ∧ u.noDeputy op z = false))) ∧
    (let op := 0x05
     let known := op ∈ [0x01, 0x02, 0x1C, 0x06, 0x05, 0x39, 0x30, 0x31]
     known ∧
     (let s : State := base_3
      let t : Nat := 0
      let at_ : Nat := 0
      let v := s.at at_
      let answers := v.keeper.phase = .on ∧ v.hmHalt = false ∧ (t = 0 ∨ (t ≤ v.part.endpoints ∧ (v.ep (t - 1)).link = true ∧ (v.ep (t - 1)).perst = false))
      let u := v.hicSet 0 497
      answers ∧ u.serving = true ∧
      (let c : Cmd := cm 0 []
       let z := { c with ep := 2, ring := t, memOk := true }
       let op := c.opcode
       u.mayStart op z = true ∧ reservedSet op z = false ∧ u.noDeputy op z = false))) ∧
    (let op := 0x39
     let known := op ∈ [0x01, 0x02, 0x1C, 0x06, 0x05, 0x39, 0x30, 0x31]
     known ∧
     (let s : State := base_3
      let t : Nat := 0
      let at_ : Nat := 0
      let v := s.at at_
      let answers := v.keeper.phase = .on ∧ v.hmHalt = false ∧ (t = 0 ∨ (t ≤ v.part.endpoints ∧ (v.ep (t - 1)).link = true ∧ (v.ep (t - 1)).perst = false))
      let u := v.hicSet 0 497
      answers ∧ u.serving = true ∧
      (let c : Cmd := cm 0 []
       let z := { c with ep := 2, ring := t, memOk := true }
       let op := c.opcode
       u.mayStart op z = true ∧ reservedSet op z = false ∧ u.noDeputy op z = false))) ∧
    (let op := 0x30
     let known := op ∈ [0x01, 0x02, 0x1C, 0x06, 0x05, 0x39, 0x30, 0x31]
     known ∧
     (let s : State := base_3
      let t : Nat := 0
      let at_ : Nat := 0
      let v := s.at at_
      let answers := v.keeper.phase = .on ∧ v.hmHalt = false ∧ (t = 0 ∨ (t ≤ v.part.endpoints ∧ (v.ep (t - 1)).link = true ∧ (v.ep (t - 1)).perst = false))
      let u := v.hicSet 0 497
      answers ∧ u.serving = true ∧
      (let c : Cmd := cm 0 []
       let z := { c with ep := 2, ring := t, memOk := true }
       let op := c.opcode
       u.mayStart op z = true ∧ reservedSet op z = false ∧ u.noDeputy op z = false))) ∧
    (let op := 0x31
     let known := op ∈ [0x01, 0x02, 0x1C, 0x06, 0x05, 0x39, 0x30, 0x31]
     known ∧
     (let s : State := base_3
      let t : Nat := 0
      let at_ : Nat := 0
      let v := s.at at_
      let answers := v.keeper.phase = .on ∧ v.hmHalt = false ∧ (t = 0 ∨ (t ≤ v.part.endpoints ∧ (v.ep (t - 1)).link = true ∧ (v.ep (t - 1)).perst = false))
      let u := v.hicSet 0 497
      answers ∧ u.serving = true ∧
      (let c : Cmd := cm 0 []
       let z := { c with ep := 2, ring := t, memOk := true }
       let op := c.opcode
       u.mayStart op z = true ∧ reservedSet op z = false ∧ u.noDeputy op z = false))) ∧
    (let s : State := State.reset
     let t : Nat := 0
     let at_ : Nat := 0
     (s.at at_).answersMctp t = true ∧
     (let u := (s.at at_).hicSet 0 497
      u.serving = false ∧
      (let a : Nat := 0
       let b : Nat := 0
       let c : Nat := 0
       let req : List Byte := []
       let sg : Bool := true
       let i : Instr := .getVersion ⟨t, at_⟩
       i ∈ ([.getVersion ⟨t, at_⟩, .getCapabilities ⟨t, at_⟩ req, .negotiateAlgorithms ⟨t, at_⟩ req, .getDigests ⟨t, at_⟩, .getCertificate ⟨t, at_⟩ a b c, .challenge ⟨t, at_⟩ req, .getMeasurements ⟨t, at_⟩ sg a req, .keyExchange ⟨t, at_⟩ a req, .finish ⟨t, at_⟩ a req, .endSession ⟨t, at_⟩ a] : List Instr)))) ∧
    (let s : State := base_3
     let t : Nat := 0
     let at_ : Nat := 0
     (s.at at_).answersMctp t = true ∧
     (let u := (s.at at_).hicSet 0 497
      u.serving = true ∧ u.chain = none)) ∧
    (let s : State := { base_3 with attKey := some [], chain := some (List.replicate 300 7), sessions := [⟨1,false⟩,⟨2,true⟩], eids := [(1,9)] }
     let t : Nat := 0
     let at_ : Nat := 0
     (s.at at_).answersMctp t = true ∧
     (let u := (s.at at_).hicSet 0 497
      u.serving = true ∧
      ((match u.chain with
        | some l => decide (
            let a : Nat := 1
            a ≠ 0)
        | _ => false) = true))) ∧
    (let s : State := { base_3 with attKey := some [], chain := some (List.replicate 300 7), sessions := [⟨1,false⟩,⟨2,true⟩], eids := [(1,9)] }
     let t : Nat := 0
     let at_ : Nat := 0
     (s.at at_).answersMctp t = true ∧
     (let u := (s.at at_).hicSet 0 497
      u.serving = true ∧
      ((match u.chain with
        | some l => decide (
            let off : Nat := 0
            let len : Nat := 1
            off + len ≤ l.length)
        | _ => false) = true))) ∧
    (let s : State := base_3
     let t : Nat := 0
     let at_ : Nat := 0
     (s.at at_).answersMctp t = true ∧
     (let u := (s.at at_).hicSet 0 497
      u.serving = true ∧ u.attKey = none)) ∧
    (let s : State := { base_3 with attKey := some [], chain := some [1,2,3,4,5,6,7,8], sessions := [⟨1,false⟩,⟨2,true⟩,⟨5,true⟩,⟨6,true⟩] }
     let t : Nat := 0
     let at_ : Nat := 0
     (s.at at_).answersMctp t = true ∧
     (let u := (s.at at_).hicSet 0 497
      u.serving = true ∧ u.attKey ≠ none ∧ 4 ≤ u.sessions.length)) ∧
    (let s : State := { base_3 with attKey := some [], chain := some (List.replicate 300 7), sessions := [⟨1,false⟩,⟨2,true⟩], eids := [(1,9)] }
     let t : Nat := 0
     let at_ : Nat := 0
     (s.at at_).answersMctp t = true ∧
     (let u := (s.at at_).hicSet 0 497
      u.serving = true ∧ u.attKey ≠ none ∧ u.sessions.length < 4)) ∧
    (let s : State := base_3
     let t : Nat := 0
     let at_ : Nat := 0
     (s.at at_).answersMctp t = true ∧
     (let u := (s.at at_).hicSet 0 497
      u.serving = true ∧
      (let a : Nat := 1
       0 < a ∧ a ≤ 16 * u.part.dies))) ∧
    (let s : State := base_3
     let t : Nat := 0
     let at_ : Nat := 0
     (s.at at_).answersMctp t = true ∧
     (let u := (s.at at_).hicSet 0 497
      u.serving = true)) ∧
    (let s : State := base_3
     let t : Nat := 0
     let at_ : Nat := 0
     (s.at at_).answersMctp t = true ∧
     (let u := (s.at at_).hicSet 0 497
      u.serving = true)) := by
  refine ⟨?_, ?_, ?_, ?_, ?_, ?_, ?_, ?_, ?_, ?_, ?_, ?_, ?_, ?_, ?_, ?_, ?_, ?_, ?_, ?_, ?_, ?_, ?_, ?_, ?_, ?_⟩ <;> decide +kernel

/-- Berth 0 of s0, its code at its PC, fetches the words of instruction i and spends n microcycles. -/
def begun (i : Instr) (n : Nat) : Option (State × Berth) := (withCode i s0).spend 0 ((encode i).getD []) n

/-- The instructions of SystemGroupResults begin, and a flag value agrees with the six low bits that WRFL reads. -/
theorem witness_SystemGroupResults_begins :
    ([.nop 0, .ei 0, .di 0, .halt 0, .ldseg 0 3 (.imm 9), .ldseg 0 6 (.reg 10), .rdfl 0 7, .wrfl 0 1, .movi 0 3 (.short 0x7F)] : List Instr).all
        (fun i => (encode i).isSome && (begun i 2).isSome) = true ∧
      (match begun (.wrfl 0 1) 2 with
        | some p => (List.range 6).all (fun n => ({ c := true, ie := true } : Flags).word.getLsbD n == (p.2.side.core.w.get 1).getLsbD n)
        | none => false) = true := by
  decide +kernel

/-- The instructions of ArithmeticResults begin. -/
theorem witness_ArithmeticResults_begins :
    ([.add 0 3 4, .adc 0 3 4, .sub 0 3 4, .sbc 0 3 4, .cmp 0 3 4, .neg 0 3 4, .addi 0 2 5, .cmpi 0 0 0x40] : List Instr).all
      (fun i => (encode i).isSome && (begun i 2).isSome) = true := by
  decide +kernel

/-- The instructions of LogicAndMoveResults begin. -/
theorem witness_LogicAndMoveResults_begins :
    ([.and 0 1 2, .or 0 1 2, .xor 0 1 2, .tst 0 1 2, .mov 0 1 2, .not 0 1 2, .andi 0 1 0xFF] : List Instr).all
      (fun i => (encode i).isSome && (begun i 2).isSome) = true := by
  decide +kernel

/-- The instructions of ShiftsMoveOneBitAtATime begin, with a count of 0 and one of 15. -/
theorem witness_ShiftsMoveOneBitAtATime_begins :
    ([.shl 0 4 0, .shr 0 4 7, .sar 0 4 15, .rol 0 4 7, .ror 0 4 7, .rcl 0 4 15, .rcr 0 4 7] : List Instr).all
      (fun i => (encode i).isSome && (begun i 2).isSome) = true := by
  decide +kernel

/-- The instructions of BranchesAndJumps begin, with a condition that holds and one that does not. -/
theorem witness_BranchesAndJumps_begins :
    ([.bcc 0 .bne 5, .bcc 0 .beq 0x80, .jmp 0 (.reg 15), .jmp 0 (.ext 0x1234)] : List Instr).all
        (fun i => (encode i).isSome && (begun i 3).isSome) = true ∧
      (begun (.bcc 0 .bne 5) 3).map (fun p => p.2.side.core.fl.z) = some false := by
  decide +kernel

/-- A path of HarbourTimeEvents with moderation off, and an endpoint of ResetStandsAtColdReset. -/
theorem witness_small_values : ∃ cnt tim e : Nat, cnt = 0 ∧ tim = 0 ∧ e < 2 := ⟨0, 0, 1, by decide⟩

/-- The gate grants and denies the writes of HarbourWritesWithARowOfTheirOwn and BootMeasurementAndControlStore. -/
theorem witness_gated_writes :
    [R.HT_GO, dieAddr 0 0x1000C, dieAddr 0 R.HIC_EOI, dieAddr 0 R.LG_FENCE, quayAddr 3 R.QY_INJSEED, dieAddr 0 R.MS_EXTGO, dockAddr 0 3 R.MC_LADDR,
      dockAddr 0 3 R.MC_LDATA2, dockAddr 0 3 R.MC_LEND, dockAddr 0 3 R.MC_CTL].all (fun a =>
        ((base.at 6).gate .master a true).1.isSome && ((base.at 6).gate (.ep 9) a true).1.isNone) = true := by
  decide +kernel

/-- The gate grants and denies the ring writes of RingsAndDoorbells, to an endpoint of the part and to one the part does not have. -/
theorem witness_gated_rings :
    [0, 1].all (fun e => [0, 0x10C, 0x11C, 0x1C].all (fun o =>
        ((base.at 6).gate (.deputy 0) (ringBase e + o) true).1.isSome && ((base.at 6).gate (.ep 9) (ringBase e + o) true).1.isNone)) = true ∧
      (let s : State := { base with part := .sx2 }
       s.eps.length = 2 ∧ s.part.endpoints ≤ 1 ∧ ((s.at 6).gate (.deputy 0) (ringBase 1) true).1.isSome = true) := by
  decide +kernel

/-- A front command and an empty queue: StepRunsTheFrontCommand. -/
theorem witness_StepRunsTheFrontCommand :
    ({ State.reset with pending := [.nop 0, .pwrgdRise] } : State).pending = .nop 0 :: [.pwrgdRise] ∧ State.reset.pending = [] := by
  decide +kernel

/-- A well-formed instruction that spells words, and words that decode: DecodeInvertsEncode. -/
theorem witness_DecodeInvertsEncode :
    wellFormed (.add 0 3 4) = true ∧ encode (.add 0 3 4) = some [0x1134] ∧ decodeWords 0 [0x1134] = some (.add 0 3 4, []) := by
  decide +kernel

/-- A step that answers a next state, from a state whose cellar is in canonical form: EveryStepKeepsTheCellarCanonical. -/
theorem witness_EveryStepKeepsTheCellarCanonical :
    (match step { s0 with pending := [.nop 0] } with
      | .next _ => Memory.wf s0.mem
      | _ => false) = true := by
  decide +kernel

/-- A command whose units exist, and one whose unit does not and that faults: CommandsCompleteWhereTheirUnitsExist. -/
theorem witness_CommandsCompleteWhereTheirUnitsExist :
    unitsExist s0 (.rowRepairStart 0 0 0) = true ∧ unitsExist s0 (.keeperWake 4 false 0) = false ∧
      (match exec (.keeperWake 4 false 0) s0 with
        | .fault (.noSuchUnit _) => true
        | _ => false) = true := by
  decide +kernel

end Sys2Proof.Tests
end

