-- ==== Sys2Proof/Tests/Images.lean ====
section
/-! SUPPORT. Signed images in flash that verify, and with them concrete values that meet the hypotheses of the two clauses that need an image.
SHA-384 and the ECDSA check are constants with no body (assumption log 23): the images hold the digests as terms, and the signature check answers
true by hypothesis. -/

namespace Sys2Proof.Tests

set_option Elab.async false
open Sys2Proof Sys2Proof.Machine

/-- An image header with zeros for KEY, SVN, the public key and the signature (Table 16-3). -/
def imgHead (typ : Byte) (len : Nat) (digest : List Byte) : List Byte :=
  [0x57, 0x4C, 0x49, 0x4D, typ, 0, 0, 0, 255, 255, 255, 255, 0, 0, 0, 0] ++ le32 len ++ List.replicate 12 0 ++ digest ++ List.replicate 432 0

/-- A profile of the compact class. -/
def goodDesc : List Byte :=
  let g := storedGeo 0
  [1, 0, 0, 4] ++ leBytes 2 0 ++ leBytes 2 2 ++ [8, 0, 0, 0, 1, 0] ++ leBytes 2 0 ++ leBytes 2 700 ++ leBytes 2 700 ++ leBytes 2 700 ++ leBytes 2 700 ++
    leBytes 2 g.htotal ++ leBytes 2 g.hvis ++ leBytes 2 g.hsyncs ++ leBytes 2 g.hsyncw ++ leBytes 2 g.vtotal ++ leBytes 2 g.vvis ++
    leBytes 2 g.vsyncs ++ leBytes 2 g.vsyncw ++ leBytes 4 g.inc ++ leBytes 4 1000 ++ List.replicate 80 0

def profPay : List Byte := goodDesc ++ List.replicate 384 0

/-- The bytes of a control store image that the CRC covers: four set the CRC's register to zero, and zeros keep it so. -/
def mcBody : List Byte := List.replicate 4 255 ++ List.replicate 40956 0

/-- What follows them: the CRC, the version and the rest (R578). -/
def mcTail : List Byte := List.replicate 8 255 ++ List.replicate 32 0

def mcPay : List Byte := mcBody ++ mcTail

def e1 : DirEntry := ⟨1, 0, 0, 0x20000, 512⟩
def e2 : DirEntry := ⟨2, 0, 0, 0x40000, 41512⟩
def e3 : DirEntry := ⟨3, 0, 0, 0x30000, 1024⟩

def dirOf : List Byte := dirBytes [ent 1 0 0 0x20000 512, ent 2 0 0 0x40000 41512, ent 3 0 0 0x30000 1024]

/-- Flash with a directory and three signed images. -/
def images : List (Nat × List Byte) :=
  [(0, dirOf), (0x20000, imgHead 1 0 (sha384 [])), (0x30000, imgHead 3 512 (sha384 profPay)), (0x30200, profPay),
    (0x40000, imgHead 2 41000 (sha384 mcPay)), (0x40200, mcPay)]

/-- A state with those images, and OTP with the hash of their key. -/
def withImages (s : State) : State := { s with flash := images, otp := { s.otp with hashes := [sha384 (List.replicate 97 0)] } }

theorem crc_zeros (n : Nat) : (List.replicate n (0 : Byte)).foldl crcByte 0 = 0 := by
  induction n with
  | zero => rfl
  | succ n ih => rw [List.replicate_succ, List.foldl_cons, show crcByte 0 0 = 0 from by decide]; exact ih

theorem crc_mcBody : crc32 mcBody = 0xFFFFFFFF := by
  rw [crc32, mcBody, List.foldl_append, show (List.replicate 4 (255 : Byte)).foldl crcByte 0xFFFFFFFF = 0 from by decide +kernel, crc_zeros]; rfl

/-- Where one chunk of the flash answers for a range, its bytes are read. -/
theorem flashBytes_chunk (s : State) (off n a : Nat) (l : List Byte) (k : off = a) (z : l.length = n)
    (h : ∀ i, i < n → s.flash.find? (fun e => decide (e.1 ≤ off + i ∧ off + i < e.1 + e.2.length)) = some (a, l)) :
    s.flashBytes off n = l := by
  apply List.ext_getElem
  · simp [State.flashBytes, z]
  · intro i h1 h2
    have hi : i < n := by omega
    simp only [State.flashBytes, List.getElem_map, List.getElem_range, h i hi]
    have : off + i - a = i := by omega
    rw [this, List.getD_eq_getElem?_getD, List.getElem?_eq_getElem h2]; rfl

/-- The checks of R562 on an image whose header and payload are known. -/
theorem verify_known (s : State) (e : DirEntry) (h p : List Byte) (len : Nat) (hh : s.flashBytes e.off 512 = h)
    (hl : ofLe ((h.drop 16).take 4) = len) (hp : s.flashBytes (e.off + 512) len = p)
    (magic : (h.drop 0).take 4 = [0x57, 0x4C, 0x49, 0x4D]) (typ : ofLe ((h.drop 4).take 1) = e.typ) (index : ofLe ((h.drop 5).take 1) = e.index)
    (fits : len + 512 ≤ e.len) (zero : ((h.drop 7).take 1 ++ (h.drop 20).take 12 ++ (h.drop 177).take 239).all (fun b => decide (b = 0)) = true)
    (key : ofLe ((h.drop 6).take 1) = 0) (revoked : bitOf s.otp.revoked 0 = false) (hash : sha384 ((h.drop 80).take 97) = s.otp.hashes.getD 0 [])
    (svn : s.otp.svn.getD e.typ 0 ≤ ofLe ((h.drop 12).take 4)) (sig : ∀ k m g, Config.ecdsaOk k m g = true)
    (digest : sha384 p = (h.drop 32).take 48)
    (micro : e.typ = 2 → len = 41000 ∧ ofLe ((p.drop 40964).take 4) = ofLe ((h.drop 8).take 4) ∧
      crc32 (p.take 40960) = ofLe ((p.drop 40960).take 4)) :
    s.verify e = some ⟨(h.drop 0).take 416, ofLe ((h.drop 8).take 4), p, e.copy⟩ := by
  have m2 : ¬ (e.typ = 2 ∧ (len ≠ 41000 ∨ ofLe ((p.drop 40964).take 4) ≠ ofLe ((h.drop 8).take 4) ∨
      crc32 (p.take 40960) ≠ ofLe ((p.drop 40960).take 4))) := by
    rintro ⟨a, b⟩
    obtain ⟨x, y, z⟩ := micro a
    rcases b with b | b | b
    · exact b x
    · exact b y
    · exact b z
  simp only [State.verify, hh, hl, hp, magic, typ, index, zero, key, revoked, hash, sig, digest, m2, ne_eq, not_true_eq_false,
    Nat.not_lt.mpr fits, Nat.not_lt.mpr svn, or_false, if_false, Bool.false_eq_true, Bool.true_eq_false]
  rfl

/-- The middle of three parts. -/
theorem slice_mid (a b c l : List Byte) (m n : Nat) (h : l = a ++ b ++ c) (ha : a.length = m) (hb : b.length = n) :
    (l.drop m).take n = b := by
  subst h ha hb
  rw [List.append_assoc, List.drop_left, List.take_left]

theorem length_sha (p : List Byte) : (sha384 p).length = 48 := by simp only [sha384, List.length_map, List.length_range]

/-- The sixteen bytes before the length of a header. -/
def lead (typ : Byte) : List Byte := [0x57, 0x4C, 0x49, 0x4D, typ, 0, 0, 0, 255, 255, 255, 255, 0, 0, 0, 0]

/-- The first 32 bytes of a header. -/
def lead32 (typ : Byte) (len : Nat) : List Byte := lead typ ++ le32 len ++ List.replicate 12 0

theorem length_lead32 (typ : Byte) (len : Nat) : (lead32 typ len).length = 32 := rfl

theorem head_digest (typ : Byte) (len : Nat) (p : List Byte) : ((imgHead typ len (sha384 p)).drop 32).take 48 = sha384 p :=
  slice_mid (lead32 typ len) (sha384 p) (List.replicate 432 0) _ _ _ rfl rfl (length_sha p)

theorem head_key (typ : Byte) (len : Nat) (p : List Byte) : ((imgHead typ len (sha384 p)).drop 80).take 97 = List.replicate 97 0 :=
  slice_mid (lead32 typ len ++ sha384 p) (List.replicate 97 0) (List.replicate 335 0) _ _ _
    (by rw [List.append_assoc _ (List.replicate 97 0), List.replicate_append_replicate]; rfl)
    (by rw [List.length_append, length_sha, length_lead32]) List.length_replicate

theorem head_zeros (typ : Byte) (len : Nat) (p : List Byte) : ((imgHead typ len (sha384 p)).drop 177).take 239 = List.replicate 239 0 :=
  slice_mid (lead32 typ len ++ sha384 p ++ List.replicate 97 0) (List.replicate 239 0) (List.replicate 96 0) _ _ _
    (by rw [List.append_assoc _ (List.replicate 239 0), List.replicate_append_replicate, List.append_assoc _ (List.replicate 97 0),
      List.replicate_append_replicate]; rfl)
    (by rw [List.length_append, List.length_append, length_sha, length_lead32, List.length_replicate]) List.length_replicate

theorem head_pad (typ : Byte) (len : Nat) (p : List Byte) : ((imgHead typ len (sha384 p)).drop 20).take 12 = List.replicate 12 0 :=
  slice_mid (lead typ ++ le32 len) (List.replicate 12 0) (sha384 p ++ List.replicate 432 0) _ _ _
    (by rw [← List.append_assoc _ (sha384 p)]; rfl) rfl rfl

theorem head_len (typ : Byte) (len : Nat) (p : List Byte) : ((imgHead typ len (sha384 p)).drop 16).take 4 = le32 len :=
  slice_mid (lead typ) (le32 len) (List.replicate 12 0 ++ sha384 p ++ List.replicate 432 0) _ _ _
    (by rw [← List.append_assoc _ (_ ++ _), ← List.append_assoc _ (List.replicate 12 0)]; rfl) rfl rfl

theorem image_ok (s : State) (e : DirEntry) (p : List Byte) (typ : Byte) (len : Nat) (sig : ∀ k m g, Config.ecdsaOk k m g = true)
    (hh : (withImages s).flashBytes e.off 512 = imgHead typ len (sha384 p)) (hp : (withImages s).flashBytes (e.off + 512) len = p)
    (hl : ofLe (le32 len) = len) (ht : ofLe [typ] = e.typ) (hi : e.index = 0) (fits : len + 512 ≤ e.len) (hv : s.otp.revoked = 0) (hs : s.otp.svn = [])
    (micro : e.typ = 2 → len = 41000 ∧ ofLe ((p.drop 40964).take 4) = 4294967295 ∧ crc32 (p.take 40960) = ofLe ((p.drop 40960).take 4)) :
    (withImages s).verify e = some ⟨(imgHead typ len (sha384 p)).take 416, 4294967295, p, e.copy⟩ := by
  have ver : 4294967295 = ofLe (((imgHead typ len (sha384 p)).drop 8).take 4) := by
    rw [show ((imgHead typ len (sha384 p)).drop 8).take 4 = [255, 255, 255, 255] from rfl]; decide +kernel
  rw [ver] at micro ⊢
  refine verify_known _ e (imgHead typ len (sha384 p)) p len hh ?_ hp rfl ht (by rw [hi]; rfl) fits ?_ rfl ?_ ?_ ?_ sig (head_digest _ _ _).symm micro
  · rw [head_len]; exact hl
  · rw [head_pad, head_zeros, show (List.drop 7 (imgHead typ len (sha384 p))).take 1 = [0] from rfl]; decide +kernel
  · show bitOf s.otp.revoked 0 = false
    rw [hv]; rfl
  · rw [head_key]; rfl
  · show s.otp.svn.getD _ 0 ≤ _
    rw [hs]; exact Nat.zero_le _

theorem length_mcPay : mcPay.length = 41000 := by
  simp only [mcPay, mcBody, mcTail, List.length_append, List.length_replicate]

theorem length_imgHead (typ : Byte) (len : Nat) (p : List Byte) : (imgHead typ len (sha384 p)).length = 512 := by
  show (lead32 typ len ++ sha384 p ++ List.replicate 432 0).length = 512
  rw [List.length_append, List.length_append, length_sha, length_lead32, List.length_replicate]

theorem length_dirOf : dirOf.length = 108 := by decide +kernel

theorem length_profPay : profPay.length = 512 := by decide +kernel

/-- A chunk that starts elsewhere is passed over. -/
theorem find_past (c : Nat × List Byte) (r : List (Nat × List Byte)) (x n : Nat) (hn : c.2.length = n) (h : x < c.1 ∨ c.1 + n ≤ x) :
    (c :: r).find? (fun e => decide (e.1 ≤ x ∧ x < e.1 + e.2.length)) = r.find? (fun e => decide (e.1 ≤ x ∧ x < e.1 + e.2.length)) := by
  refine List.find?_cons_of_neg ?_
  rw [hn]; simp only [decide_eq_true_eq]; omega

/-- The chunk that holds an offset is found. -/
theorem find_here (c : Nat × List Byte) (r : List (Nat × List Byte)) (x n : Nat) (hn : c.2.length = n) (h : c.1 ≤ x ∧ x < c.1 + n) :
    (c :: r).find? (fun e => decide (e.1 ≤ x ∧ x < e.1 + e.2.length)) = some c := by
  refine List.find?_cons_of_pos ?_
  rw [hn]; simpa only [decide_eq_true_eq] using h

theorem head1 (s : State) : (withImages s).flashBytes 0x20000 512 = imgHead 1 0 (sha384 []) :=
  flashBytes_chunk _ _ _ _ _ rfl (length_imgHead _ _ _) (fun i h =>
    (find_past _ _ _ _ length_dirOf (Or.inr (by omega))).trans (find_here _ _ _ _ (length_imgHead _ _ _) (by omega)))

theorem head3 (s : State) : (withImages s).flashBytes 0x30000 512 = imgHead 3 512 (sha384 profPay) :=
  flashBytes_chunk _ _ _ _ _ rfl (length_imgHead _ _ _) (fun i h =>
    (find_past _ _ _ _ length_dirOf (Or.inr (by omega))).trans ((find_past _ _ _ _ (length_imgHead _ _ _) (Or.inr (by omega))).trans
      (find_here _ _ _ _ (length_imgHead _ _ _) (by omega))))

theorem pay3 (s : State) : (withImages s).flashBytes 0x30200 512 = profPay :=
  flashBytes_chunk _ _ _ _ _ rfl length_profPay (fun i h =>
    (find_past _ _ _ _ length_dirOf (Or.inr (by omega))).trans ((find_past _ _ _ _ (length_imgHead _ _ _) (Or.inr (by omega))).trans
      ((find_past _ _ _ _ (length_imgHead _ _ _) (Or.inr (by omega))).trans (find_here _ _ _ _ length_profPay (by omega)))))

theorem head2 (s : State) : (withImages s).flashBytes 0x40000 512 = imgHead 2 41000 (sha384 mcPay) :=
  flashBytes_chunk _ _ _ _ _ rfl (length_imgHead _ _ _) (fun i h =>
    (find_past _ _ _ _ length_dirOf (Or.inr (by omega))).trans ((find_past _ _ _ _ (length_imgHead _ _ _) (Or.inr (by omega))).trans
      ((find_past _ _ _ _ (length_imgHead _ _ _) (Or.inr (by omega))).trans ((find_past _ _ _ _ length_profPay (Or.inr (by omega))).trans
        (find_here _ _ _ _ (length_imgHead _ _ _) (by omega))))))

theorem pay2 (s : State) : (withImages s).flashBytes 0x40200 41000 = mcPay :=
  flashBytes_chunk _ _ _ _ _ rfl length_mcPay (fun i h =>
    (find_past _ _ _ _ length_dirOf (Or.inr (by omega))).trans ((find_past _ _ _ _ (length_imgHead _ _ _) (Or.inr (by omega))).trans
      ((find_past _ _ _ _ (length_imgHead _ _ _) (Or.inr (by omega))).trans ((find_past _ _ _ _ length_profPay (Or.inr (by omega))).trans
        ((find_past _ _ _ _ (length_imgHead _ _ _) (Or.inr (by omega))).trans (find_here _ _ _ _ length_mcPay (by omega)))))))

theorem mcPay_parts : mcPay.take 40960 = mcBody ∧ mcPay.drop 40960 = mcTail ∧ mcPay.drop 40964 = mcTail.drop 4 := by
  have l : mcBody.length = 40960 := by simp only [mcBody, List.length_append, List.length_replicate]
  refine ⟨?_, ?_, ?_⟩
  · exact List.take_left' l
  · exact List.drop_left' l
  · rw [show (40964 : Nat) = 40960 + 4 from rfl, ← List.drop_drop, mcPay, List.drop_left' l]

theorem image1 (s : State) (sig : ∀ k m g, Config.ecdsaOk k m g = true) (hv : s.otp.revoked = 0) (hs : s.otp.svn = []) :
    (withImages s).verify e1 = some ⟨(imgHead 1 0 (sha384 [])).take 416, 4294967295, [], 0⟩ :=
  image_ok s e1 [] 1 0 sig (head1 s) rfl (by decide +kernel) (by decide +kernel) rfl (by decide) hv hs (fun h => absurd h (by decide))

theorem image3 (s : State) (sig : ∀ k m g, Config.ecdsaOk k m g = true) (hv : s.otp.revoked = 0) (hs : s.otp.svn = []) :
    (withImages s).verify e3 = some ⟨(imgHead 3 512 (sha384 profPay)).take 416, 4294967295, profPay, 0⟩ :=
  image_ok s e3 profPay 3 512 sig (head3 s) (pay3 s) (by decide +kernel) (by decide +kernel) rfl (by decide) hv hs
    (fun h => absurd h (by decide))

theorem image2 (s : State) (sig : ∀ k m g, Config.ecdsaOk k m g = true) (hv : s.otp.revoked = 0) (hs : s.otp.svn = []) :
    (withImages s).verify e2 = some ⟨(imgHead 2 41000 (sha384 mcPay)).take 416, 4294967295, mcPay, 0⟩ :=
  image_ok s e2 mcPay 2 41000 sig (head2 s) (pay2 s) (by decide +kernel) (by decide +kernel) rfl (by decide) hv hs (fun _ => by
    obtain ⟨a, b, c⟩ := mcPay_parts
    rw [a, b, c, crc_mcBody]
    exact ⟨rfl, by decide +kernel, by decide +kernel⟩)

/-- loadImage finds the first copy. -/
theorem load_first (s : State) (n : Nat) (e : DirEntry) (m : Image) (h : [e1, e2, e3].find? (fun x => decide (x.typ = n ∧ x.index = 0 ∧ x.copy = 0)) = some e)
    (hv : s.verify e = some m) : s.loadImage [e1, e2, e3] n 0 = some m := by
  rw [State.loadImage, h, Option.bind_some, hv]

theorem images_dir (s : State) : (withImages s).directory 0 = some [e1, e2, e3] := by
  show (withImages State.reset).directory 0 = _
  decide +kernel

/-- A package in PHASE 1 with those images. -/
def bootable : State := withImages State.reset

/-- The clause of BootMeasurementAndControlStore in which a cold boot serves. -/
theorem witness_cold_boot_serves (sig : ∀ k m g, Config.ecdsaOk k m g = true) :
    (∃ w : BootIn, w.answers = true ∧ w.dies = true ∧ w.straps = 0) ∧ bootable.phase = 1 ∧ bootable.keeper.phase = .on ∧ tsorted bootable.regs = true ∧ bootable.bootDir = some ([e1, e2, e3], false) ∧
      bootable.otp.revoked % 16 ≠ 15 ∧
      ∃ fw mc p, bootable.loadImage [e1, e2, e3] 1 0 = some fw ∧ bootable.loadImage [e1, e2, e3] 2 0 = some mc ∧
        bootable.loadImage [e1, e2, e3] 3 0 = some p ∧ (∀ n, n = 0 → descOk (sliceD p.payload (128 * (n % 4)) 128 0) = true) :=
  ⟨⟨{}, by decide +kernel⟩, by decide +kernel, by decide +kernel, by decide +kernel, by rw [State.bootDir, bootable, images_dir], by decide +kernel, _, _, _,
    load_first _ 1 e1 _ (by decide +kernel) (image1 _ sig rfl rfl), load_first _ 2 e2 _ (by decide +kernel) (image2 _ sig rfl rfl),
    load_first _ 3 e3 _ (by decide +kernel) (image3 _ sig rfl rfl), fun n h => by subst h; decide +kernel⟩

/-- A package that serves, with those images and a ring that fetches. -/
def reloadable : State := withImages (go base)

/-- MC_RELOAD of image 0 to dock 3 of die 0, switching at once. -/
def reloadCmd : Cmd := opc 7 (cb [(0, 1), (0, 1), (8, 2), (1, 1)])

/-- The clause of SystemCommandsTakeEffect in which MC_RELOAD takes an image. -/
theorem witness_mc_reload (sig : ∀ k m g, Config.ecdsaOk k m g = true) :
    let v := (reloadable.at 0).fetched reloadCmd
    (reloadable.at 0).takes 0x07 reloadCmd = true ∧ v.noDeputy 0x07 reloadCmd = false ∧
      v.directory (if v.flag R.HB_BOOTSTAT 16 then 0x10000 else 0) = some [e1, e2, e3] ∧ v.hasDie (reloadCmd.b 24) = true ∧
      (∃ e ∈ [e1, e2, e3], e.typ = 2 ∧ e.index = reloadCmd.b 25) ∧
      (∀ k, k < 16 → bitOf (reloadCmd.p 26 2) k = true → v.mcPending (reloadCmd.b 24) k = false) ∧
      (∃ m, v.loadImage [e1, e2, e3] 2 (reloadCmd.b 25) = some m) ∧ tsorted v.regs = true ∧ tsorted v.cstore = true := by
  intro v
  have f : v.flag R.HB_BOOTSTAT 16 = false := by decide +kernel
  have l := load_first v 2 e2 _ (by decide +kernel) (image2 v sig rfl rfl)
  exact ⟨by decide +kernel, by decide +kernel, by rw [f]; exact images_dir v, by decide +kernel, by decide +kernel, by decide +kernel,
    ⟨_, l⟩, by decide +kernel, by decide +kernel⟩

end Sys2Proof.Tests
end

section
/-! SUPPORT. Register fields bit by bit, and what a write by access code makes of them (R8, R11, R12). -/

namespace Sys2Proof.Machine

set_option Elab.async false

theorem bitOf_eq_testBit (v n : Nat) : bitOf v n = v.testBit n := Nat.testBit_eq_decide_div_mod_eq.symm

theorem testBit_bitsOf (v hi lo i : Nat) : (bitsOf v hi lo).testBit i = (decide (i < hi + 1 - lo) && v.testBit (i + lo)) := by
  rw [bitsOf, Nat.testBit_mod_two_pow, Nat.testBit_div_two_pow]

/-- A number with a field replaced, cut above, inside and below the field. -/
theorem putBits_eq (v hi lo x : Nat) :
    putBits v hi lo x = 2 ^ lo * (2 ^ (hi + 1 - lo) * (v / 2 ^ lo / 2 ^ (hi + 1 - lo)) + x % 2 ^ (hi + 1 - lo)) + v % 2 ^ lo := by
  have low := Nat.div_add_mod v (2 ^ lo)
  rw [← Nat.div_add_mod (v / 2 ^ lo) (2 ^ (hi + 1 - lo)), Nat.mul_add] at low
  rw [putBits, bitsOf, Nat.mul_add, Nat.mul_comm _ (2 ^ lo), Nat.mul_comm _ (2 ^ lo)]
  omega

/-- Replacing a field gives the bits inside it and leaves every other. -/
theorem testBit_putBits (v hi lo x n : Nat) :
    (putBits v hi lo x).testBit n = if lo ≤ n ∧ n ≤ hi then x.testBit (n - lo) else v.testBit n := by
  rw [putBits_eq, Nat.testBit_two_pow_mul_add _ (Nat.mod_lt _ (Nat.two_pow_pos lo))]
  rcases Nat.lt_or_ge n lo with below | above
  · rw [if_pos below, if_neg (by omega), Nat.testBit_mod_two_pow, decide_eq_true below, Bool.true_and]
  · rw [if_neg (by omega), Nat.testBit_two_pow_mul_add _ (Nat.mod_lt _ (Nat.two_pow_pos _))]
    by_cases inside : n ≤ hi
    · rw [if_pos (by omega), if_pos ⟨above, inside⟩, Nat.testBit_mod_two_pow, decide_eq_true (by omega), Bool.true_and]
    · rw [if_neg (by omega), if_neg (by omega), Nat.testBit_div_two_pow, Nat.testBit_div_two_pow]
      congr 1
      omega

theorem and_mod_two_eq_one (v m : Nat) : (v &&& m) % 2 = 1 ↔ v % 2 = 1 ∧ m % 2 = 1 := by
  have low := Nat.testBit_and v m 0
  rwa [Nat.testBit_zero, Nat.testBit_zero, Nat.testBit_zero, ← Bool.decide_and, decide_eq_decide] at low

/-- Taking from a number those of its bits that a mask has clears exactly them. -/
theorem testBit_sub_and (v m n : Nat) : (v - (v &&& m)).testBit n = (v.testBit n && !m.testBit n) := by
  have le : v &&& m ≤ v := Nat.and_le_left
  have low := and_mod_two_eq_one v m
  induction n generalizing v m with
  | zero =>
    rw [Nat.testBit_zero, Nat.testBit_zero, Nat.testBit_zero, ← decide_not, ← Bool.decide_and, decide_eq_decide]
    omega
  | succ n ih =>
    have half : (v - (v &&& m)) / 2 = v / 2 - (v / 2 &&& m / 2) := by
      rw [← Nat.and_div_two]
      omega
    rw [Nat.testBit_succ, Nat.testBit_succ, Nat.testBit_succ, half, ih _ _ Nat.and_le_left (and_mod_two_eq_one ..)]

/-- Two fields share no bit. -/
def RField.Apart (f g : RField) : Prop := f.hi < g.lo ∨ g.hi < f.lo

/-- The fields of every register of the tables share no bit. -/
theorem regRows_fields_apart : ∀ w ∈ regRows, w.fields.Pairwise RField.Apart := by
  unfold RField.Apart
  decide +kernel

/-- What one field makes of the value x in a write of v over old, no WO field holding its value. -/
def RField.put (old v held x : Nat) (f : RField) : Nat :=
  match f.acc with
  | .rw => putBits x f.hi f.lo (bitsOf v f.hi f.lo)
  | .w1c => putBits x f.hi f.lo (bitsOf old f.hi f.lo - (bitsOf old f.hi f.lo &&& bitsOf (v - (v &&& held)) f.hi f.lo))
  | _ => x

theorem RegRow.write_eq_foldl (w : RegRow) (old v held : Nat) : w.write old v false held = w.fields.foldl (RField.put old v held) old := by
  unfold RegRow.write
  dsimp only
  congr 1
  funext x f
  unfold RField.put
  cases f.acc <;> rfl

/-- A field leaves every bit outside it. -/
theorem RField.testBit_put_outside {f : RField} {n : Nat} (old v held x : Nat) (out : ¬ (f.lo ≤ n ∧ n ≤ f.hi)) :
    (f.put old v held x).testBit n = x.testBit n := by
  unfold RField.put
  split
  · rw [testBit_putBits, if_neg out]
  · rw [testBit_putBits, if_neg out]
  · rfl

/-- A bit of a field after a write by its access code: RW takes it, W1C clears one written 1 that hardware does not set, any other keeps it. -/
theorem RField.testBit_put {f : RField} {n : Nat} (old v held x : Nat) (lo : f.lo ≤ n) (hi : n ≤ f.hi) :
    (f.put old v held x).testBit n = (if f.acc = .rw then v.testBit n else
      if f.acc = .w1c then old.testBit n && (!v.testBit n || held.testBit n) else x.testBit n) := by
  have width : n - f.lo < f.hi + 1 - f.lo := by omega
  have back : n - f.lo + f.lo = n := by omega
  have field (y : Nat) : (bitsOf y f.hi f.lo).testBit (n - f.lo) = y.testBit n := by
    rw [testBit_bitsOf, decide_eq_true width, back, Bool.true_and]
  unfold RField.put
  cases f.acc
  case rw => simp only [testBit_putBits, lo, hi, field, and_self, if_true]
  case w1c =>
    simp only [testBit_putBits, testBit_sub_and, lo, hi, field, and_self, if_true, reduceCtorEq, if_false]
    cases v.testBit n <;> cases held.testBit n <;> rfl
  all_goals rfl

theorem RField.Apart.not_left {f g : RField} {n : Nat} (h : f.Apart g) (lo : g.lo ≤ n) (hi : n ≤ g.hi) : ¬ (f.lo ≤ n ∧ n ≤ f.hi) := by
  unfold RField.Apart at h
  omega

theorem RField.Apart.not_right {f g : RField} {n : Nat} (h : f.Apart g) (lo : f.lo ≤ n) (hi : n ≤ f.hi) : ¬ (g.lo ≤ n ∧ n ≤ g.hi) := by
  unfold RField.Apart at h
  omega

theorem testBit_foldl_put_outside {l : List RField} {n : Nat} (old v held x : Nat) (out : ∀ f ∈ l, ¬ (f.lo ≤ n ∧ n ≤ f.hi)) :
    (l.foldl (RField.put old v held) x).testBit n = x.testBit n := by
  induction l generalizing x with
  | nil => rfl
  | cons g l ih =>
    rw [List.foldl_cons, ih _ (fun f hf => out f (List.mem_cons_of_mem _ hf)), g.testBit_put_outside _ _ _ _ (out g List.mem_cons_self)]

/-- In a row of fields that share no bit, a bit of a field is what that field makes of it. -/
theorem testBit_foldl_put {l : List RField} {f : RField} {n : Nat} (old v held x : Nat) (apart : l.Pairwise RField.Apart) (hf : f ∈ l)
    (lo : f.lo ≤ n) (hi : n ≤ f.hi) :
    (l.foldl (RField.put old v held) x).testBit n = (if f.acc = .rw then v.testBit n else
      if f.acc = .w1c then old.testBit n && (!v.testBit n || held.testBit n) else x.testBit n) := by
  induction l generalizing x with
  | nil => cases hf
  | cons g l ih =>
    obtain ⟨first, rest⟩ := List.pairwise_cons.mp apart
    rw [List.foldl_cons]
    rcases List.mem_cons.mp hf with rfl | hl
    · rw [testBit_foldl_put_outside _ _ _ _ (fun h hh => (first h hh).not_right lo hi), RField.testBit_put _ _ _ _ lo hi]
    · rw [ih _ rest hl, g.testBit_put_outside _ _ _ _ ((first f hl).not_left lo hi)]

/-- A write of a register of the tables, bit by bit (R11, R12). -/
theorem bitOf_write {w : RegRow} (hw : w ∈ regRows) {f : RField} (hf : f ∈ w.fields) {n : Nat} (old v held : Nat)
    (lo : f.lo ≤ n) (hi : n ≤ f.hi) :
    bitOf (w.write old v false held) n = (if f.acc = .rw then bitOf v n else
      if f.acc = .w1c then bitOf old n && (!bitOf v n || bitOf held n) else bitOf old n) := by
  simp only [bitOf_eq_testBit, RegRow.write_eq_foldl]
  exact testBit_foldl_put old v held old (regRows_fields_apart w hw) hf lo hi

end Sys2Proof.Machine
end

section
/-! SUPPORT. What a write of a register leaves: the cellar and harbour time, through every operation that a plain write can run. -/

namespace Sys2Proof.Machine

set_option Elab.async false

/-- From s to t the cellar's bytes and harbour time stay. -/
structure CellarStill (s t : State) : Prop where
  mem : t.mem = s.mem
  htime : t.htime = s.htime

theorem CellarStill.refl (s : State) : CellarStill s s := ⟨rfl, rfl⟩

theorem CellarStill.trans {s t u : State} (h : CellarStill s t) (k : CellarStill t u) : CellarStill s u :=
  ⟨k.mem.trans h.mem, k.htime.trans h.htime⟩

theorem foldl_cellarStill {α : Type} {f : State → α → State} (h : ∀ t x, CellarStill t (f t x)) (s : State) (l : List α) :
    CellarStill s (l.foldl f s) := by
  induction l generalizing s with
  | nil => exact .refl s
  | cons x l ih => exact (h s x).trans (ih _)

theorem setReg_cellarStill (s : State) (a v : Nat) : CellarStill s (s.setReg a v) := ⟨rfl, rfl⟩

theorem setFlag_cellarStill (s : State) (a n : Nat) (x : Bool) : CellarStill s (s.setFlag a n x) :=
  ⟨State.setFlag_mem .., State.setFlag_htime ..⟩

theorem hicModer_cellarStill (s : State) (d g delta : Nat) (wr : Bool) : CellarStill s (s.hicModer d g delta wr) := ⟨rfl, rfl⟩

/-- A wake detector's note is in the mode entries alone. -/
theorem noteWake_entries (s : State) (d : Nat) (l : List Nat) : ∃ e, s.noteWake d l = { s with entries := e } := by
  unfold State.noteWake
  split
  · split <;> exact ⟨_, rfl⟩
  · exact ⟨_, rfl⟩

theorem noteWake_cellarStill (s : State) (d : Nat) (l : List Nat) : CellarStill s (s.noteWake d l) := by
  obtain ⟨e, note⟩ := noteWake_entries s d l
  rw [note]
  exact ⟨rfl, rfl⟩

theorem hicSet_cellarStill (s : State) (d src : Nat) : CellarStill s (s.hicSet d src) := by
  unfold State.hicSet
  dsimp only
  split
  · exact noteWake_cellarStill ..
  · exact (noteWake_cellarStill ..).trans ((setFlag_cellarStill ..).trans (hicModer_cellarStill ..))

theorem withLevel_cellarStill {s : State} {f : State → State} (d src : Nat) (hf : CellarStill s (f s)) :
    CellarStill s (s.withLevel d src f) := by
  unfold State.withLevel
  dsimp only
  split
  · exact hf.trans (hicSet_cellarStill ..)
  · exact hf

theorem emitVec_cellarStill (s : State) (e v : Nat) : CellarStill s (s.emitVec e v) := by
  unfold State.emitVec
  split
  · exact setFlag_cellarStill ..
  · exact ⟨rfl, rfl⟩

theorem sendVec_cellarStill (s : State) (e v : Nat) : CellarStill s (s.sendVec e v) := by
  unfold State.sendVec
  split
  · exact emitVec_cellarStill ..
  · split <;> exact ⟨rfl, rfl⟩

theorem modBerth_cellarStill (s : State) (b : Nat) (f : Berth → Berth) : CellarStill s (s.modBerth b f) := by
  unfold State.modBerth
  split <;> exact ⟨rfl, rfl⟩

theorem pinEvent_cellarStill (s : State) (n : Nat) (edge : Bool) : CellarStill s (s.pinEvent n edge) := by
  unfold State.pinEvent
  extract_lets t
  have ht : CellarStill s t := setFlag_cellarStill ..
  refine ht.trans ?_
  split
  · exact modBerth_cellarStill ..
  · split
    · exact hicSet_cellarStill ..
    · exact .refl _

theorem padChange_cellarStill (s : State) (n : Nat) (level : Bool) : CellarStill s (s.padChange n level) := by
  unfold State.padChange
  extract_lets old t new rise fall hit t1 alt
  have ht : CellarStill s t := withLevel_cellarStill 0 _ ⟨rfl, rfl⟩
  have ht1 : CellarStill t t1 := by
    unfold t1
    split
    · exact pinEvent_cellarStill ..
    · split
      · exact pinEvent_cellarStill ..
      · exact .refl t
  refine (ht.trans ht1).trans ?_
  split
  · exact ⟨rfl, rfl⟩
  · split <;> exact ⟨rfl, rfl⟩

theorem toLevel_cellarStill (s : State) (n : Nat) (v : Bool) : CellarStill s (s.toLevel n v) := by
  unfold State.toLevel
  split
  · exact .refl s
  · exact padChange_cellarStill ..

theorem settlePad_cellarStill (s : State) (n : Nat) : CellarStill s (s.settlePad n) := by
  unfold State.settlePad
  split
  · exact toLevel_cellarStill ..
  · exact toLevel_cellarStill ..
  · split
    · exact toLevel_cellarStill ..
    · split
      · exact .refl s
      · exact CellarStill.trans (t := s.draw.2) ⟨rfl, rfl⟩ (toLevel_cellarStill ..)

theorem withPads_cellarStill {s : State} {f : State → State} (hf : CellarStill s (f s)) : CellarStill s (s.withPads f) := by
  unfold State.withPads
  refine hf.trans (foldl_cellarStill (fun t n => ?_) _ _)
  split
  · exact .refl t
  · exact settlePad_cellarStill ..

theorem hicOrder_cellarStill {s : State} {f : State → State} (r : Requester) (a : Nat) (hf : CellarStill s (f s)) :
    CellarStill s (s.hicOrder r a f) := by
  unfold State.hicOrder
  split
  · split
    · exact .refl s
    · exact ⟨hf.mem, hf.htime⟩
  · exact hf

theorem storeReg_cellarStill (s : State) (l : Loc) (a v : Nat) : CellarStill s (s.storeReg l a v) := by
  unfold State.storeReg
  split
  · split <;> exact ⟨rfl, rfl⟩
  · exact setReg_cellarStill ..

theorem CellarStill.ite {c : Prop} [Decidable c] {s t u : State} (ht : CellarStill s t) (hu : CellarStill s u) :
    CellarStill s (if c then t else u) := by
  split
  · exact ht
  · exact hu

theorem plainWrite_cellarStill (s : State) (r : Requester) (l : Loc) (a v : Nat) : CellarStill s (s.plainWrite r l a v) := by
  unfold State.plainWrite
  dsimp only
  split
  · exact .refl s
  · split
    next d off =>
      refine .ite ⟨rfl, rfl⟩ <| .ite ⟨rfl, rfl⟩ <| .ite ⟨rfl, rfl⟩ <| .ite ⟨rfl, rfl⟩ <| .ite ⟨rfl, rfl⟩ <| .ite ⟨rfl, rfl⟩ <|
        .ite ⟨rfl, rfl⟩ <| .ite (.refl s) <| .ite (.refl s) <| .ite (.refl s) <| .ite (.ite ?vector ⟨rfl, rfl⟩) <| .ite ?thermal <| .ite ⟨rfl, rfl⟩ <|
        .ite (withPads_cellarStill ⟨rfl, rfl⟩) <| .ite (withLevel_cellarStill _ _ ⟨rfl, rfl⟩) ⟨rfl, rfl⟩
      case vector => exact (setReg_cellarStill ..).trans ((setFlag_cellarStill ..).trans (sendVec_cellarStill ..))
      case thermal =>
        exact (setReg_cellarStill ..).trans (foldl_cellarStill (fun t k => .ite (hicSet_cellarStill ..) (.refl t)) _ _)
    next d k n off =>
      split
      · exact .ite ⟨rfl, rfl⟩ (storeReg_cellarStill ..)
      · exact setReg_cellarStill ..
    next q off =>
      exact .ite ⟨rfl, rfl⟩ <| .ite ⟨rfl, rfl⟩ <| withLevel_cellarStill _ _ (setReg_cellarStill ..)
    next => exact setReg_cellarStill ..

end Sys2Proof.Machine
end

section
/-! SUPPORT. Registers read after a write: the register written, and those that an interrupt source being set leaves. -/

namespace Sys2Proof.Machine

set_option Elab.async false

theorem tsorted_tput {α : Type} [DecidableEq α] {t : Tbl α} (k : Nat) (x d : α) (h : tsorted t = true) : tsorted (tput t k x d) = true := by
  unfold tput
  split
  · exact tsorted_tdel k h
  · exact tsorted_tins k x h

/-- A write leaves every other key alone, whatever its unlisted keys read. -/
theorem tfind_tput_other {α : Type} [DecidableEq α] {t : Tbl α} {k i : Nat} (x d : α) (h : tsorted t = true) (hi : i ≠ k) :
    tfind (tput t k x d) i = tfind t i := by
  unfold tput
  split
  · exact tfind_tdel_other h hi
  · exact tfind_tins_other t x hi

/-- A register reads what was written to it, as 32 bits. -/
theorem reg_setReg_same {s : State} (a v : Nat) (h : tsorted s.regs = true) : (s.setReg a v).reg a = v % 2 ^ 32 := by
  unfold State.reg State.setReg
  rw [tget_tput_same _ _ _ h]
  exact BitVec.toNat_ofNat ..

/-- A write leaves every other register. -/
theorem reg_setReg_other {s : State} {a i : Nat} (v : Nat) (h : tsorted s.regs = true) (hi : i ≠ a) : (s.setReg a v).reg i = s.reg i := by
  unfold State.reg State.setReg
  rw [tget_eq_tfind, tfind_tput_other _ _ h hi, ← tget_eq_tfind]

theorem setReg_sorted {s : State} (a v : Nat) (h : tsorted s.regs = true) : tsorted (s.setReg a v).regs = true := tsorted_tput _ _ _ h

/-- A source that becomes pending changes its HIC_PEND register alone. -/
theorem hicSet_reg {s : State} {d src a : Nat} (h : tsorted s.regs = true) (ha : a ≠ dieAddr d (R.HIC_PEND + 4 * (src / 32))) :
    (s.hicSet d src).reg a = s.reg a := by
  obtain ⟨e, note⟩ := noteWake_entries s d [src]
  unfold State.hicSet
  rw [note]
  dsimp only
  split
  · rfl
  · exact reg_setReg_other (s := { s with entries := e }) _ h ha

theorem hicSet_quays (s : State) (d src : Nat) : (s.hicSet d src).quays = s.quays := by
  obtain ⟨e, note⟩ := noteWake_entries s d [src]
  unfold State.hicSet
  rw [note]
  dsimp only
  split <;> rfl

theorem withLevel_reg {s : State} {f : State → State} {d src a : Nat} (h : tsorted (f s).regs = true)
    (ha : a ≠ dieAddr d (R.HIC_PEND + 4 * (src / 32))) : (s.withLevel d src f).reg a = (f s).reg a := by
  unfold State.withLevel
  dsimp only
  split
  · exact hicSet_reg h ha
  · rfl

theorem withLevel_quays (s : State) (f : State → State) (d src : Nat) : (s.withLevel d src f).quays = (f s).quays := by
  unfold State.withLevel
  dsimp only
  split
  · exact hicSet_quays ..
  · rfl

end Sys2Proof.Machine
end

section
/-! SUPPORT. Where an address lies and what the gate passes (R44 to R46, R81), REGISTER_WRITE case by case, and the plain write of each kind
of location (R10, R11, R14). -/

namespace Sys2Proof.Machine

set_option Elab.async false

/-- A location in a die block is at the address's offset in the die. -/
theorem locate_die {p : Part} {a d off : Nat} (h : locate p a = some (.die d off)) : a % 0x800000 = off := by
  unfold locate at h
  dsimp only at h
  repeat' split at h
  all_goals cases h
  rfl

/-- Dock, slot and quay blocks lie above the die's own blocks. -/
theorem locate_above {p : Part} {a : Nat} {l : Loc} (h : locate p a = some l) (hl : ∀ d off, l ≠ .die d off) : 0x100000 ≤ a % 0x800000 := by
  unfold locate at h
  dsimp only at h
  repeat' split at h
  all_goals cases h
  · exact absurd rfl (hl _ _)
  all_goals omega

/-- What the gate passes, it passes in the state as it was, at the location of the address. -/
theorem gate_granted {s : State} {r : Requester} {a : Nat} {w : Bool} {l : Loc} (h : (s.gate r a w).1 = some l) :
    s.gate r a w = (some l, s) ∧ locate s.part a = some l := by
  revert h
  unfold State.gate
  dsimp only
  repeat' split
  all_goals rintro ⟨⟩
  all_goals exact ⟨rfl, ‹_›⟩

theorem registerWrite_refused {s : State} {r : Requester} {a at_ : Nat} (size v : Nat) (h : ((s.at at_).gate r (a / 4 * 4) true).1 = none) :
    exec (.registerWrite r a size v at_) s = .next ((s.at at_).gate r (a / 4 * 4) true).2 := by
  change execRegisterWrite r a size v at_ s = _
  unfold execRegisterWrite
  dsimp only
  generalize (s.at at_).gate r (a / 4 * 4) true = g at h ⊢
  obtain ⟨_, t⟩ := g
  cases h
  rfl

/-- A granted write that is not one aligned word is discarded. -/
theorem registerWrite_narrow {s : State} {r : Requester} {a size at_ : Nat} {l : Loc} (v : Nat) (h : size ≠ 4 ∨ a % 4 ≠ 0)
    (hg : ((s.at at_).gate r (a / 4 * 4) true).1 = some l) :
    exec (.registerWrite r a size v at_) s = .next ((s.at at_).respond .done) := by
  have hw : wordAccess a size = false := decide_eq_false (by omega)
  change execRegisterWrite r a size v at_ s = _
  unfold execRegisterWrite
  dsimp only
  rw [(gate_granted hg).1]
  simp only [hw, Bool.not_false, if_true]

/-- A granted write of one aligned word, at a register without a row of its own, is a plain write. -/
theorem registerWrite_word {s : State} {r : Requester} {a at_ : Nat} {l : Loc} (v : Nat) (ha : a % 4 = 0)
    (hg : ((s.at at_).gate r (a / 4 * 4) true).1 = some l) (hl : l.special = false) :
    exec (.registerWrite r a 4 v at_) s = .next (((s.at at_).hicOrder r a (fun t => t.plainWrite r l a v)).respond .done) := by
  have hw : wordAccess a 4 = true := decide_eq_true ⟨ha, rfl⟩
  change execRegisterWrite r a 4 v at_ s = _
  unfold execRegisterWrite
  dsimp only
  rw [(gate_granted hg).1]
  simp only [hw, hl, Bool.not_true, Bool.false_eq_true, if_false]

/-- Outside the HIC's block a write waits for no rank. -/
theorem hicOrder_outside {s : State} {a : Nat} (r : Requester) (f : State → State) (h : ¬ (0x10000 ≤ a % 0x800000 ∧ a % 0x800000 < 0x20000)) :
    s.hicOrder r a f = f s := if_neg fun ⟨lo, hi, _⟩ => h ⟨lo, hi⟩

theorem registerWrite_word_outside {s : State} {r : Requester} {a at_ : Nat} {l : Loc} (v : Nat) (ha : a % 4 = 0)
    (hg : ((s.at at_).gate r (a / 4 * 4) true).1 = some l) (hl : l.special = false)
    (h : ¬ (0x10000 ≤ a % 0x800000 ∧ a % 0x800000 < 0x20000)) :
    exec (.registerWrite r a 4 v at_) s = .next (((s.at at_).plainWrite r l a v).respond .done) := by
  rw [registerWrite_word v ha hg hl, hicOrder_outside _ _ h]

variable {s : State} {a : Nat} {w : RegRow} (r : Requester) (v : Nat)

/-- The registers of a die that a plain write names. -/
theorem plainWrite_offsets : R.LG_PGIDX = 0x60000 ∧ R.LG_PGENT = 0x60004 ∧ R.LG_BSGIDX = 0x60008 ∧ R.LG_BSGENT = 0x6000C ∧
    R.PW_THPOL = 0x20108 ∧ R.GP_EVTLO = 0x40020 ∧ R.GP_EVTHI = 0x40024 ∧ R.GP_FAN = 0x40300 ∧ R.GP_REFOUT = 0x40320 ∧ R.LG_PIN = 0x60200 := by
  refine ⟨?_, ?_, ?_, ?_, ?_, ?_, ?_, ?_, ?_, ?_⟩ <;> rfl

/-- The HT_ registers outside the timers, and the ST_ registers, are stored value alone. -/
theorem plainWrite_die_stored {d off : Nat} (hw : (Loc.die d off).row = some w)
    (hoff : (off / 0x10000 = 3 ∧ ¬ (0x30100 ≤ off ∧ off < 0x30500)) ∨ off / 0x10000 = 5) :
    s.plainWrite r (.die d off) a v = s.setReg a (w.write (s.reg a) v (Loc.die d off).keeps (s.setNow a)) := by
  have places := plainWrite_offsets
  have noRing : ringSetup off = false := by rw [ringSetup, decide_eq_false (by omega), Bool.false_and]
  unfold State.plainWrite
  rw [hw]
  dsimp only
  iterate 7 rw [if_neg (by omega)]
  rw [if_neg (fun ⟨_, ring, _⟩ => Bool.false_ne_true (noRing.symm.trans ring))]
  iterate 7 rw [if_neg (by omega)]
  rfl

theorem writeHtCtl_eq (s : State) (a new : Nat) : s.writeHtCtl a new =
    { s.setReg a (new ||| (s.setNow a &&& 1)) with
      follow := if (new ||| (s.setNow a &&& 1)) % 2 = 1 then s.follow else s.follow.filter (fun x => x ≠ a) } := by
  simp only [State.writeHtCtl, bitOf, Nat.pow_zero, Nat.div_one, beq_iff_eq]

theorem plainWrite_timer {d off : Nat} (hw : (Loc.die d off).row = some w) (lo : 0x30100 ≤ off) (hi : off < 0x30500) :
    s.plainWrite r (.die d off) a v = s.writeHtCtl a (w.write (s.reg a) v (Loc.die d off).keeps (s.setNow a)) := by
  have places := plainWrite_offsets
  unfold State.plainWrite
  rw [hw]
  dsimp only
  iterate 6 rw [if_neg (by omega)]
  rw [if_pos ⟨lo, hi⟩]
  rfl

theorem plainWrite_dock {d k off : Nat} (hw : (Loc.dock d k off).row = some w) :
    s.plainWrite r (.dock d k off) a v = s.setReg a (w.write (s.reg a) v (Loc.dock d k off).keeps (s.setNow a)) := by
  unfold State.plainWrite
  rw [hw]
  rfl

/-- A slot's register outside the descriptors belongs to the berth in the slot. -/
theorem plainWrite_slot {d k n off : Nat} {x : Berth} (hw : (Loc.slot d k n off).row = some w) (hx : s.berthIn d k n = some x)
    (hoff : off < 0x100 ∨ 0x180 ≤ off) :
    s.plainWrite r (.slot d k n off) a v = s.setBerth (x.setReg off (w.write (x.reg off) v false (s.setNow a))) := by
  unfold State.plainWrite State.storeReg State.stored
  rw [hw]
  simp only [hx]
  rw [if_neg (by omega)]
  rfl

theorem plainWrite_descriptor {d k n off : Nat} {x : Berth} (hw : (Loc.slot d k n off).row = some w) (hx : s.berthIn d k n = some x)
    (lo : 0x100 ≤ off) (hi : off < 0x180) : s.plainWrite r (.slot d k n off) a v = s.setBerth (x.writeDesc off v) := by
  unfold State.plainWrite
  rw [hw]
  simp only [hx]
  rw [if_pos ⟨lo, hi⟩]

theorem plainWrite_quay {q off : Nat} (hw : (Loc.quay q off).row = some w) (index : off ≠ 0x40) (entry : off < 0x44 ∨ 0x74 ≤ off) :
    s.plainWrite r (.quay q off) a v =
      s.withLevel (quayDie q) (402 + q % 18) (fun t => t.setReg a (w.write (s.reg a) v false (s.setNow a))) := by
  unfold State.plainWrite
  rw [hw]
  dsimp only
  rw [if_neg (show off ≠ R.QY_STIDX from index), if_neg (by omega)]
  rfl

end Sys2Proof.Machine
end

section
/-! SUPPORT. A descriptor written by halves (R129). -/

namespace Sys2Proof.Machine

set_option Elab.async false

theorem b2n_lt_two (b : Bool) : b2n b < 2 := by cases b <;> decide

theorem b2n_beq_one (b : Bool) : (b2n b == 1) = b := by cases b <;> rfl

/-- The limit and the rights read back from DESCnB. -/
theorem words_fields (x : Desc) (h : x.limit < 2 ^ 16) :
    bitsOf x.words.2 15 0 = x.limit ∧ bitOf x.words.2 16 = x.r ∧ bitOf x.words.2 17 = x.w ∧ bitOf x.words.2 18 = x.x ∧
      bitOf x.words.2 19 = x.shared := by
  have hr := b2n_lt_two x.r
  have hw := b2n_lt_two x.w
  have hx := b2n_lt_two x.x
  have hs := b2n_lt_two x.shared
  have bit {n : Nat} {b : Bool} (e : x.words.2 / 2 ^ n % 2 = b2n b) : bitOf x.words.2 n = b := by rw [bitOf, e, b2n_beq_one]
  refine ⟨?_, bit ?_, bit ?_, bit ?_, bit ?_⟩ <;> simp only [bitsOf, Desc.words] <;> omega

/-- A descriptor after a write of v to one of its two registers, the other half kept: the base at an offset that is a multiple of 8, limit and
rights at the other. -/
def Desc.withHalf (x : Desc) (off v : Nat) : Desc :=
  if off % 8 = 0 then { x with base := bitsOf v 22 0 * 64 }
  else { base := x.base / 64 % 2 ^ 23 * 64, limit := bitsOf v 15 0, r := bitOf v 16, w := bitOf v 17, x := bitOf v 18, shared := bitOf v 19 }

theorem Desc.withHalf_eq_ofWords (x : Desc) (off v : Nat) (h : x.limit < 2 ^ 16) :
    (if off % 8 = 0 then Desc.ofWords v x.words.2 else Desc.ofWords x.words.1 v) = x.withHalf off v := by
  obtain ⟨limit, r, w, x', sh⟩ := words_fields x h
  unfold Desc.withHalf
  split
  · simp only [Desc.ofWords, limit, r, w, x', sh]
  · simp only [Desc.ofWords, Desc.words, bitsOf, Nat.pow_zero, Nat.div_one, Nat.sub_zero, Nat.reduceAdd]

theorem descN_set (b : BSide) {i : Nat} (hi : i < 16) (e : Desc) (j : Nat) :
    ({ b with desc := b.desc.set i e hi } : BSide).descN j = if j % 16 = i then e else b.descN j := by
  simp only [BSide.descN, Vector.toList_set, List.getD_eq_getElem?_getD, List.getElem?_set, Vector.length_toList, hi, if_true, eq_comm]
  split <;> rfl

/-- A descriptor of a started berth is queued for its next commit. -/
theorem writeDesc_started {x : Berth} {off : Nat} (v : Nat) (hs : x.started = true) (empty : x.segDefs = [])
    (limit : (x.side.descN ((off - 0x100) / 8)).limit < 2 ^ 16) :
    x.writeDesc off v = { x with segDefs := [((off - 0x100) / 8, (x.side.descN ((off - 0x100) / 8)).withHalf off v)] } := by
  unfold Berth.writeDesc
  simp only [empty, hs, List.reverse_nil, List.find?_nil, Option.map_none, Option.getD_none, List.nil_append, if_true,
    Desc.withHalf_eq_ofWords _ _ _ limit]

/-- A descriptor of a berth that has not started holds at once, and the others stay. -/
theorem writeDesc_descN {x : Berth} {off : Nat} (v : Nat) (hs : x.started = false) (empty : x.segDefs = [])
    (limit : (x.side.descN ((off - 0x100) / 8)).limit < 2 ^ 16) (j : Nat) :
    (x.writeDesc off v).side.descN j =
      if j % 16 = (off - 0x100) / 8 % 16 then (x.side.descN ((off - 0x100) / 8)).withHalf off v else x.side.descN j := by
  unfold Berth.writeDesc
  simp only [empty, hs, List.reverse_nil, List.find?_nil, Option.map_none, Option.getD_none, Bool.false_eq_true, if_false,
    Desc.withHalf_eq_ofWords _ _ _ limit]
  exact descN_set ..

end Sys2Proof.Machine
end

section
/-! A register write by access code (R10, R11, R12, R14). -/

namespace Sys2Proof.Machine

set_option Elab.async false

/-- Settles O30: a write by access code bit by bit, over the fields of its row; REGISTER_WRITE by what the gate passes and, for a granted
word, by the kind of location. -/
theorem registerWritesFollowAccessCodes : Obligations.RegisterWritesFollowAccessCodes := by
  refine ⟨fun w hw f hf old v n lo hi _ held => bitOf_write hw hf old v held lo hi, ?_⟩
  intro s r a size v at_ u e g
  refine ⟨registerWrite_refused size v, fun l narrow hg => registerWrite_narrow v narrow hg, ?_⟩
  intro l w hs ha hg hl hw new
  subst hs
  have place : locate u.part a = some l := by
    rw [← (gate_granted hg).2, Nat.div_mul_cancel (Nat.dvd_of_mod_eq_zero ha)]
  have outside : _ → e = _ := registerWrite_word_outside v ha hg hl
  have aboveDie (h : ∀ d off, l ≠ .die d off) : 0x100000 ≤ a % 0x800000 := locate_above place h
  refine ⟨?still, ?stored, ?timer, ?dock, ?slot, ?descriptor, ?quay⟩
  case still =>
    have still := hicOrder_cellarStill (f := fun t => t.plainWrite r l a v) r a (plainWrite_cellarStill u r l a v)
    exact ⟨_, registerWrite_word v ha hg hl, rfl, still.mem, still.htime⟩
  case stored =>
    rintro d off rfl hoff
    have := locate_die place
    rw [outside (by omega), plainWrite_die_stored r v hw hoff]
  case timer =>
    rintro d off rfl lo hi
    have := locate_die place
    rw [outside (by omega), plainWrite_timer r v hw lo hi, writeHtCtl_eq]
  case dock =>
    rintro d k off rfl
    have := aboveDie nofun
    rw [outside (by omega), plainWrite_dock r v hw]
  case slot =>
    rintro d k n off x rfl hx hoff
    have := aboveDie nofun
    rw [outside (by omega), plainWrite_slot r v hw hx hoff]
  case descriptor =>
    rintro d k n off x h rfl hx lo hi empty rfl limit
    have := aboveDie nofun
    rw [outside (by omega), plainWrite_descriptor r v hw hx lo hi]
    refine ⟨_, rfl, fun started => writeDesc_started v started empty limit, fun idle => ⟨?_, fun j hj other => ?_⟩⟩
    · rw [writeDesc_descN v idle empty limit, if_pos rfl]
      rfl
    · rw [writeDesc_descN v idle empty limit, if_neg (by omega)]
  case quay =>
    rintro q off rfl index entry
    have := aboveDie nofun
    rw [outside (by omega), plainWrite_quay r v hw index entry]
    have pend : a ≠ dieAddr (quayDie q) (R.HIC_PEND + 4 * ((402 + q % 18) / 32)) := by
      simp only [dieAddr, R.HIC_PEND]
      omega
    refine ⟨_, rfl, rfl, ?_, ?_, fun sorted => ?_⟩
    · rw [State.respond_berths, withLevel_berths _ _ _ _ (State.setReg_berths ..)]
    · rw [State.respond_quays, withLevel_quays, State.setReg_quays]
    · rw [State.respond_reg, withLevel_reg (setReg_sorted _ _ sorted) pend, reg_setReg_same _ _ sorted]

end Sys2Proof.Machine
end

section
/-! The block at the release of PORST_N (R13, R36, R69). -/

namespace Sys2Proof.Machine

set_option Elab.async false

/-- At cold reset every register stands at the reset value of its tables. -/
theorem reset_reg (a : Nat) : State.reset.reg a = regDefault .sx8 a % 2 ^ 32 := BitVec.toNat_ofNat ..

theorem reset_fld (a hi lo : Nat) : State.reset.fld a hi lo = bitsOf (regDefault .sx8 a % 2 ^ 32) hi lo := by
  rw [State.fld, reset_reg]

/-- Settles O57: the tables of the reset state are empty, so that every register reads its default. -/
theorem resetStandsAtColdReset : Obligations.ResetStandsAtColdReset := by
  unfold Obligations.ResetStandsAtColdReset
  intro s
  refine ⟨rfl, rfl, rfl, rfl, ?phase, rfl, rfl, rfl, fun _ => rfl, fun _ _ _ => rfl, fun _ _ => rfl, reset_reg, ?inService, ?voted,
    ?watchdog, ?eps⟩
  case phase => rw [State.phase, reset_fld]; decide
  case inService => rw [reset_fld]; decide
  case voted => rw [reset_fld]; decide
  case watchdog => rw [reset_fld]; decide
  case eps =>
    intro e he
    match e, he with
    | 0, _ => exact ⟨rfl, rfl⟩
    | 1, _ => exact ⟨rfl, rfl⟩

end Sys2Proof.Machine
end

section
/-! SUPPORT. A field or a flag of a register read after a write of one (R8). -/

namespace Sys2Proof.Machine

set_option Elab.async false

theorem bitsOf_lt (v hi lo : Nat) : bitsOf v hi lo < 2 ^ (hi + 1 - lo) := Nat.mod_lt _ (Nat.two_pow_pos _)

/-- A field of a register lies within its 32 bits. -/
theorem bitsOf_mod_word (v lo : Nat) {hi : Nat} (h : hi < 32) : bitsOf (v % 2 ^ 32) hi lo = bitsOf v hi lo := by
  apply Nat.eq_of_testBit_eq
  intro i
  rw [testBit_bitsOf, testBit_bitsOf, Nat.testBit_mod_two_pow]
  by_cases inside : i < hi + 1 - lo
  · rw [decide_eq_true (by omega : i + lo < 32), Bool.true_and]
  · rw [decide_eq_false inside, Bool.false_and, Bool.false_and]

/-- A replaced field reads the low bits of what was put there. -/
theorem bitsOf_putBits_same (v x : Nat) {hi lo : Nat} (h : lo ≤ hi) : bitsOf (putBits v hi lo x) hi lo = x % 2 ^ (hi + 1 - lo) := by
  apply Nat.eq_of_testBit_eq
  intro i
  rw [testBit_bitsOf, testBit_putBits, Nat.testBit_mod_two_pow]
  by_cases inside : i < hi + 1 - lo
  · rw [if_pos (by omega), Nat.add_sub_cancel]
  · rw [decide_eq_false inside, Bool.false_and, Bool.false_and]

/-- Replacing a field leaves one that shares no bit with it. -/
theorem bitsOf_putBits_apart (v x : Nat) {hi lo hi' lo' : Nat} (h : hi < lo' ∨ hi' < lo) :
    bitsOf (putBits v hi lo x) hi' lo' = bitsOf v hi' lo' := by
  apply Nat.eq_of_testBit_eq
  intro i
  rw [testBit_bitsOf, testBit_bitsOf, testBit_putBits]
  by_cases inside : i < hi' + 1 - lo'
  · rw [if_neg (by omega)]
  · rw [decide_eq_false inside, Bool.false_and, Bool.false_and]

/-- A flag is a field of one bit. -/
theorem bitOf_eq_bitsOf (v n : Nat) : bitOf v n = (bitsOf v n n == 1) := by
  rw [bitOf, bitsOf, Nat.add_sub_cancel_left, Nat.pow_one]

theorem State.flag_eq_fld (s : State) (a n : Nat) : s.flag a n = (s.fld a n n == 1) := bitOf_eq_bitsOf ..

theorem setFlag_regs (s : State) (a n : Nat) (x : Bool) : (s.setFlag a n x).regs = (s.setFld a n n (b2n x)).regs := by
  cases x <;> rfl

theorem setFlag_reg (s : State) (a n : Nat) (x : Bool) (i : Nat) : (s.setFlag a n x).reg i = (s.setFld a n n (b2n x)).reg i := by
  cases x <;> rfl

variable {s : State} (sorted : tsorted s.regs = true)
include sorted

theorem setFlag_sorted (a n : Nat) (x : Bool) : tsorted (s.setFlag a n x).regs = true := by
  rw [setFlag_regs]
  exact setReg_sorted _ _ sorted

theorem addFld_sorted (a hi lo k : Nat) : tsorted (s.addFld a hi lo k).regs = true := setReg_sorted _ _ sorted

theorem fld_setFld_same (a x : Nat) {hi lo : Nat} (h : lo ≤ hi) (word : hi < 32) :
    (s.setFld a hi lo x).fld a hi lo = x % 2 ^ (hi + 1 - lo) := by
  rw [State.fld, State.setFld, reg_setReg_same _ _ sorted, bitsOf_mod_word _ _ word, bitsOf_putBits_same _ _ h]

theorem fld_setFld_apart (a x : Nat) {hi lo hi' lo' : Nat} (h : hi < lo' ∨ hi' < lo) (word : hi' < 32) :
    (s.setFld a hi lo x).fld a hi' lo' = s.fld a hi' lo' := by
  rw [State.fld, State.setFld, reg_setReg_same _ _ sorted, bitsOf_mod_word _ _ word, bitsOf_putBits_apart _ _ h, State.fld]

/-- A counter counts modulo its width. -/
theorem fld_addFld_same (a k : Nat) {hi lo : Nat} (h : lo ≤ hi) (word : hi < 32) :
    (s.addFld a hi lo k).fld a hi lo = (s.fld a hi lo + k) % 2 ^ (hi + 1 - lo) := fld_setFld_same sorted _ _ h word

theorem fld_addFld_apart (a k : Nat) {hi lo hi' lo' : Nat} (h : hi < lo' ∨ hi' < lo) (word : hi' < 32) :
    (s.addFld a hi lo k).fld a hi' lo' = s.fld a hi' lo' := fld_setFld_apart sorted _ _ h word

theorem flag_addFld_apart (a k : Nat) {hi lo n : Nat} (h : hi < n ∨ n < lo) (word : n < 32) :
    (s.addFld a hi lo k).flag a n = s.flag a n := by
  rw [State.flag_eq_fld, fld_addFld_apart sorted _ _ h word, State.flag_eq_fld]

theorem fld_setFlag_apart (a : Nat) (x : Bool) {n hi lo : Nat} (h : n < lo ∨ hi < n) (word : hi < 32) :
    (s.setFlag a n x).fld a hi lo = s.fld a hi lo := by
  rw [State.fld, setFlag_reg]
  exact fld_setFld_apart sorted _ _ h word

theorem flag_setFlag_same (a : Nat) (x : Bool) {n : Nat} (word : n < 32) : (s.setFlag a n x).flag a n = x := by
  rw [State.flag, setFlag_reg, ← State.flag, State.flag_eq_fld, fld_setFld_same sorted _ _ (Nat.le_refl n) word, Nat.add_sub_cancel_left]
  cases x <;> rfl

theorem flag_setFlag_apart (a : Nat) (x : Bool) {n m : Nat} (h : n ≠ m) (word : m < 32) : (s.setFlag a n x).flag a m = s.flag a m := by
  rw [State.flag_eq_fld, fld_setFlag_apart sorted _ _ (by omega) word, State.flag_eq_fld]

end Sys2Proof.Machine
end

section
/-! SUPPORT. What an event of the harbour leaves of the banks: the cellar and its ECC words, the berths, the patrol, the rows under repair, and a
register that the event does not write. -/

namespace Sys2Proof.Machine

set_option Elab.async false

/-- From s to t the cellar's bytes and ECC words, the berths, the patrol's lines, the queued, running and unrecorded repairs and register a stay. -/
structure BanksStill (a : Nat) (s t : State) : Prop where
  mem : t.mem = s.mem
  ecc : t.ecc = s.ecc
  berths : t.berths = s.berths
  patrol : t.patrol = s.patrol
  repairQ : t.repairQ = s.repairQ
  repairing : t.repairing = s.repairing
  newRepairs : t.newRepairs = s.newRepairs
  sorted : tsorted s.regs = true → tsorted t.regs = true
  reg : tsorted s.regs = true → t.reg a = s.reg a

variable {a : Nat}

theorem BanksStill.refl (s : State) : BanksStill a s s := ⟨rfl, rfl, rfl, rfl, rfl, rfl, rfl, id, fun _ => rfl⟩

theorem BanksStill.trans {s t u : State} (h : BanksStill a s t) (k : BanksStill a t u) : BanksStill a s u :=
  ⟨k.mem.trans h.mem, k.ecc.trans h.ecc, k.berths.trans h.berths, k.patrol.trans h.patrol, k.repairQ.trans h.repairQ,
    k.repairing.trans h.repairing, k.newRepairs.trans h.newRepairs, k.sorted ∘ h.sorted, fun hs => (k.reg (h.sorted hs)).trans (h.reg hs)⟩

/-- Whatever rows the queue is given, before and after alike. -/
theorem BanksStill.requeue {s t : State} (h : BanksStill a s t) (l : List (Nat × Nat × Nat)) :
    BanksStill a { s with repairQ := l } { t with repairQ := l } :=
  ⟨h.mem, h.ecc, h.berths, h.patrol, rfl, h.repairing, h.newRepairs, h.sorted, h.reg⟩

theorem BanksStill.fld {s t : State} (h : BanksStill a s t) (hs : tsorted s.regs = true) (hi lo : Nat) : t.fld a hi lo = s.fld a hi lo := by
  rw [State.fld, h.reg hs, State.fld]

theorem BanksStill.flag {s t : State} (h : BanksStill a s t) (hs : tsorted s.regs = true) (n : Nat) : t.flag a n = s.flag a n := by
  rw [State.flag, h.reg hs, State.flag]

theorem foldl_banksStill {α : Type} {f : State → α → State} (h : ∀ t x, BanksStill a t (f t x)) (s : State) (l : List α) :
    BanksStill a s (l.foldl f s) := by
  induction l generalizing s with
  | nil => exact .refl s
  | cons x l ih => exact (h s x).trans (ih _)

theorem setReg_banksStill (s : State) {x : Nat} (v : Nat) (hx : a ≠ x) : BanksStill a s (s.setReg x v) :=
  ⟨rfl, rfl, rfl, rfl, rfl, rfl, rfl, setReg_sorted _ _, fun hs => reg_setReg_other _ hs hx⟩

theorem addFld_banksStill (s : State) {x : Nat} (hi lo k : Nat) (hx : a ≠ x) : BanksStill a s (s.addFld x hi lo k) :=
  setReg_banksStill s _ hx

theorem setFlag_banksStill (s : State) {x : Nat} (n : Nat) (v : Bool) (hx : a ≠ x) : BanksStill a s (s.setFlag x n v) := by
  have h : BanksStill a s (s.setFld x n n (b2n v)) := setReg_banksStill s _ hx
  cases v
  · exact h
  · exact h.trans ⟨rfl, rfl, rfl, rfl, rfl, rfl, rfl, id, fun _ => rfl⟩

/-- A fault record is in the fault log alone. -/
theorem logFault_records (s : State) (code die : Nat) (berth : Option Nat) (slot unit : Nat) (detail : List Nat) :
    ∃ l n, s.logFault code die berth slot unit detail = { s with faultLog := l, faultSeq := n } := ⟨_, _, rfl⟩

theorem logFault_banksStill (s : State) (code die : Nat) (berth : Option Nat) (slot unit : Nat) (detail : List Nat) :
    BanksStill a s (s.logFault code die berth slot unit detail) := by
  obtain ⟨l, n, record⟩ := logFault_records s code die berth slot unit detail
  rw [record]
  exact ⟨rfl, rfl, rfl, rfl, rfl, rfl, rfl, id, fun _ => rfl⟩

theorem modEp_banksStill (s : State) (e : Nat) (f : Endpoint → Endpoint) : BanksStill a s (s.modEp e f) :=
  ⟨rfl, rfl, rfl, rfl, rfl, rfl, rfl, id, fun _ => rfl⟩

theorem setPage_banksStill (s : State) (d p v : Nat) : BanksStill a s (s.setPage d p v) :=
  ⟨rfl, rfl, rfl, rfl, rfl, rfl, rfl, id, fun _ => rfl⟩

theorem noteWake_banksStill (s : State) (d : Nat) (l : List Nat) : BanksStill a s (s.noteWake d l) := by
  obtain ⟨e, note⟩ := noteWake_entries s d l
  rw [note]
  exact ⟨rfl, rfl, rfl, rfl, rfl, rfl, rfl, id, fun _ => rfl⟩

/-! The registers of ECC and repair stand at the end of their die block; an event's registers all stand below them. -/

variable (ha : 0x50800 ≤ a % 0x800000)
include ha

theorem hicSet_banksStill (s : State) (d : Nat) {src : Nat} (hs : src < 1024) : BanksStill a s (s.hicSet d src) := by
  have pend : a ≠ dieAddr d (R.HIC_PEND + 4 * (src / 32)) := by
    simp only [dieAddr, R.HIC_PEND]
    omega
  unfold State.hicSet
  dsimp only
  split
  · exact noteWake_banksStill ..
  · exact (noteWake_banksStill ..).trans ((setFlag_banksStill _ _ _ pend).trans ⟨rfl, rfl, rfl, rfl, rfl, rfl, rfl, id, fun _ => rfl⟩)

/-- Besides the update itself, a level source changes nothing of the banks. -/
theorem withLevel_banksStill (s : State) (d : Nat) {src : Nat} (hs : src < 1024) (f : State → State) :
    BanksStill a (f s) (s.withLevel d src f) := by
  unfold State.withLevel
  dsimp only
  split
  · exact hicSet_banksStill ha _ _ hs
  · exact .refl _

theorem emitVec_banksStill (s : State) {e v : Nat} (he : e < 2) (hv : v < 64) : BanksStill a s (s.emitVec e v) := by
  unfold State.emitVec
  split
  · exact setFlag_banksStill _ _ _ (by omega)
  · exact modEp_banksStill ..

theorem sendVec_banksStill (s : State) {e v : Nat} (he : e < 2) (hv : v < 64) : BanksStill a s (s.sendVec e v) := by
  unfold State.sendVec
  split
  · exact emitVec_banksStill ha _ he hv
  · split
    · exact .refl s
    · exact modEp_banksStill ..

theorem writeEvent_banksStill (s : State) {e : Nat} (he : e < 2) (ev : Event) : BanksStill a s (s.writeEvent e ev) := by
  unfold State.writeEvent
  dsimp only
  split
  · exact (modEp_banksStill ..).trans (sendVec_banksStill ha _ he (bitsOf_lt _ 21 16))
  · exact modEp_banksStill ..

theorem postTo_banksStill (s : State) {e : Nat} (he : e < 2) (ev : Event) : BanksStill a s (s.postTo e ev) := by
  unfold State.postTo
  split
  · exact .refl s
  · split
    · exact writeEvent_banksStill ha _ he ev
    · split
      · exact modEp_banksStill ..
      · refine (addFld_banksStill s 31 0 1 ?_).trans (modEp_banksStill ..)
        unfold ringBase
        omega

theorem post_banksStill (s : State) (code : Nat) (berth : Option Nat) (die : Nat) (l : List Byte) :
    BanksStill a s (s.post code berth die l) :=
  (postTo_banksStill ha s (by decide) _).trans (postTo_banksStill ha _ (by decide) _)

theorem recordTest_banksStill (s : State) (d kind unit result bit repairs addr : Nat) :
    BanksStill a s (s.recordTest d kind unit result bit repairs addr) := by
  have seq : a ≠ dieAddr d R.ST_SEQ := by
    simp only [dieAddr, R.ST_SEQ]
    omega
  unfold State.recordTest
  extract_lets _ _ _ old t
  have ht : BanksStill a s t :=
    BanksStill.trans (t := { s with testLog := old ++ _ }) ⟨rfl, rfl, rfl, rfl, rfl, rfl, rfl, id, fun _ => rfl⟩
      ((addFld_banksStill _ 31 0 1 seq).trans (hicSet_banksStill ha _ d (by decide)))
  split
  · exact ht.trans (post_banksStill ha ..)
  · exact ht

/-- Retiring pages that nothing holds touches the page ledger and the reports alone (R66). -/
theorem settleRetire_banksStill (s : State) : BanksStill a s s.settleRetire := by
  refine foldl_banksStill (fun t e => ?_) _ _
  split
  · exact BanksStill.trans (t := { t with retire := t.retire.erase e }) ⟨rfl, rfl, rfl, rfl, rfl, rfl, rfl, id, fun _ => rfl⟩
      ((setPage_banksStill ..).trans (recordTest_banksStill ha ..))
  · exact .refl t

end Sys2Proof.Machine
end

section
/-! SUPPORT. The patrol's reads of a line: what one checked ECC word, and then a line of them, corrects and counts (R57, R58, R61). -/

namespace Sys2Proof.Machine

set_option Elab.async false

/-- The key of the ECC word at a die-local word address. -/
def eccKey (d wa : Nat) : Nat := pkgWord d wa / 4

/-- What a correcting read leaves of an ECC word's error: a single-bit error goes, an uncorrectable one stays. -/
def corrected : Option EccErr → Option EccErr
  | some (.single _) => none
  | x => x

/-- An error that the ECC logic finds uncorrectable. -/
def EccErr.lost (z : EccErr) : Bool := decide (z = .double ∨ z = .poison)

/-- An error that it corrects. -/
def EccErr.mends (z : EccErr) : Bool := decide (z ≠ .double ∧ z ≠ .poison)

/-- How many of the ECC words at addresses l have an error of kind p. -/
def State.eccCount (s : State) (d : Nat) (p : EccErr → Bool) (l : List Nat) : Nat := l.countP (fun wa => (tfind s.ecc (eccKey d wa)).any p)

/-- From s to t the ECC words at addresses l are read, corrected and counted, and the patrol, the berths and the cells stay. -/
structure Scrubs (d : Nat) (l : List Nat) (s t : State) : Prop where
  mem : t.mem = s.mem
  berths : t.berths = s.berths
  patrol : t.patrol = s.patrol
  regs : tsorted t.regs = true
  ecc : tsorted t.ecc = true
  inside : ∀ wa ∈ l, tfind t.ecc (eccKey d wa) = corrected (tfind s.ecc (eccKey d wa))
  outside : ∀ k, k ∉ l.map (eccKey d) → tfind t.ecc k = tfind s.ecc k
  correctable : t.fld (dieAddr d R.ST_ECCCNT) 15 0 = (s.fld (dieAddr d R.ST_ECCCNT) 15 0 + s.eccCount d EccErr.mends l) % 2 ^ 16
  uncorrectable : t.fld (dieAddr d R.ST_ECCCNT) 31 16 = (s.fld (dieAddr d R.ST_ECCCNT) 31 16 + s.eccCount d EccErr.lost l) % 2 ^ 16

theorem Scrubs.nil (d : Nat) {s : State} (regs : tsorted s.regs = true) (ecc : tsorted s.ecc = true) : Scrubs d [] s s :=
  ⟨rfl, rfl, rfl, regs, ecc, nofun, fun _ _ => rfl, (Nat.mod_eq_of_lt (bitsOf_lt _ 15 0)).symm, (Nat.mod_eq_of_lt (bitsOf_lt _ 31 16)).symm⟩

/-- One word, and then a list without it. -/
theorem Scrubs.cons {d wa : Nat} {l : List Nat} {s t u : State} (h : Scrubs d [wa] s t) (k : Scrubs d l t u)
    (new : eccKey d wa ∉ l.map (eccKey d)) : Scrubs d (wa :: l) s u := by
  have apart {x : Nat} (hx : x ∈ l) : tfind t.ecc (eccKey d x) = tfind s.ecc (eccKey d x) :=
    h.outside _ (fun hk => new (List.mem_singleton.mp hk ▸ List.mem_map_of_mem hx))
  have count (p : EccErr → Bool) : s.eccCount d p [wa] + t.eccCount d p l = s.eccCount d p (wa :: l) := by
    have rest : t.eccCount d p l = s.eccCount d p l := List.countP_congr (fun x hx => by rw [apart hx])
    rw [rest]
    exact (List.countP_append (l₁ := [wa])).symm
  refine ⟨k.mem.trans h.mem, k.berths.trans h.berths, k.patrol.trans h.patrol, k.regs, k.ecc, ?inside, ?outside, ?ce, ?ue⟩
  case inside =>
    intro x hx
    rcases List.mem_cons.mp hx with rfl | hx
    · rw [k.outside _ new, h.inside _ List.mem_cons_self]
    · rw [k.inside x hx, apart hx]
  case outside =>
    intro j hj
    obtain ⟨here, rest⟩ := not_or.mp ((not_congr List.mem_cons).mp hj)
    rw [k.outside j rest, h.outside j ((not_congr List.mem_singleton).mpr here)]
  case ce => rw [k.correctable, h.correctable, Nat.mod_add_mod, Nat.add_assoc, count]
  case ue => rw [k.uncorrectable, h.uncorrectable, Nat.mod_add_mod, Nat.add_assoc, count]

theorem eccCnt_offset (d : Nat) : 0x50800 ≤ dieAddr d R.ST_ECCCNT % 0x800000 := by
  simp only [dieAddr, R.ST_ECCCNT]
  omega

theorem repair_offset (d : Nat) {b : Nat} (hb : b < 64) : 0x50800 ≤ dieAddr d (R.ST_REPAIR + 4 * b) % 0x800000 := by
  simp only [dieAddr, R.ST_REPAIR]
  omega

theorem eccCnt_ne_repair (d : Nat) {b : Nat} (hb : b < 64) : dieAddr d R.ST_ECCCNT ≠ dieAddr d (R.ST_REPAIR + 4 * b) := by
  simp only [dieAddr, R.ST_REPAIR, R.ST_ECCCNT]
  omega

/-- Logging an ECC error counts it in its half of ST_ECCCNT, before and after which nothing of the banks changes. -/
theorem logEcc_counts (s : State) (d wa : Nat) (ue scrub : Bool) (bit cls master : Nat) :
    let c := dieAddr d R.ST_ECCCNT
    ∃ u, BanksStill c s u ∧
      BanksStill c (u.addFld c (if ue then 31 else 15) (if ue then 16 else 0) 1) (s.logEcc d wa ue scrub bit cls master) := by
  have logA (n : Nat) : dieAddr d R.ST_ECCCNT ≠ dieAddr d (R.ST_ECCLOGA + 8 * (n % 16)) := by
    simp only [dieAddr, R.ST_ECCCNT, R.ST_ECCLOGA]
    omega
  have logB (n : Nat) : dieAddr d R.ST_ECCCNT ≠ dieAddr d (R.ST_ECCLOGB + 8 * (n % 16)) := by
    simp only [dieAddr, R.ST_ECCCNT, R.ST_ECCLOGB]
    omega
  have seq : dieAddr d R.ST_ECCCNT ≠ dieAddr d R.ST_ECCSEQ := by
    simp only [dieAddr, R.ST_ECCCNT, R.ST_ECCSEQ]
    omega
  intro c
  unfold State.logEcc
  extract_lets a i s1 s2
  have before : BanksStill c s s2 :=
    ((setReg_banksStill s _ (logA _)).trans (setReg_banksStill _ _ (logB _))).trans (addFld_banksStill _ 31 0 1 seq)
  refine ⟨s2, before, ?_⟩
  cases ue
  · exact hicSet_banksStill (eccCnt_offset d) _ d (by decide)
  · exact (hicSet_banksStill (eccCnt_offset d) _ d (by decide)).trans (logFault_banksStill ..)

theorem bankOf_lt (wa : Nat) : bankOf wa < 64 := by
  have high := bitsOf_lt wa 28 26
  have low := bitsOf_lt wa 7 5
  unfold bankOf
  omega

/-- Queueing a row changes, of the banks, the queue and the bank's own ST_REPAIRn. -/
theorem queueRepair_banksStill {a : Nat} (ha : 0x50800 ≤ a % 0x800000) (s : State) (d bank row : Nat)
    (other : a ≠ dieAddr d (R.ST_REPAIR + 4 * bank)) : ∃ l, BanksStill a { s with repairQ := l } (s.queueRepair d bank row) := by
  have raised (t : State) (n : Nat) :
      BanksStill a t (t.withLevel d 422 (fun t => t.setFlag (dieAddr d (R.ST_REPAIR + 4 * bank)) n true)) :=
    (setFlag_banksStill t n true other).trans (withLevel_banksStill ha t d (by decide) (fun t => t.setFlag _ n true))
  unfold State.queueRepair
  dsimp only
  split
  · refine ⟨s.repairQ, ?_⟩
    split
    · exact raised s 17
    · exact (raised s 17).trans ⟨rfl, rfl, rfl, rfl, rfl, rfl, rfl, id, fun _ => rfl⟩
  · split
    · exact ⟨s.repairQ, .refl s⟩
    · exact ⟨_, raised _ 16⟩

theorem countRowCe_banksStill (s : State) (d wa : Nat) :
    ∃ l, BanksStill (dieAddr d R.ST_ECCCNT) { s with repairQ := l } (s.countRowCe d wa) := by
  unfold State.countRowCe
  extract_lets k n s1 th
  have counted (l : List (Nat × Nat × Nat)) : BanksStill (dieAddr d R.ST_ECCCNT) { s with repairQ := l } { s1 with repairQ := l } :=
    ⟨rfl, rfl, rfl, rfl, rfl, rfl, rfl, id, fun _ => rfl⟩
  split
  · obtain ⟨l, still⟩ := queueRepair_banksStill (eccCnt_offset d) s1 d (bankOf wa) (rowOf wa) (eccCnt_ne_repair d (bankOf_lt wa))
    exact ⟨l, (counted l).trans still⟩
  · exact ⟨s1.repairQ, counted _⟩

theorem eccCount_singleton (s : State) (d wa : Nat) (p : EccErr → Bool) :
    s.eccCount d p [wa] = if (tfind s.ecc (eccKey d wa)).any p then 1 else 0 := List.countP_singleton

theorem eccRead_none {s : State} {d wa : Nat} (scrub : Bool) (cls master : Nat) (h : tfind s.ecc (eccKey d wa) = none) :
    (s.eccRead d wa scrub cls master).2 = s := by
  unfold eccKey at h
  simp only [State.eccRead, h]

theorem eccRead_single {s : State} {d wa bit : Nat} (scrub : Bool) (cls master : Nat) (h : tfind s.ecc (eccKey d wa) = some (.single bit)) :
    (s.eccRead d wa scrub cls master).2 =
      (({ s with ecc := tdel s.ecc (eccKey d wa) }).logEcc d wa false scrub bit cls master).countRowCe d wa := by
  unfold eccKey at h
  simp only [State.eccRead, h, eccKey]

theorem eccRead_lost {s : State} {d wa : Nat} {z : EccErr} (scrub : Bool) (cls master : Nat) (h : tfind s.ecc (eccKey d wa) = some z)
    (lost : z.lost = true) : (s.eccRead d wa scrub cls master).2 = s.logEcc d wa true scrub 127 cls master := by
  unfold eccKey at h
  rcases of_decide_eq_true lost with rfl | rfl <;> simp only [State.eccRead, h]

/-- Between s and t the ECC words become e, where the word read has its error z corrected, and the half of ST_ECCCNT that z belongs to counts it:
that is a read of the word. -/
theorem Scrubs.of_counted {d wa : Nat} {s u t : State} {z : EccErr} {e : Tbl EccErr} {l : List (Nat × Nat × Nat)}
    (regs : tsorted s.regs = true) (was : tfind s.ecc (eccKey d wa) = some z) (ecc : tsorted e = true)
    (here : tfind e (eccKey d wa) = corrected (some z)) (there : ∀ k, k ≠ eccKey d wa → tfind e k = tfind s.ecc k)
    (before : BanksStill (dieAddr d R.ST_ECCCNT) { s with ecc := e } u)
    (after : BanksStill (dieAddr d R.ST_ECCCNT)
      { u.addFld (dieAddr d R.ST_ECCCNT) (if z.lost then 31 else 15) (if z.lost then 16 else 0) 1 with repairQ := l } t) :
    Scrubs d [wa] s t := by
  have sorted := before.sorted regs
  have counted := addFld_sorted sorted (dieAddr d R.ST_ECCCNT) (if z.lost then 31 else 15) (if z.lost then 16 else 0) 1
  have same : t.ecc = e := after.ecc.trans before.ecc
  have mends : z.mends = !z.lost := by simp only [EccErr.mends, EccErr.lost, ← not_or, decide_not]
  refine ⟨after.mem.trans before.mem, after.berths.trans before.berths, after.patrol.trans before.patrol, after.sorted counted, same ▸ ecc,
    fun x hx => ?inside, fun k hk => ?outside, (after.fld counted 15 0).trans ?ce, (after.fld counted 31 16).trans ?ue⟩
  case inside => rw [List.mem_singleton.mp hx, same, was, here]
  case outside => rw [same, there k ((not_congr List.mem_singleton).mp hk)]
  all_goals
    rw [eccCount_singleton, was, Option.any_some]
    change State.fld (u.addFld _ _ _ 1) _ _ _ = _
  case ce =>
    rw [mends]
    cases z.lost
    · exact (fld_addFld_same sorted _ 1 (by decide) (by decide)).trans (by rw [before.fld regs]; rfl)
    · exact (fld_addFld_apart sorted _ 1 (by decide) (by decide)).trans
        ((before.fld regs 15 0).trans (Nat.mod_eq_of_lt (bitsOf_lt _ 15 0)).symm)
  case ue =>
    cases z.lost
    · exact (fld_addFld_apart sorted _ 1 (by decide) (by decide)).trans
        ((before.fld regs 31 16).trans (Nat.mod_eq_of_lt (bitsOf_lt _ 31 16)).symm)
    · exact (fld_addFld_same sorted _ 1 (by decide) (by decide)).trans (by rw [before.fld regs]; rfl)

section
variable {s : State} {d wa : Nat} (scrub : Bool) (cls master : Nat) (regs : tsorted s.regs = true) (ecc : tsorted s.ecc = true)
include regs ecc

/-- An uncorrectable word stays and is counted (R58). -/
theorem eccRead_lost_scrubs {z : EccErr} (h : tfind s.ecc (eccKey d wa) = some z) (lost : z.lost = true) :
    Scrubs d [wa] s (s.eccRead d wa scrub cls master).2 := by
  have stays : some z = corrected (some z) := by rcases of_decide_eq_true lost with rfl | rfl <;> rfl
  obtain ⟨u, before, after⟩ := logEcc_counts s d wa true scrub 127 cls master
  rw [eccRead_lost scrub cls master h lost]
  refine .of_counted (l := u.repairQ) regs h ecc (h.trans stays) (fun _ _ => rfl) before ?_
  rw [lost]
  exact after

/-- A single-bit error is written back corrected and counted (R57). -/
theorem eccRead_single_scrubs {bit : Nat} (h : tfind s.ecc (eccKey d wa) = some (.single bit)) :
    Scrubs d [wa] s (s.eccRead d wa scrub cls master).2 := by
  obtain ⟨u, before, after⟩ := logEcc_counts { s with ecc := tdel s.ecc (eccKey d wa) } d wa false scrub bit cls master
  rw [eccRead_single scrub cls master h]
  generalize State.logEcc _ _ _ _ _ _ _ _ = v at after
  obtain ⟨l, row⟩ := countRowCe_banksStill v d wa
  exact .of_counted regs h (tsorted_tdel _ ecc) (tfind_tdel_same _ ecc) (fun _ => tfind_tdel_other ecc) before ((after.requeue l).trans row)

/-- A checked read of one ECC word whose error is not of three or more bits. -/
theorem eccRead_scrubs (few : tfind s.ecc (eccKey d wa) ≠ some .multi) : Scrubs d [wa] s (s.eccRead d wa scrub cls master).2 := by
  rcases h : tfind s.ecc (eccKey d wa) with _ | (bit | _ | _ | _)
  case none =>
    rw [eccRead_none scrub cls master h]
    refine ⟨rfl, rfl, rfl, regs, ecc, fun x hx => ?inside, fun _ _ => rfl, ?ce, ?ue⟩
    case inside =>
      rw [List.mem_singleton.mp hx, h]
      rfl
    all_goals rw [eccCount_singleton, h]
    · exact (Nat.mod_eq_of_lt (bitsOf_lt _ 15 0)).symm
    · exact (Nat.mod_eq_of_lt (bitsOf_lt _ 31 16)).symm
  case some.single => exact eccRead_single_scrubs scrub cls master regs ecc h
  case some.double => exact eccRead_lost_scrubs scrub cls master regs ecc h rfl
  case some.poison => exact eccRead_lost_scrubs scrub cls master regs ecc h rfl
  case some.multi => exact absurd h few

end

/-- A run of checked reads of different ECC words, none with an error of three or more bits. -/
theorem foldl_eccRead_scrubs (d : Nat) (scrub : Bool) (cls master : Nat) (l : List Nat) (s : State) (regs : tsorted s.regs = true)
    (ecc : tsorted s.ecc = true) (apart : (l.map (eccKey d)).Nodup) (few : ∀ wa ∈ l, tfind s.ecc (eccKey d wa) ≠ some .multi) :
    Scrubs d l s (l.foldl (fun (t : State) wa => (t.eccRead d wa scrub cls master).2) s) := by
  induction l generalizing s with
  | nil => exact .nil d regs ecc
  | cons wa l ih =>
    obtain ⟨new, rest⟩ := List.nodup_cons.mp apart
    have first := eccRead_scrubs scrub cls master regs ecc (few wa List.mem_cons_self)
    refine first.cons (ih _ first.regs first.ecc rest (fun x hx => ?_)) new
    rw [first.outside _ (fun hk => new (List.mem_singleton.mp hk ▸ List.mem_map_of_mem hx))]
    exact few x (List.mem_cons_of_mem _ hx)

/-- The eight ECC words of a line have keys in a row. -/
theorem eccKey_lineAddr (d b n : Nat) {i : Nat} (hi : i < 8) : eccKey d (lineAddr b n (4 * i)) = eccKey d (lineAddr b n 0) + i := by
  unfold eccKey pkgWord lineAddr
  omega

/-- The addresses of the ECC words of line n of bank b. -/
def lineWords (b n : Nat) : List Nat := (List.range 8).map (fun i => lineAddr b n (4 * i))

theorem lineWords_apart (d b n : Nat) : ((lineWords b n).map (eccKey d)).Nodup := by
  rw [lineWords, List.map_map]
  refine List.pairwise_map.mpr (List.nodup_range.imp_of_mem (fun hi hj apart same => apart ?_))
  rw [Function.comp, Function.comp, eccKey_lineAddr d b n (List.mem_range.mp hi), eccKey_lineAddr d b n (List.mem_range.mp hj)] at same
  exact Nat.add_left_cancel same

end Sys2Proof.Machine
end

section
/-! PATROL_SCRUB_READ on a bank that the patrol reads, and on one that it does not (R57, R58, R61). -/

namespace Sys2Proof.Machine

set_option Elab.async false

/-- No row of bank b of die d is under repair. -/
def State.unrepaired (s : State) (d b : Nat) : Prop := ∀ e ∈ s.repairing, e.1 = d → e.2.1 ≠ b

/-- The patrol reads bank b of die d: it is enabled, the bank is on and no row of it is under repair (R61, R65). -/
def State.patrols (s : State) (d b : Nat) : Prop :=
  s.flag (dieAddr d R.ST_ECCCFG) 8 = true ∧ s.bankOn d (lineAddr b 0 0) = true ∧ s.unrepaired d b

theorem any_bank_false {l : List (Nat × Nat × Nat)} {d b : Nat} :
    l.any (fun e => decide (e.1 = d ∧ e.2.1 = b)) = false ↔ ∀ e ∈ l, e.1 = d → e.2.1 ≠ b := by
  simp only [List.any_eq_false, decide_eq_true_eq, not_and, ne_eq]

theorem any_bank_true {l : List (Nat × Nat × Nat)} {d b : Nat} :
    l.any (fun e => decide (e.1 = d ∧ e.2.1 = b)) = true ↔ ∃ e ∈ l, e.1 = d ∧ e.2.1 = b := by
  simp only [List.any_eq_true, decide_eq_true_eq]

theorem patrols_iff {s : State} {d b : Nat} : s.patrols d b ↔
    (s.flag (dieAddr d R.ST_ECCCFG) 8 && s.bankOn d (lineAddr b 0 0) &&
      !(s.repairing.any (fun e => decide (e.1 = d ∧ e.2.1 = b)))) = true := by
  rw [Bool.and_eq_true, Bool.and_eq_true, Bool.not_eq_true', any_bank_false, and_assoc]
  rfl

/-- An upset is in the ECC words alone. -/
theorem upset_ecc (s : State) (d wa kind bit : Nat) : ∃ e, s.upset d wa kind bit = { s with ecc := e } := by
  unfold State.upset
  extract_lets k e old new gone
  split
  · exact ⟨_, rfl⟩
  · exact ⟨_, rfl⟩

/-- The state in which the patrol reads: an upset may have struck. -/
def State.struck (s : State) (d : Nat) : Option (Nat × Nat × Nat) → State
  | some (wa, kind, bit) => s.upset d wa kind bit
  | none => s

theorem struck_patrols (s : State) (d b : Nat) (up : Option (Nat × Nat × Nat)) : (s.struck d up).patrols d b ↔ s.patrols d b := by
  rcases up with _ | ⟨wa, kind, bit⟩
  · rfl
  · obtain ⟨e, he⟩ := upset_ecc s d wa kind bit
    rw [State.struck, he]
    rfl

/-- The patrol's read of line n of bank b: the line's ECC words, and the next line. -/
def State.patrolRead (s : State) (d b n : Nat) : State :=
  let u := if n = 0 then { s with rowCe := s.rowCe.filter (fun e => decide (e.1 / 2048 ≠ d * 64 + b)) } else s
  let t := (List.range 8).foldl (fun (t : State) i => (t.eccRead d (lineAddr b n (4 * i)) true 15 0).2) u
  { t with patrol := tput t.patrol (d * 64 + b) ((n + 1) % 262144) 0 }

section
variable {s : State} {d b at_ : Nat} (die : s.hasDie d = true) (hb : b < 64)
include die hb

/-- A bank that the patrol does not read is left as the upset, if any, made it. -/
theorem patrolScrubRead_idle (up : Option (Nat × Nat × Nat)) (off : ¬ (s.at at_).patrols d b) :
    exec (.patrolScrubRead d b up at_) s = .next ((s.at at_).struck d up) := by
  rw [← struck_patrols _ _ _ up, patrols_iff, Bool.not_eq_true, ← Bool.not_eq_true'] at off
  change execPatrolScrubRead d b up at_ s = _
  unfold execPatrolScrubRead State.onDie
  rw [if_pos die, Nat.mod_eq_of_lt hb]
  cases up
  · exact congrArg Host.Outcome.next (if_pos off)
  · exact congrArg Host.Outcome.next (if_pos off)

theorem patrolScrubRead_on (on : (s.at at_).patrols d b) :
    exec (.patrolScrubRead d b none at_) s =
      .next ((s.at at_).patrolRead d b (tget (s.at at_).patrol (d * 64 + b) 0)).settleRetire := by
  rw [patrols_iff, ← Bool.not_eq_false, ← Bool.not_eq_true'] at on
  change execPatrolScrubRead d b none at_ s = _
  unfold execPatrolScrubRead State.onDie
  rw [if_pos die, Nat.mod_eq_of_lt hb]
  exact congrArg Host.Outcome.next (if_neg on)

end

/-- A patrol's read scrubs the line's words and steps on to the next line of the bank. -/
theorem patrolRead_scrubs {u : State} (d b n : Nat) (regs : tsorted u.regs = true) (ecc : tsorted u.ecc = true)
    (few : ∀ wa ∈ lineWords b n, tfind u.ecc (eccKey d wa) ≠ some .multi) :
    ∃ t, Scrubs d (lineWords b n) u t ∧ u.patrolRead d b n = { t with patrol := tput t.patrol (d * 64 + b) ((n + 1) % 262144) 0 } := by
  have reads (rows : Tbl Nat) : Scrubs d (lineWords b n) u
      ((List.range 8).foldl (fun (t : State) i => (t.eccRead d (lineAddr b n (4 * i)) true 15 0).2) { u with rowCe := rows }) := by
    have run := foldl_eccRead_scrubs d true 15 0 (lineWords b n) { u with rowCe := rows } regs ecc (lineWords_apart d b n) few
    rw [lineWords, List.foldl_map] at run
    exact ⟨run.mem, run.berths, run.patrol, run.regs, run.ecc, run.inside, run.outside, run.correctable, run.uncorrectable⟩
  unfold State.patrolRead
  dsimp only
  split
  · exact ⟨_, reads _, rfl⟩
  · exact ⟨_, reads u.rowCe, rfl⟩

end Sys2Proof.Machine
end

section
/-! ROW_REPAIR_START and ROW_REPAIR_DONE: a queued row begins or leaves the queue, and the copy of a row ends (R65, R66, Table 2-2). -/

namespace Sys2Proof.Machine

set_option Elab.async false

section
variable {s : State} {d b at_ row : Nat} (die : s.hasDie d = true) (hb : b < 64)
include die hb

/-- The queued repair of a bank begins while a spare row is left. -/
theorem rowRepairStart_begins (free : (s.at at_).unrepaired d b)
    (queued : (s.at at_).repairQ.find? (fun e => decide (e.1 = d ∧ e.2.1 = b)) = some (d, b, row))
    (left : (s.at at_).fld (dieAddr d (R.ST_REPAIR + 4 * b)) 5 0 < 32) :
    exec (.rowRepairStart d b at_) s = .next { s.at at_ with
      repairQ := (s.at at_).repairQ.erase (d, b, row), repairing := (s.at at_).repairing ++ [(d, b, row)] } := by
  change execRowRepairStart d b at_ s = _
  unfold execRowRepairStart State.onDie
  simp only [if_pos die, Nat.mod_eq_of_lt hb, queued, any_bank_false.mpr free, Bool.false_eq_true, if_false, if_neg (Nat.not_le.mpr left)]

/-- With no spare row left the queued repair leaves the queue, its page to be retired (R66). -/
theorem rowRepairStart_dropped (free : (s.at at_).unrepaired d b)
    (queued : (s.at at_).repairQ.find? (fun e => decide (e.1 = d ∧ e.2.1 = b)) = some (d, b, row))
    (full : 32 ≤ (s.at at_).fld (dieAddr d (R.ST_REPAIR + 4 * b)) 5 0) :
    exec (.rowRepairStart d b at_) s = .next
      (({ s.at at_ with repairQ := (s.at at_).repairQ.erase (d, b, row) }.queueRepair d b row).settlePending d b).settleRetire := by
  change execRowRepairStart d b at_ s = _
  unfold execRowRepairStart State.onDie
  simp only [if_pos die, Nat.mod_eq_of_lt hb, queued, any_bank_false.mpr free, Bool.false_eq_true, if_false, if_pos full]

/-- The end of a repair: the copy, the spare row taken, and PENDING settled. -/
theorem rowRepairDone_eq (running : (s.at at_).repairing.find? (fun e => decide (e.1 = d ∧ e.2.1 = b)) = some (d, b, row)) :
    exec (.rowRepairDone d b at_) s = .next (({ (s.at at_).copyRow d b row with
      repairing := (s.at at_).repairing.erase (d, b, row)
      newRepairs := (s.at at_).newRepairs ++ [(d, b, row, (s.at at_).freeSpare d b, 3)] }.countSpare d b).settlePending d b) := by
  change execRowRepairDone d b at_ s = _
  unfold execRowRepairDone State.onDie
  simp only [if_pos die, Nat.mod_eq_of_lt hb, running]

end

section
variable (s : State) (d b : Nat)

theorem settlePending_mem : (s.settlePending d b).mem = s.mem := State.setFlag_mem ..
theorem settlePending_ecc : (s.settlePending d b).ecc = s.ecc := State.setFlag_ecc ..
theorem settlePending_repairQ : (s.settlePending d b).repairQ = s.repairQ := State.setFlag_repairQ ..
theorem settlePending_repairing : (s.settlePending d b).repairing = s.repairing := State.setFlag_repairing ..
theorem settlePending_newRepairs : (s.settlePending d b).newRepairs = s.newRepairs := State.setFlag_newRepairs ..

variable {s : State} {d b : Nat} (sorted : tsorted s.regs = true)
include sorted

theorem settlePending_sorted : tsorted (s.settlePending d b).regs = true := setFlag_sorted sorted ..

/-- PENDING tells whether a row of the bank is queued or being copied. -/
theorem settlePending_flag : (s.settlePending d b).flag (dieAddr d (R.ST_REPAIR + 4 * b)) 16 = true ↔
    ∃ e ∈ s.repairQ ++ s.repairing, e.1 = d ∧ e.2.1 = b := by
  rw [State.settlePending, flag_setFlag_same sorted _ _ (by decide), any_bank_true]

end

/-- Queueing a row of a bank that has no spare row sets EXHAUSTED; of the banks nothing else changes (R66). -/
theorem queueRepair_exhausted {s : State} {d b : Nat} (hb : b < 64) (row : Nat) (full : 32 ≤ s.fld (dieAddr d (R.ST_REPAIR + 4 * b)) 5 0) :
    BanksStill (dieAddr d (R.ST_REPAIR + 4 * b)) (s.setFlag (dieAddr d (R.ST_REPAIR + 4 * b)) 17 true) (s.queueRepair d b row) := by
  have raised := withLevel_banksStill (repair_offset d hb) s d (src := 422) (by decide)
    (fun t => t.setFlag (dieAddr d (R.ST_REPAIR + 4 * b)) 17 true)
  unfold State.queueRepair
  dsimp only
  rw [if_pos full]
  split
  · exact raised
  · exact raised.trans ⟨rfl, rfl, rfl, rfl, rfl, rfl, rfl, id, fun _ => rfl⟩

/-- A spare row more is used: of the banks USED and EXHAUSTED change alone. -/
structure SpareCounted (d b : Nat) (s t : State) : Prop where
  mem : t.mem = s.mem
  ecc : t.ecc = s.ecc
  repairQ : t.repairQ = s.repairQ
  repairing : t.repairing = s.repairing
  newRepairs : t.newRepairs = s.newRepairs
  sorted : tsorted t.regs = true
  used : t.fld (dieAddr d (R.ST_REPAIR + 4 * b)) 5 0 = (s.fld (dieAddr d (R.ST_REPAIR + 4 * b)) 5 0 + 1) % 64
  exhausted : t.flag (dieAddr d (R.ST_REPAIR + 4 * b)) 17 = true ↔
    s.flag (dieAddr d (R.ST_REPAIR + 4 * b)) 17 = true ∨ 32 ≤ (s.fld (dieAddr d (R.ST_REPAIR + 4 * b)) 5 0 + 1) % 64

theorem countSpare_counted {s : State} (d : Nat) {b : Nat} (hb : b < 64) (regs : tsorted s.regs = true) : SpareCounted d b s (s.countSpare d b) := by
  unfold State.countSpare
  extract_lets a t
  have sorted : tsorted t.regs = true := addFld_sorted regs ..
  have used : t.fld a 5 0 = (s.fld a 5 0 + 1) % 64 := fld_addFld_same regs a 1 (by decide) (by decide)
  have before : t.flag a 17 = s.flag a 17 := flag_addFld_apart regs a 1 (by decide) (by decide)
  split
  next full =>
    have raised := withLevel_banksStill (repair_offset d hb) t d (src := 422) (by decide) (fun u => u.setFlag a 17 true)
    have flagged := setFlag_sorted sorted a 17 true
    refine ⟨raised.mem.trans (State.setFlag_mem ..), raised.ecc.trans (State.setFlag_ecc ..), raised.repairQ.trans (State.setFlag_repairQ ..),
      raised.repairing.trans (State.setFlag_repairing ..), raised.newRepairs.trans (State.setFlag_newRepairs ..), raised.sorted flagged, ?_, ?_⟩
    · rw [raised.fld flagged, fld_setFlag_apart sorted _ _ (by decide) (by decide), used]
    · rw [raised.flag flagged, flag_setFlag_same sorted _ _ (by decide), ← used]
      exact iff_of_true rfl (Or.inr full)
  next left =>
    refine ⟨rfl, rfl, rfl, rfl, rfl, sorted, used, ?_⟩
    rw [before, ← used]
    exact (or_iff_left left).symm

theorem SpareCounted.settlePending {d b : Nat} {s t : State} (h : SpareCounted d b s t) : SpareCounted d b s (t.settlePending d b) where
  mem := (settlePending_mem ..).trans h.mem
  ecc := (settlePending_ecc ..).trans h.ecc
  repairQ := (settlePending_repairQ ..).trans h.repairQ
  repairing := (settlePending_repairing ..).trans h.repairing
  newRepairs := (settlePending_newRepairs ..).trans h.newRepairs
  sorted := settlePending_sorted h.sorted
  used := (fld_setFlag_apart h.sorted _ _ (by decide) (by decide)).trans h.used
  exhausted := by
    rw [State.settlePending, flag_setFlag_apart h.sorted _ _ (by decide) (by decide)]
    exact h.exhausted

/-- A row queued in a bank that has no spare row leaves the queue q that is left, and PENDING tells whether another row of the bank is in it. -/
theorem dropRow_leaves {u : State} {d b : Nat} (hb : b < 64) (q : List (Nat × Nat × Nat)) (row : Nat) (free : u.unrepaired d b)
    (full : 32 ≤ u.fld (dieAddr d (R.ST_REPAIR + 4 * b)) 5 0) (regs : tsorted u.regs = true) :
    let t := (({ u with repairQ := q }.queueRepair d b row).settlePending d b).settleRetire
    t.repairing = u.repairing ∧ t.repairQ = q ∧
      (t.flag (dieAddr d (R.ST_REPAIR + 4 * b)) 16 = true ↔ ∃ e ∈ t.repairQ, e.1 = d ∧ e.2.1 = b) := by
  intro t
  have flagged := queueRepair_exhausted (s := { u with repairQ := q }) hb row full
  have regs' := flagged.sorted (setFlag_sorted (s := { u with repairQ := q }) regs ..)
  have repairing := flagged.repairing.trans (State.setFlag_repairing ..)
  have repairQ := flagged.repairQ.trans (State.setFlag_repairQ ..)
  have still : BanksStill (dieAddr d (R.ST_REPAIR + 4 * b)) _ t := settleRetire_banksStill (repair_offset d hb) _
  have queue : t.repairQ = q := still.repairQ.trans ((settlePending_repairQ ..).trans repairQ)
  refine ⟨still.repairing.trans ((settlePending_repairing ..).trans repairing), queue, ?_⟩
  rw [still.flag (settlePending_sorted regs'), settlePending_flag regs', queue, repairQ, repairing]
  simp only [List.mem_append, or_and_right, exists_or]
  exact or_iff_left (fun ⟨e, he, die, bank⟩ => free e he die bank)

/-- What the copy of a row makes of an ECC word's error: a single-bit error goes, any other becomes poison. -/
def copied : Option EccErr → Option EccErr
  | none => none
  | some (.single _) => none
  | some _ => some .poison

theorem copied_copied (x : Option EccErr) : copied (copied x) = copied x := by
  rcases x with _ | (_ | _ | _ | _) <;> rfl

theorem copied_ne_multi (x : Option EccErr) : copied x ≠ some .multi := by
  rcases x with _ | (_ | _ | _ | _) <;> nofun

/-- The copy of one ECC word whose error is not of three or more bits changes the error of that word alone. -/
theorem copyEcc_ecc {s : State} {d wa : Nat} (ecc : tsorted s.ecc = true) (few : tfind s.ecc (eccKey d wa) ≠ some .multi) :
    ∃ c, s.copyEcc d wa = { s with ecc := c } ∧ tsorted c = true ∧ tfind c (eccKey d wa) = copied (tfind s.ecc (eccKey d wa)) ∧
      ∀ k, k ≠ eccKey d wa → tfind c k = tfind s.ecc k := by
  unfold eccKey at few ⊢
  rcases h : tfind s.ecc (pkgWord d wa / 4) with _ | (bit | _ | _ | _)
  case none => exact ⟨s.ecc, by simp only [State.copyEcc, h], ecc, h, fun _ _ => rfl⟩
  case some.single => exact ⟨_, by simp only [State.copyEcc, h], tsorted_tdel _ ecc, tfind_tdel_same _ ecc, fun _ => tfind_tdel_other ecc⟩
  case some.multi => exact absurd h few
  all_goals exact ⟨_, by simp only [State.copyEcc, h], tsorted_tins _ _ ecc, tfind_tins_same .., fun _ => tfind_tins_other _ _⟩

/-- An ECC word of die d has the key of its own address in the die. -/
theorem eccKey_of_die {d k : Nat} (h : k * 4 / 2 ^ 29 = d) : eccKey d (k * 4 % 2 ^ 29) = k := by
  unfold eccKey pkgWord
  omega

/-- The copy of the ECC words with keys l of die d. -/
theorem foldl_copyEcc_ecc {d : Nat} (l : List Nat) (s : State) (ecc : tsorted s.ecc = true) (die : ∀ k ∈ l, k * 4 / 2 ^ 29 = d)
    (few : ∀ k ∈ l, tfind s.ecc k ≠ some .multi) :
    ∃ c, l.foldl (fun (t : State) k => t.copyEcc d (k * 4 % 2 ^ 29)) s = { s with ecc := c } ∧ tsorted c = true ∧
      (∀ k ∈ l, tfind c k = copied (tfind s.ecc k)) ∧ ∀ k, k ∉ l → tfind c k = tfind s.ecc k := by
  induction l generalizing s with
  | nil => exact ⟨s.ecc, rfl, ecc, nofun, fun _ _ => rfl⟩
  | cons j l ih =>
    have key := eccKey_of_die (die j List.mem_cons_self)
    obtain ⟨c, first, sorted, here, there⟩ := copyEcc_ecc (wa := j * 4 % 2 ^ 29) ecc (key.symm ▸ few j List.mem_cons_self)
    rw [key] at here there
    have either (k : Nat) : tfind c k = tfind s.ecc k ∨ tfind c k = copied (tfind s.ecc k) := by
      by_cases same : k = j
      · exact .inr (same ▸ here)
      · exact .inl (there k same)
    have few' (k : Nat) (hk : k ∈ l) : tfind c k ≠ some .multi := by
      rcases either k with same | gone
      · exact same ▸ few k (List.mem_cons_of_mem _ hk)
      · exact gone ▸ copied_ne_multi _
    obtain ⟨c', rest, sorted', inside, outside⟩ := ih { s with ecc := c } sorted (fun k hk => die k (List.mem_cons_of_mem _ hk)) few'
    refine ⟨c', by rw [List.foldl_cons, first, rest], sorted', fun k hk => ?_, fun k hk => ?_⟩
    · by_cases later : k ∈ l
      · refine (inside k later).trans ?_
        rcases either k with same | gone
        · exact congrArg copied same
        · exact (congrArg copied gone).trans (copied_copied _)
      · have same : k = j := (List.mem_cons.mp hk).resolve_right later
        rw [outside k later, same]
        exact here
    · obtain ⟨other, rest⟩ := not_or.mp ((not_congr List.mem_cons).mp hk)
      rw [outside k rest]
      exact there k other

/-- A key that a table does not list is not found. -/
theorem tfind_of_not_listed {α : Type} {t : Tbl α} {k : Nat} (h : k ∉ t.map (·.1)) : tfind t k = none := by
  induction t with
  | nil => rfl
  | cons e r ih =>
    obtain ⟨other, rest⟩ := not_or.mp ((not_congr List.mem_cons).mp h)
    rw [tfind, if_neg (Ne.symm other), ih rest, ite_self]

/-- The ECC word with key k lies in a row of a bank of die d. -/
def InRow (d b row k : Nat) : Prop := k * 4 / 2 ^ 29 = d ∧ bankOf (k * 4 % 2 ^ 29) = b ∧ rowOf (k * 4 % 2 ^ 29) = row

/-- The copy of a row changes the errors of the row's ECC words alone. -/
theorem copyRow_ecc {s : State} {d b row : Nat} (ecc : tsorted s.ecc = true) (few : ∀ k, InRow d b row k → tfind s.ecc k ≠ some .multi) :
    ∃ c, s.copyRow d b row = { s with ecc := c } ∧ (∀ k, InRow d b row k → tfind c k = copied (tfind s.ecc k)) ∧
      ∀ k, ¬ InRow d b row k → tfind c k = tfind s.ecc k := by
  have listed {k : Nat} : k ∈ (s.ecc.map (·.1)).filter (fun k =>
      decide (k * 4 / 2 ^ 29 = d ∧ bankOf (k * 4 % 2 ^ 29) = b ∧ rowOf (k * 4 % 2 ^ 29) = row)) ↔
      k ∈ s.ecc.map (·.1) ∧ InRow d b row k := by
    rw [List.mem_filter, decide_eq_true_eq, InRow]
  obtain ⟨c, copy, -, inside, outside⟩ := foldl_copyEcc_ecc _ s ecc (fun k hk => (listed.mp hk).2.1) (fun k hk => few k (listed.mp hk).2)
  refine ⟨c, copy, fun k hk => ?_, fun k hk => outside k (fun h => hk (listed.mp h).2)⟩
  by_cases there : k ∈ s.ecc.map (·.1)
  · exact inside k (listed.mpr ⟨there, hk⟩)
  · rw [outside k (fun h => there (listed.mp h).1), tfind_of_not_listed there]
    rfl

end Sys2Proof.Machine
end

section
/-! The patrol and the repair of rows (R57, R58, R61, R64 to R66). -/

namespace Sys2Proof.Machine

set_option Elab.async false

/-- Settles O35: the patrol's reads word by word, a repair's start by the spare rows left, and its end by the copy of the row. -/
theorem patrolAndRowRepair : Obligations.PatrolAndRowRepair := by
  intro s d b at_ die hb u line key on count cnt used
  refine ⟨?idle, ?patrol, ?begins, ?dropped, ?done⟩
  case idle =>
    intro up off
    have idle := patrolScrubRead_idle die hb up off
    exact ⟨fun h => by subst h; exact idle, fun wa kind bit h => by subst h; exact idle⟩
  case patrol =>
    intro isOn regs ecc patrol _ few
    obtain ⟨t, scrubs, read⟩ := patrolRead_scrubs d b line regs ecc
      (List.forall_mem_map.mpr (fun i hi => few i (List.mem_range.mp hi)))
    have still := settleRetire_banksStill (eccCnt_offset d) (u.patrolRead d b line)
    have found (p : EccErr → Bool) : u.eccCount d p (lineWords b line) = count p := List.countP_map
    rw [read] at still
    refine ⟨_, (patrolScrubRead_on die hb isOn).trans (by rw [read]), ?next, still.mem.trans scrubs.mem, still.berths.trans scrubs.berths,
      fun i hi => ?word, ?ce, ?ue⟩
    case next =>
      rw [still.patrol]
      exact tget_tput_same _ _ _ (scrubs.patrol ▸ patrol)
    case word =>
      rw [still.ecc]
      exact scrubs.inside _ (List.mem_map_of_mem (List.mem_range.mpr hi))
    case ce =>
      rw [still.fld scrubs.regs]
      exact found EccErr.mends ▸ scrubs.correctable
    case ue =>
      rw [still.fld scrubs.regs]
      exact found EccErr.lost ▸ scrubs.uncorrectable
  case begins => exact fun row queued free left => rowRepairStart_begins die hb free queued left
  case dropped =>
    exact fun row queued free full regs => ⟨_, rowRepairStart_dropped die hb free queued full, dropRow_leaves hb _ row free full regs⟩
  case done =>
    intro row inRow running regs ecc few
    obtain ⟨c, copy, inside, outside⟩ := copyRow_ecc ecc few
    have done := rowRepairDone_eq die hb running
    rw [copy] at done
    have counted := countSpare_counted (s := { u with
      ecc := c, repairing := u.repairing.erase (d, b, row), newRepairs := u.newRepairs ++ [(d, b, row, u.freeSpare d b, 3)] }) d hb regs
    have ended := counted.settlePending
    refine ⟨_, done, ended.mem, ended.repairing, ended.newRepairs, ended.used, ended.exhausted, ?pending, fun k hk => ?inside,
      fun k hk => ?outside⟩
    case pending => rw [settlePending_flag counted.sorted, counted.repairQ, settlePending_repairing]
    all_goals rw [ended.ecc]
    case inside =>
      refine (inside k hk).trans ?_
      rcases tfind u.ecc k with _ | (_ | _ | _ | _) <;> rfl
    case outside => exact outside k hk

end Sys2Proof.Machine
end
